-- ==== Sys2Proof/Word.lean ====
section
/-! DEFINITION. The word types of Axlux and the plainest arithmetic on them (spec 00_scope R2). -/

namespace Sys2Proof

/-- A byte of memory. -/
abbrev Byte := BitVec 8
/-- A 16-bit parcel (R51). -/
abbrev Parcel := BitVec 16
/-- A 32-bit register (R31). -/
abbrev Word := BitVec 32
/-- A 64-bit pair value (R33). -/
abbrev Pair := BitVec 64

/-- The pair value of an even (low) and an odd (high) register (R2, R33). -/
def pairOf (lo hi : Word) : Pair := hi ++ lo

/-- Bits 31:0 of a pair value. -/
def Pair.lo (x : Pair) : Word := x.setWidth 32

/-- Bits 63:32 of a pair value. -/
def Pair.hi (x : Pair) : Word := (x >>> 32).setWidth 32

end Sys2Proof
end

