-- ==== Sys2Proof/Syntax.lean ====
section
/-! DEFINITION. The instructions of Nelcy: source operands, modifier records, and the ONE inductive `Instr`, with
one constructor for each row of spec/opcode_table.json: the D and L forms, their C and W short forms (03_encoding),
and the events of the device's units (95_what_each_step_holds). An event constructor carries what is decided
outside the machine (which unit moves, what an outside party sends). -/

namespace Sys2Proof

/-! ## Source operands (03_encoding R58, Table 3-6) -/

/-- Thread specials, in the order of R38. -/
inductive Special where
  | tid | lane | slot | cx | cy | rw | rh | nth
  deriving DecidableEq, Repr

/-- A 9-bit source of a D or L form. `imm v` has the signed value of `v` (−16 … 15); `latch k` is L(k+1);
`lit` is code 511, the L form's literal. -/
inductive Src where
  | reg (n : BitVec 8)
  | latch (k : BitVec 3)
  | special (s : Special)
  | imm (v : BitVec 5)
  | lit
  deriving DecidableEq, Repr

/-- An 8-bit source of a W form; `imm v` has the signed value of `v` (−32 … 31). -/
inductive SrcW where
  | reg (n : BitVec 7)
  | latch (k : BitVec 3)
  | special (s : Special)
  | imm (v : BitVec 6)
  deriving DecidableEq, Repr

/-- A 6-bit source of a C form; `imm k` is code 40 + k: the integer k − 1, or entry k of Table 3-7. -/
inductive SrcC where
  | reg (n : BitVec 5)
  | latch (k : BitVec 3)
  | imm (k : BitVec 4)
  | special (s : Special)
  deriving DecidableEq, Repr

/-- Fields D, N, A, B, C and the literal of a D or L form (Table 3-4). An unused field is `.reg 0` (code 0).
The L form is the one that holds a literal. -/
structure DF where
  d : BitVec 8
  n : Bool
  a : Src
  b : Src
  c : Src
  lit : Option Word
  deriving DecidableEq, Repr

/-- Fields of a W form with two sources (Table 3-3). -/
structure WF where
  d : BitVec 7
  a : BitVec 7
  b : SrcW
  deriving DecidableEq, Repr

/-- Fields of a W form with one source, "d, b" (R64: the A field is zero). -/
structure WB where
  d : BitVec 7
  b : SrcW
  deriving DecidableEq, Repr

/-- Fields of a C form (Table 3-2). -/
structure CF where
  d : BitVec 5
  s : SrcC
  deriving DecidableEq, Repr

/-! ## Modifier fields (03_encoding Tables 3-8 to 3-10) -/

/-- EW: element width of the integer class. -/
inductive EW where
  | w32 | h2 | q4
  deriving DecidableEq, Repr

/-- COND. UN and OD are reserved in the integer class. -/
inductive Cond where
  | eq | ne | lt | ge | le | gt | un | od
  deriving DecidableEq, Repr

/-- RM: a rounding direction, or the RM field of FMODE at execution. -/
inductive RMod where
  | fmode | rne | rtz | rup | rdn
  deriving DecidableEq, Repr

/-- PK: packing of the float class. -/
inductive PK where
  | f32 | bf16x2 | f16x2
  deriving DecidableEq, Repr

/-- Element formats of Table 3-10. -/
inductive Fmt where
  | f32 | f16 | bf16 | e4m3 | e5m2 | e3m2 | e2m3 | e2m1 | i8 | i4 | i32 | ui32
  deriving DecidableEq, Repr

/-- SCOPE (Table 3-9, R193). -/
inductive Scope where
  | core | die | dev | clu | sys
  deriving DecidableEq, Repr

/-- OPC (Table 3-9). -/
inductive Opc where
  | add | min | max | and | or | xor | exch | fadd | fmin | fmax
  deriving DecidableEq, Repr

/-- MODE of SHFL. -/
inductive ShflMode where
  | idx | up | down | bxor
  deriving DecidableEq, Repr

/-- MODE of VOTE. -/
inductive VoteMode where
  | any | all | ballot
  deriving DecidableEq, Repr

/-- SIZE of class 011, in bytes 1, 2, 4, 8, 16. -/
inductive Size where
  | s1 | s2 | s4 | s8 | s16
  deriving DecidableEq, Repr

/-- SZ of class 101. -/
inductive Sz where
  | z4 | z8 | z16
  deriving DecidableEq, Repr

/-- ORD of class 101. -/
inductive Ord2 where
  | relaxed | acq | rel | acqrel
  deriving DecidableEq, Repr

/-- LV: tile level (R110). -/
inductive Level where
  | sp | om | acc
  deriving DecidableEq, Repr

/-- Modifiers of the integer class. -/
structure IntMod where
  cond : Cond := .eq
  ew : EW := .w32
  sat : Bool := false
  u : Bool := false
  ones : Bool := false
  deriving DecidableEq, Repr

/-- Modifiers of float arithmetic. -/
structure FMod where
  rm : RMod := .fmode
  pk : PK := .f32
  cond : Cond := .eq
  ones : Bool := false
  deriving DecidableEq, Repr

/-- Modifiers of CVT and FRND. -/
structure CvtMod where
  rm : RMod := .fmode
  df : Fmt := .f32
  sf : Fmt := .f32
  sat : Bool := false
  deriving DecidableEq, Repr

/-- Modifiers of LRED and LSCAN. -/
structure RedMod where
  opc : Opc
  u : Bool
  excl : Bool := false
  deriving DecidableEq, Repr

/-- Modifiers of class 011. `ord` is ORD = 01: acquire on a load, release on a store. -/
structure MemMod where
  size : Size
  sx : Bool := false
  ord : Bool := false
  scope : Scope := .core
  col : Bool := false
  wf : Bool := false
  clr : Bool := false
  fill : Bool := false
  psn : Bool := false
  sc : Bool := false
  deriving DecidableEq, Repr

/-- Modifiers of ATOM, RED, CAS, FENCE and WAITV. -/
structure SyncMod where
  opc : Opc := .add
  u : Bool := false
  ord : Ord2 := .relaxed
  scope : Scope := .core
  sz : Sz := .z4
  sc : Bool := false
  eng : Bool := false
  deriving DecidableEq, Repr

/-- Modifiers of TALLOC (Table 5-7). -/
structure AllocMod where
  lv : Level
  xshape : Bool := false
  xsparse : Bool := false
  xscale : Bool := false
  xfmt : Bool := false
  span : BitVec 7 := 0
  deriving DecidableEq, Repr

/-- Modifiers of TMOV (Table 8-4). -/
structure MovMod where
  os : Bool := false
  od : Bool := false
  rm : RMod := .fmode
  sat : Bool := false
  deriving DecidableEq, Repr

/-! ## What events carry -/

/-- Who issues: a user thread of a compute core (by `tid`), the supervisor group of a core, or the management core. -/
inductive Agent where
  | user (core : Nat) (tid : Nat)
  | sup (core : Nat)
  | mgmt
  deriving DecidableEq, Repr

/-- One thread's architectural home: a user thread, one lane of a supervisor group, or the management core. -/
inductive Hart where
  | user (core : Nat) (tid : Nat)
  | sup (core : Nat) (lane : Nat)
  | mgmt
  deriving DecidableEq, Repr

/-- The two moves of a store (R198, R194): it leaves its thread's queue into the core order, or the
`idx`-th entry of the core order takes effect at its home slice. -/
inductive DrainMove where
  | leave
  | home (idx : Nat)
  deriving DecidableEq, Repr

/-- The two SPDM transports (R380). -/
inductive Conn where
  | doe | i3c
  deriving DecidableEq, Repr

/-- A memory request of an endpoint (R347): who asks, under which PASID, what; `translated` where its address is one that
ATS gave the function (R258, Table 11-4). -/
structure EpReq where
  rid : BitVec 16
  pasid : Option (BitVec 20)
  exec : Bool
  addr : BitVec 64
  len : Nat
  write : Option (List Byte)
  poison : Bool
  translated : Bool := false
  deriving DecidableEq, Repr

/-- Who writes I/O die control space (R369). -/
inductive IoActor where
  | system | management | faultUnit
  deriving DecidableEq, Repr

/-- The kinds of TLBI (R338). -/
inductive TlbiKind where
  | page | ctx | all
  deriving DecidableEq, Repr

/-- A location in the identifier layout of R343 with the kinds of Table 22-3, and its extension LOCX. -/
structure Loc where
  kind : BitVec 4
  core : BitVec 8
  index : BitVec 20
  ext : Word := 0
  deriving DecidableEq, Repr

/-- A host access to the host face (R363). -/
inductive HostAccess where
  | read (addr : BitVec 64) (len : Nat)
  | write (addr : BitVec 64) (data : List Byte)
  deriving DecidableEq, Repr

/-- What a system core reads or writes: device memory, physically (R254), or, by `readCtl`, a register of I/O die control
space (R369). -/
inductive SysAccess where
  | read (pa : BitVec 64) (len : Nat)
  | write (pa : BitVec 64) (data : List Byte)
  | readCtl (off : BitVec 64) (size : Nat)
  deriving DecidableEq, Repr

/-! ## The instructions and events -/

/-- One constructor per row of spec/opcode_table.json. -/
inductive Instr where
  /-- MOV (R137): Copies source b into the destination register, with its poison. -/
  | mov (f : DF)
  /-- MOV_C (R137): C-form MOV: copies the 6-bit source S into register D. -/
  | movC (f : CF)
  /-- MOV_W (R137): W-form MOV d, b. -/
  | movW (f : WB)
  /-- LI (R137): Loads a 32-bit value into a pair, sign- or zero-extended by U. -/
  | li (f : DF) (m : IntMod)
  /-- ADD (R138): Element-wise integer addition, wrapping or saturating. -/
  | add (f : DF) (m : IntMod)
  /-- ADD_C (R138): C-form ADD of D and S into D. -/
  | addC (f : CF)
  /-- ADD_W (R138): W-form 32-bit ADD. -/
  | addW (f : WF)
  /-- SUB (R138): Element-wise integer subtraction, wrapping or saturating. -/
  | sub (f : DF) (m : IntMod)
  /-- SUB_C (R138): C-form SUB of S from D. -/
  | subC (f : CF)
  /-- SUB_W (R138): W-form 32-bit SUB. -/
  | subW (f : WF)
  /-- ADDC (R139): Add with carry in from c and carry out to the odd register. -/
  | addc (f : DF)
  /-- SUBB (R139): Subtract with borrow in from c and borrow out to the odd register. -/
  | subb (f : DF)
  /-- MUL (R140): Low 32 bits of the product. -/
  | mul (f : DF)
  /-- MUL_C (R140): C-form MUL of D and S into D. -/
  | mulC (f : CF)
  /-- MUL_W (R140): W-form MUL. -/
  | mulW (f : WF)
  /-- MULH (R140): High 32 bits of the signed or unsigned 64-bit product. -/
  | mulh (f : DF) (m : IntMod)
  /-- MULH_W (R140): W-form signed MULH. -/
  | mulhW (f : WF)
  /-- MULH_U_W (R140): W-form unsigned MULH. -/
  | mulhUW (f : WF)
  /-- MAD (R140): Low 32 bits of A times B plus C. -/
  | mad (f : DF)
  /-- MADW (R140): 64-bit A times B plus the pair C. -/
  | madw (f : DF) (m : IntMod)
  /-- ADD64 (R141): 64-bit addition on pairs. -/
  | add64 (f : DF)
  /-- ADD64_W (R141): W-form ADD64. -/
  | add64W (f : WF)
  /-- SUB64 (R141): 64-bit subtraction on pairs. -/
  | sub64 (f : DF)
  /-- LEA (R141): Adds an extended 32-bit offset to a pair. -/
  | lea (f : DF) (m : IntMod)
  /-- LEA_W (R141): W-form LEA. -/
  | leaW (f : WF)
  /-- MIN (R138): Element-wise integer minimum. -/
  | min (f : DF) (m : IntMod)
  /-- MIN_C (R138): C-form signed MIN. -/
  | minC (f : CF)
  /-- MIN_W (R138): W-form signed MIN. -/
  | minW (f : WF)
  /-- MIN_U_W (R138): W-form unsigned MIN. -/
  | minUW (f : WF)
  /-- MAX (R138): Element-wise integer maximum. -/
  | max (f : DF) (m : IntMod)
  /-- MAX_C (R138): C-form signed MAX. -/
  | maxC (f : CF)
  /-- MAX_W (R138): W-form signed MAX. -/
  | maxW (f : WF)
  /-- MAX_U_W (R138): W-form unsigned MAX. -/
  | maxUW (f : WF)
  /-- ABS (R143): Absolute value, optionally saturating. -/
  | abs (f : DF) (m : IntMod)
  /-- ABS_W (R143): W-form ABS d, b. -/
  | absW (f : WB)
  /-- NEG (R143): Negation, optionally saturating. -/
  | neg (f : DF) (m : IntMod)
  /-- NEG_W (R143): W-form NEG d, b. -/
  | negW (f : WB)
  /-- CMP (R142): Integer comparison under COND, giving 1, all-ones or 0. -/
  | cmp (f : DF) (m : IntMod)
  /-- CMP_EQ_W (R142): W-form CMP.eq. -/
  | cmpEqW (f : WF)
  /-- CMP_NE_W (R142): W-form CMP.ne. -/
  | cmpNeW (f : WF)
  /-- CMP_LT_W (R142): W-form signed CMP.lt. -/
  | cmpLtW (f : WF)
  /-- CMP_GE_W (R142): W-form signed CMP.ge. -/
  | cmpGeW (f : WF)
  /-- CMP_LT_U_W (R142): W-form unsigned CMP.lt. -/
  | cmpLtUW (f : WF)
  /-- CMP_GE_U_W (R142): W-form unsigned CMP.ge. -/
  | cmpGeUW (f : WF)
  /-- SEL (R144): Selects A or B by c, with its own poison rule. -/
  | sel (f : DF)
  /-- AND (R145): Bitwise AND. -/
  | and (f : DF)
  /-- AND_C (R145): C-form AND. -/
  | andC (f : CF)
  /-- AND_W (R145): W-form AND. -/
  | andW (f : WF)
  /-- OR (R145): Bitwise OR. -/
  | or (f : DF)
  /-- OR_C (R145): C-form OR. -/
  | orC (f : CF)
  /-- OR_W (R145): W-form OR. -/
  | orW (f : WF)
  /-- XOR (R145): Bitwise XOR. -/
  | xor (f : DF)
  /-- XOR_C (R145): C-form XOR. -/
  | xorC (f : CF)
  /-- XOR_W (R145): W-form XOR. -/
  | xorW (f : WF)
  /-- ANDN (R145): A AND NOT B. -/
  | andn (f : DF)
  /-- ANDN_W (R145): W-form ANDN. -/
  | andnW (f : WF)
  /-- SHL (R146): Element-wise left shift, optionally saturating. -/
  | shl (f : DF) (m : IntMod)
  /-- SHL_C (R146): C-form SHL. -/
  | shlC (f : CF)
  /-- SHL_W (R146): W-form SHL. -/
  | shlW (f : WF)
  /-- SHR (R146): Element-wise logical right shift. -/
  | shr (f : DF) (m : IntMod)
  /-- SHR_C (R146): C-form SHR. -/
  | shrC (f : CF)
  /-- SHR_W (R146): W-form SHR. -/
  | shrW (f : WF)
  /-- SAR (R146): Element-wise arithmetic right shift. -/
  | sar (f : DF) (m : IntMod)
  /-- SAR_C (R146): C-form SAR. -/
  | sarC (f : CF)
  /-- SAR_W (R146): W-form SAR. -/
  | sarW (f : WF)
  /-- ROT (R147): Rotates A left by B mod 32. -/
  | rot (f : DF)
  /-- ROT_W (R147): W-form ROT. -/
  | rotW (f : WF)
  /-- FSH (R147): Right funnel shift of the pair B:A by C mod 64. -/
  | fsh (f : DF)
  /-- BFX (R148): Extracts a bit field under a control word. -/
  | bfx (f : DF) (m : IntMod)
  /-- BFI (R148): Inserts a bit field under a control word. -/
  | bfi (f : DF)
  /-- POPC (R149): Counts set bits. -/
  | popc (f : DF)
  /-- POPC_W (R149): W-form POPC d, b. -/
  | popcW (f : WB)
  /-- CLZ (R149): Counts leading zeros. -/
  | clz (f : DF)
  /-- CLZ_W (R149): W-form CLZ d, b. -/
  | clzW (f : WB)
  /-- CTZ (R149): Counts trailing zeros. -/
  | ctz (f : DF)
  /-- CTZ_W (R149): W-form CTZ d, b. -/
  | ctzW (f : WB)
  /-- BREV (R149): Reverses the bits of B. -/
  | brev (f : DF)
  /-- BREV_W (R149): W-form BREV d, b. -/
  | brevW (f : WB)
  /-- PERM (R150): Selects bytes from an eight-byte pool under a selector. -/
  | perm (f : DF)
  /-- DOT4 (R151): Packed byte dot product added to C. -/
  | dot4 (f : DF) (m : IntMod)
  /-- FADD (R155): Floating-point addition, rounded once. -/
  | fadd (f : DF) (m : FMod)
  /-- FADD_C (R155): C-form FP32 FADD with the float immediate table. -/
  | faddC (f : CF)
  /-- FADD_W (R155): W-form FP32 FADD. -/
  | faddW (f : WF)
  /-- FADD_BF16X2_W (R154): W-form packed BF16 FADD. -/
  | faddBf16x2W (f : WF)
  /-- FADD_F16X2_W (R154): W-form packed FP16 FADD. -/
  | faddF16x2W (f : WF)
  /-- FSUB (R155): Floating-point subtraction. -/
  | fsub (f : DF) (m : FMod)
  /-- FSUB_C (R155): C-form FP32 FSUB. -/
  | fsubC (f : CF)
  /-- FSUB_W (R155): W-form FP32 FSUB. -/
  | fsubW (f : WF)
  /-- FMUL (R155): Floating-point multiplication. -/
  | fmul (f : DF) (m : FMod)
  /-- FMUL_C (R155): C-form FP32 FMUL. -/
  | fmulC (f : CF)
  /-- FMUL_W (R155): W-form FP32 FMUL. -/
  | fmulW (f : WF)
  /-- FMUL_BF16X2_W (R154): W-form packed BF16 FMUL. -/
  | fmulBf16x2W (f : WF)
  /-- FMUL_F16X2_W (R154): W-form packed FP16 FMUL. -/
  | fmulF16x2W (f : WF)
  /-- FFMA (R155): Fused multiply-add rounded once. -/
  | ffma (f : DF) (m : FMod)
  /-- FMIN (R156): Number-preferring minimum. -/
  | fmin (f : DF) (m : FMod)
  /-- FMIN_W (R156): W-form FMIN. -/
  | fminW (f : WF)
  /-- FMAX (R156): Number-preferring maximum. -/
  | fmax (f : DF) (m : FMod)
  /-- FMAX_C (R156): C-form FMAX. -/
  | fmaxC (f : CF)
  /-- FMAX_W (R156): W-form FMAX. -/
  | fmaxW (f : WF)
  /-- FMINP (R156): NaN-propagating minimum. -/
  | fminp (f : DF) (m : FMod)
  /-- FMAXP (R156): NaN-propagating maximum. -/
  | fmaxp (f : DF) (m : FMod)
  /-- FCMP (R157): Floating-point comparison under COND. -/
  | fcmp (f : DF) (m : FMod)
  /-- FCMP_LT_W (R157): W-form FCMP.lt. -/
  | fcmpLtW (f : WF)
  /-- FCMP_LE_W (R157): W-form FCMP.le. -/
  | fcmpLeW (f : WF)
  /-- FCMP_EQ_W (R157): W-form FCMP.eq. -/
  | fcmpEqW (f : WF)
  /-- FCLASS (R158): Classifies each element into one of ten classes. -/
  | fclass (f : DF) (m : FMod)
  /-- FRND (R159): Rounds each element to an integral value in its format. -/
  | frnd (f : DF) (m : CvtMod)
  /-- CVT (R160): Converts elements from format SF to format DF. -/
  | cvt (f : DF) (m : CvtMod)
  /-- CVT_F32_I32_W (R160): W-form conversion of INT32 to FP32. -/
  | cvtF32I32W (f : WB)
  /-- CVT_I32_F32_W (R160): W-form conversion of FP32 to INT32. -/
  | cvtI32F32W (f : WB)
  /-- FRCP (R162): Correctly rounded reciprocal. -/
  | frcp (f : DF)
  /-- FRCP_W (R162): W-form FRCP. -/
  | frcpW (f : WB)
  /-- FRSQ (R162): Correctly rounded reciprocal square root. -/
  | frsq (f : DF)
  /-- FRSQ_W (R162): W-form FRSQ. -/
  | frsqW (f : WB)
  /-- FSQRT (R162): Correctly rounded square root. -/
  | fsqrt (f : DF)
  /-- FSQRT_W (R162): W-form FSQRT. -/
  | fsqrtW (f : WB)
  /-- FEXP2 (R162): Correctly rounded 2^x. -/
  | fexp2 (f : DF)
  /-- FEXP2_W (R162): W-form FEXP2. -/
  | fexp2W (f : WB)
  /-- FLOG2 (R162): Correctly rounded log2 x. -/
  | flog2 (f : DF)
  /-- FLOG2_W (R162): W-form FLOG2. -/
  | flog2W (f : WB)
  /-- FSINT (R162): Correctly rounded sin 2πx. -/
  | fsint (f : DF)
  /-- FCOST (R162): Correctly rounded cos 2πx. -/
  | fcost (f : DF)
  /-- SHFL (R169): Arrives in a cross-lane group and takes another member's value. -/
  | shfl (f : DF) (m : ShflMode)
  /-- BCST (R169): Arrives in a cross-lane group and takes one lane's pair. -/
  | bcst (f : DF)
  /-- VOTE (R169): Cross-lane any, all or ballot of predicates. -/
  | vote (f : DF) (m : VoteMode)
  /-- LRED (R170): Cross-lane reduction in ascending lane order. -/
  | lred (f : DF) (m : RedMod)
  /-- LSCAN (R170): Cross-lane inclusive or exclusive scan. -/
  | lscan (f : DF) (m : RedMod)
  /-- MATCH (R169): Cross-lane mask of members with an equal value. -/
  | match (f : DF)
  /-- ELECT (R169): Cross-lane election of the lowest member with a true predicate. -/
  | elect (f : DF)
  /-- LD (R228): Loads 1 to 16 bytes from global memory, or a sum cell with .sc. -/
  | ld (f : DF) (m : MemMod)
  /-- LD_4_W (R228): W-form 4-byte load. -/
  | ld4W (f : WF)
  /-- LD_8_W (R228): W-form 8-byte load into a pair. -/
  | ld8W (f : WF)
  /-- LD_1_W (R228): W-form zero-extending byte load. -/
  | ld1W (f : WF)
  /-- LD_1_SX_W (R228): W-form sign-extending byte load. -/
  | ld1SxW (f : WF)
  /-- LD_2_W (R228): W-form zero-extending halfword load. -/
  | ld2W (f : WF)
  /-- LD_2_SX_W (R228): W-form sign-extending halfword load. -/
  | ld2SxW (f : WF)
  /-- ST (R229): Checks a store and enters it into the thread's store queue. -/
  | st (f : DF) (m : MemMod)
  /-- LDT (R231): Loads a row or column piece of a scratchpad tile, optionally waiting on full bits. -/
  | ldt (f : DF) (m : MemMod)
  /-- STT (R232): Stores into a scratchpad tile, optionally marking granules Full. -/
  | stt (f : DF) (m : MemMod)
  /-- PREF (R234): Brings granules toward the core without a memory-model access. -/
  | pref (f : DF) (size : Size)
  /-- CINV (R234): Writes back and drops carve-out L1 copies. -/
  | cinv (f : DF) (size : Size)
  /-- CWB (R234): Writes back dirty carve-out L1 data. -/
  | cwb (f : DF) (size : Size)
  /-- CPY (R238): Issues a byte copy or tile copy to the copy engine and returns a token. -/
  | cpy (f : DF) (col : Bool)
  /-- GTH (R242): Issues a gather of indexed records to the gather engine. -/
  | gth (f : DF)
  /-- EWAIT (R243): Parks until copy or gather operations end and returns the failure word. -/
  | ewait (f : DF)
  /-- CPY_SEAL (R411): Seals memory, scratchpad, workgroup record or engine memory into an AES-GCM image. -/
  | cpySeal (f : DF)
  /-- CPY_OPEN (R412): Checks and decrypts a sealed image into its destination. -/
  | cpyOpen (f : DF)
  /-- DBELL (R351): Looks up a mapped doorbell and hands its value to the proxy. -/
  | dbell (f : DF) (eight : Bool)
  /-- TALLOC (R126): Allocates a tile handle at a level from a memory header. -/
  | talloc (f : DF) (m : AllocMod)
  /-- TFREE (R127): Releases a handle and its storage after engine work on it ends. -/
  | tfree (f : DF)
  /-- THDR (R128): Returns one word of a handle's stored header. -/
  | thdr (f : DF) (k : BitVec 4)
  /-- THDR_CTL (R128): Returns a handle's tile-table control word. -/
  | thdrCtl (f : DF)
  /-- THSET (R129): Changes one word of a handle's header under a mask. -/
  | thset (f : DF) (k : BitVec 4)
  /-- THSET_CTL (R129): Changes a handle's wildcard bits. -/
  | thsetCtl (f : DF)
  /-- TMOV (R190): Queues a matrix task that moves, converts or quantises a tile. -/
  | tmov (f : DF) (m : MovMod)
  /-- MMA (R189): Queues a matrix product task into an accumulator. -/
  | mma (f : DF) (z : Bool)
  /-- MWAIT (R192): Parks until the task of a token ends, then merges engine flags. -/
  | mwait (f : DF)
  /-- MWAIT_ALL (R192): Parks until all the thread's tasks end, then merges engine flags. -/
  | mwaitAll (f : DF)
  /-- QUANT (R191): Queues a quantisation task with the captured percentile. -/
  | quant (f : DF)
  /-- ATOM (R245): Atomic read-modify-write at the home slice. -/
  | atom (f : DF) (m : SyncMod)
  /-- RED (R247): Relaxed mergeable reduction, or a sum-cell addition with .sc. -/
  | red (f : DF) (m : SyncMod)
  /-- CAS (R246): Compare and swap at the home slice. -/
  | cas (f : DF) (m : SyncMod)
  /-- FENCE (R248): Orders accesses by kind and scope, optionally after engine operations. -/
  | fence (f : DF) (m : SyncMod)
  /-- WAITV (R249): Parks while a word holds a given value. -/
  | waitv (f : DF) (m : SyncMod)
  /-- BARA (R301): Arrives at a barrier with a count after earlier accesses are performed. -/
  | bara (f : DF) (lvl : BitVec 4)
  /-- BARW (R302): Parks until the target phase of a barrier has completed. -/
  | barw (f : DF) (lvl : BitVec 4)
  /-- BARS (R303): Arrives at and then waits on a barrier. -/
  | bars (f : DF) (lvl : BitVec 4)
  /-- BR (R295): Conditional relative branch on zero or non-zero. -/
  | br (f : DF) (nz : Bool)
  /-- JMP (R295): Relative jump. -/
  | jmp (f : DF)
  /-- JMPR (R295): Jump to a pair plus offset. -/
  | jmpr (f : DF)
  /-- CALL (R295): Relative call that writes and pushes the link. -/
  | call (f : DF)
  /-- CALL_IND (R295): Indirect call through a pair plus offset. -/
  | callInd (f : DF)
  /-- RET (R295): Transfers control to the address in a pair. -/
  | ret (f : DF)
  /-- TDISP (R309): Claims the next chunk of the launch's tile dispenser and parks. -/
  | tdisp (f : DF)
  /-- SVC (R311): Traps with SVC_CALL to the supervisor agent. -/
  | svc (f : DF)
  /-- SVC_MB (R312): Posts a mailbox request and parks until the reply. -/
  | svcMb (f : DF)
  /-- YIELD (R298): Parks the thread for one clk with its age reset. -/
  | yield (f : DF)
  /-- SAFE (R313): Safe point: redirects to the save routine when the workgroup is armed. -/
  | safe (f : DF)
  /-- NOP (R296): No operation. -/
  | nop (f : DF)
  /-- NOP_W (R296): W-form NOP word 0x0000_01FD. -/
  | nopW
  /-- EXIT (R315): Ends the thread, ends a save routine, or parks the supervisor group. -/
  | exit (f : DF)
  /-- TRAP (R311): Traps with TRAP_INSN. -/
  | trap (f : DF)
  /-- RDSR (R336): Reads a special register into d. -/
  | rdsr (f : DF) (sr : BitVec 12)
  /-- WRSR (R336): Writes a special register that has no behaviour of its own through its access codes. -/
  | wrsr (f : DF) (sr : BitVec 12)
  /-- TRQ_READ (R42): An RDSR of TRQ returns and removes the oldest trapped thread. -/
  | trqRead (f : DF)
  /-- MBOX_READ (R312): An RDSR of MBOX returns and removes the oldest mailbox request. -/
  | mboxRead (f : DF)
  /-- MBRPL_WRITE (R312): A WRSR of MBRPL wakes the named thread with VALUE after the agent's stores drain. -/
  | mbrplWrite (f : DF)
  /-- ERET (R337): Returns the management core to EPC and clears ACTIVE. -/
  | eret (f : DF)
  /-- TLBI_PAGE (R338): Removes a context's translations of one address and waits for the drain. -/
  | tlbiPage (f : DF)
  /-- TLBI_CTX (R338): Removes every translation of a context and waits for the drain. -/
  | tlbiCtx (f : DF)
  /-- TLBI_ALL (R338): Removes every translation and waits for the drain. -/
  | tlbiAll (f : DF)
  /-- RDTH (R339): Reads an item of a user thread's state. -/
  | rdth (f : DF)
  /-- WRTH (R339): Writes an item of a user thread's state when its state allows. -/
  | wrth (f : DF)
  /-- WAKE (R340): Resumes a Trapped thread at EPC or a Stopped thread. -/
  | wake (f : DF)
  /-- PARK (R340): Stops a user thread at an instruction boundary. -/
  | park (f : DF)
  /-- IRQB_BIND (R354): Binds an interrupt binding entry to barrier 24–31 of the resident workgroup. -/
  | irqbBind (f : DF)
  /-- IRQB_UNBIND (R354): Unbinds an interrupt binding entry. -/
  | irqbUnbind (f : DF)
  /-- BIND (R342): Writes one bind record of the slot table and returns a status. -/
  | bind (f : DF)
  /-- SELFT (R343): Runs a targeted self-test of one structure and returns a status. -/
  | selft (f : DF)
  /-- HASHB (R377): Absorbs bytes into a hash context. -/
  | hashb (f : DF) (k : BitVec 2)
  /-- HASHF (R377): Finishes a SHA-384 and writes the digest. -/
  | hashf (f : DF) (k : BitVec 2)
  /-- ECVER (R378): Verifies an ECDSA P-384 signature. -/
  | ecver (f : DF)
  /-- ECSIG (R378): Signs a digest with the device identity key. -/
  | ecsig (f : DF)
  /-- MEXT (R379): Extends a measurement slot with 48 octets. -/
  | mext (f : DF) (k : BitVec 3)
  /-- MREAD (R379): Copies a measurement slot to memory. -/
  | mread (f : DF) (k : BitVec 3)
  /-- UNASSIGNED_OPCODE (R62): An issued instruction whose opcode, OPW value or class 111 encoding is unassigned raises UND. -/
  | unassignedOpcode (first : Word)
  /-- STORE_DRAIN (R198): A queued store leaves the store queue into the core order and travels to its home slice. -/
  | storeDrain (h : Hart) (m : DrainMove)
  /-- YIELD_WAKE (R298): A yielding thread becomes Ready in the next clk. -/
  | yieldWake (h : Hart)
  /-- WAITV_REREAD (R249): A write to the watched granule makes a parked WAITV reread and end when the value differs. -/
  | waitvReread (h : Hart)
  /-- TASK_START (R175): A free matrix engine takes the oldest Ready task record. -/
  | taskStart (core : Nat)
  /-- TASK_COMPLETE (R178): A matrix task completes, writes its result, ORs flags into the engine flag word and frees its record. -/
  | taskComplete (core : Nat) (token : BitVec 16)
  /-- ENGINE_GRANULE_WRITE (R119): An engine write of a scratchpad granule completes, making it Full and waking .wf waiters. -/
  | engineGranuleWrite (core : Nat) (matrix : Bool) (token : BitVec 16) (g : Nat)
  /-- COPY_COMPLETE (R210): A copy, gather, seal or open operation completes and releases its ranges. -/
  | copyComplete (core : Nat) (token : BitVec 16)
  /-- COPY_FAIL (R236): A fault fails an engine operation and records it in the failure word. -/
  | copyFail (core : Nat) (token : BitVec 16)
  /-- DISPENSER_ANSWER (R282): The dispenser answers a claim with the next chunk and wakes the claiming thread. -/
  | dispenserAnswer (h : Hart)
  /-- NO_PRODUCER_TRAP (R307): A .wf waiter with no remaining producer traps with WAIT_NO_PRODUCER. -/
  | noProducerTrap (core : Nat)
  /-- PACKET_FETCH (R267): The scheduler fetches pending packets of a bound queue into its four-packet window. -/
  | packetFetch (slot : Nat)
  /-- SLOT_FETCH_RESUME (R267): A fetch-faulted slot resumes fetching once its page is Resident. -/
  | slotFetchResume (slot : Nat)
  /-- SLOT_GRANT (R276): The scheduler grants a pending slot's demand, fills the slot area and posts slot events. -/
  | slotGrant (slot : Nat)
  /-- VERDICT_APPLY (R278): The scheduler applies a written VCODE and VGUILT verdict to the queue. -/
  | verdictApply (slot : Nat)
  /-- REFUSAL_WORD_WRITE (R278): The scheduler writes the refusal word at CADDR, after any migration of its page. -/
  | refusalWordWrite (slot : Nat)
  /-- QUEUE_ERROR_EVENT_POST (R278): A held queue-error event is posted to the origin agent once the pending verdict is written. -/
  | queueErrorEventPost (slot : Nat)
  /-- LAUNCH_END (R281): When EXITS reaches n the scheduler sets HSTATE 00, advances RIDX and releases the cores. -/
  | launchEnd (slot : Nat)
  /-- WORKGROUP_END (R281): A workgroup ends once its threads have exited, its queues are empty and its engine work has ended. -/
  | workgroupEnd (core : Nat)
  /-- WORKGROUP_START (R280): A claiming agent fixes the carve-out, clears the tile table and starts nth threads at ENTRY in the state of Table 2-3. -/
  | workgroupStart (core : Nat)
  /-- PREEMPT_DELIVERY (R287): A pre-emption request reaches the agent of every held core. -/
  | preemptDelivery (slot : Nat) (core : Nat)
  /-- WORKGROUP_ARM (R287): A workgroup arms at the first clk with no partly arrived barrier 0–23. -/
  | workgroupArm (core : Nat)
  /-- LAUNCH_SAVED (R288): Once every workgroup is saved the scheduler sets HSTATE 10, keeps the dispenser and releases the cores. -/
  | launchSaved (slot : Nat)
  /-- MIGRATION_FRAME_TAKE (R256): A migration takes a frame from its free-frame ring when one is available and copies the page. -/
  | migrationFrameTake (idx : Nat)
  /-- MIGRATION_COMPLETE (R256): The copy ends, the entry is CAS-updated and waiters wake and replay their formed accesses. -/
  | migrationComplete (idx : Nat)
  /-- MIGRATION_FAIL (R256): A lost source link, closed window or changed entry fails the migration and its waiters. -/
  | migrationFail (idx : Nat)
  /-- DOORBELL_SEND (R350): After the hold, the proxy sends a doorbell to a device, a user queue or a message ring. -/
  | doorbellSend (idx : Nat)
  /-- MESSAGE_TAKE (R359): The message engine takes a ring entry, stamps it and routes or completes it. -/
  | messageTake (ring : Nat)
  /-- MESSAGE_DELIVERY (R334): A Zhevy message is written to the destination inbox, signalled or held per the record. -/
  | messageDelivery (idx : Nat)
  /-- HBM_BURST (R259): An L2 miss becomes one burst on its sub-channel, merged with the write queue. -/
  | hbmBurst (pa : BitVec 64) (beats : Nat) (write : Bool)
  /-- HISTORY_RETIRE (R392): A command leaves the history buffer after 16 command slots without ALERT. -/
  | historyRetire (sub : Nat)
  /-- TRANSPORT_REPLY_SEND (R382): A transport sends TLEN bytes of TBUF once TSEQ equals RSEQ. -/
  | transportReplySend (conn : Conn)
  /-- STACK_RETRAINING_END (R415): The retraining of a stack ends and the save writes stalled behind it proceed. -/
  | stackRetrainingEnd (stack : Nat)
  /-- SLICE_EXPIRY (R274): A slot's slice count expires and a competing demand requests pre-emption. -/
  | sliceExpiry (slot : Nat)
  /-- CONTEXT_RUN_WRITE (R334): A write of CTXM.RUN changes a context's run state and delivers held arrivals when it becomes running. -/
  | contextRunWrite (ctx : BitVec 16) (run : BitVec 2)
  /-- MSCTL_SEND (R361): Writing MSCTL.SEND sends the MSEND message to another management core. -/
  | msctlSend
  /-- ISSUE_SELECT (R285): Each clk the selector chooses up to two issue groups from the PC table. -/
  | issueSelect (core : Nat)
  /-- INSTRUCTION_FETCH (R52): Fetches and translates every parcel of an instruction before decode, stalling on non-resident pages. -/
  | instructionFetch (ag : Agent)
  /-- DEFER_EXPIRY (R287): The deferral limit expires and the forced full save begins. -/
  | deferExpiry (core : Nat)
  /-- DEADLINE_EXPIRY (R287): The safe-point deadline expires with save routines unfinished and the forced save begins. -/
  | deadlineExpiry (core : Nat)
  /-- CONTEXT_KILL (R402): A CTXK write kills a context: bars it, stops its threads, unbinds its interrupts and stops its queues. -/
  | contextKill (ctx : BitVec 16) (code : BitVec 8)
  /-- CORE_RESTART (R400): CORC restart zeroes a stopped core and starts its supervisor group. -/
  | coreRestart (core : Nat)
  /-- CORE_RETIRE (R399): CORC retire retires the named core. -/
  | coreRetire (core : Nat)
  /-- ATS_INVALIDATION_TIMEOUT (R338): An ATS invalidation not completed in time counts as completed and disables ATS for the function. -/
  | atsInvalidationTimeout (rid : BitVec 16)
  /-- STACK_RETRAINING_START (R415): A data-rate change with retraining of an HBM stack starts once no save holds it, or when its hold time runs out. -/
  | stackRetrainingStart (stack : Nat)
  /-- TURN_READY_RECEIVE (R361): The message engine writes a received TURN-READY into the management receive ring. -/
  | turnReadyReceive (msg : BitVec 512)
  /-- DEMOTION_REQUEST (R256): A system-core demotion request moves a resident page to the capacity tier. -/
  | demotionRequest (ctx : BitVec 16) (va : BitVec 64)
  /-- PRI_REQUEST (R258): An endpoint page request starts or joins a migration. -/
  | priRequest (rid : BitVec 16) (pasid : Option (BitVec 20)) (va : BitVec 64)
  /-- ATS_REQUEST (R258): The IOMMU answers an endpoint translation request. -/
  | atsRequest (rid : BitVec 16) (pasid : Option (BitVec 20)) (va : BitVec 64)
  /-- FRAME_APPEND (R256): A write of FADD or CADD appends a frame to the fast or capacity ring. -/
  | frameAppend (by_ : IoActor) (fast : Bool) (frame : BitVec 64)
  /-- MESSAGE_RETRY (R334): A message held on a full inbox is retried when IRIDX is written. -/
  | messageRetry (ctx : BitVec 16)
  /-- HBM_ALERT (R392): An ALERT from the base die rewinds, resynchronises and replays the command history. -/
  | hbmAlert (sub : Nat) (tag : BitVec 6)
  /-- QUEUE_DOORBELL (R266): The scheduler takes a doorbell value for a user queue and updates WIDX. -/
  | queueDoorbell (qid : BitVec 16) (value : Word)
  /-- CXL_DATA_RESPONSE (R262): A CXL.mem data response returns data, setting poison marks where marked. -/
  | cxlDataResponse (pa : BitVec 64) (marks : BitVec 4)
  /-- UNCORRECTABLE_ERROR (R387): An uncorrectable error poisons data or stops the unit that holds the state. -/
  | uncorrectableError (loc : Loc) (code : BitVec 8) (addr : BitVec 64)
  /-- CORRECTED_ERROR (R395): A corrected error is logged as kind 0x02 and starts a self-test. -/
  | correctedError (loc : Loc)
  /-- IO_TABLE_SCRUB (R387): I/O die tables and the key store are scrubbed every 2^20 I/O fabric cycles. -/
  | ioTableScrub
  /-- SELF_TEST_DONE (R397): A targeted self-test ends and classifies the event, taking the action of its class. -/
  | selfTestDone (seq : Nat) (pass : Bool)
  /-- ERROR_LOG_CONSUME (R394): A write of ELC advances the count of consumed records. -/
  | errorLogConsume (v : Word)
  /-- KEY_SLOT_LOAD (R331): KSC.GO loads a key slot from the staging buffer after in-flight accesses under it complete. -/
  | keySlotLoad (slot : BitVec 12) (kind : BitVec 2) (owner : BitVec 16)
  /-- KEY_DATA_WRITE (R331): A write of KSD shifts eight bytes into the staging buffer. -/
  | keyDataWrite (v : BitVec 64)
  /-- GUILT_LIMIT_WRITE (R332): A write of GLIM sets the guilt limit and may bar contexts. -/
  | guiltLimitWrite (v : Word)
  /-- GUILT_CLEAR (R332): CTXM.CLR clears GUILT and BARRED of a context. -/
  | guiltClear (ctx : BitVec 16)
  /-- STAGE_ADVANCE (R421): STG.ADV advances to the next stage when its condition holds. -/
  | stageAdvance
  /-- POWER_LIMIT_WRITE (R423): A write of PLIM sets the module power limit, clamped to 600–2,800 W. -/
  | powerLimitWrite (v : Word)
  /-- POWER_SAMPLE (R425): Every 10 µs the power controller lowers or raises each die's issue duty. -/
  | powerSample (watts : Nat)
  /-- THERMAL_CAP (R427): TEMP reaching 95 °C caps each duty at 8 until it falls below 90 °C. -/
  | thermalCap (temp : BitVec 8)
  /-- THERMAL_TRIP (R427): TEMP reaching 110 °C sets TRIP and returns the device to Winter. -/
  | thermalTrip (temp : BitVec 8)
  /-- DEVICE_RESET (R371): Device reset derives slot 0 and DIK, computes MEAS0, draws BOOTID and enters Winter. -/
  | deviceReset
  /-- CONTEXT_RECORD_WRITE (R327): A system-core write of a context record, dropped in part or whole where refused. -/
  | contextRecordWrite (ctx : BitVec 16) (rec : BitVec 256)
  /-- DOORBELL_MAP_WRITE (R349): A doorbell map write takes effect, or waits until HELD reaches 0. -/
  | doorbellMapWrite (idx : Nat) (entry : BitVec 256)
  /-- IRQ_BINDING_WRITE (R352): A system-core write of an interrupt binding entry, unbinding it where it changes identity. -/
  | irqBindingWrite (idx : Nat) (entry : BitVec 64)
  /-- INVALIDATION_REQUEST (R338): A system-core invalidation request is performed as a TLBI and reads DONE on acknowledgement. -/
  | invalidationRequest (kind : TlbiKind) (addr : BitVec 64) (ctx : BitVec 16)
  /-- CONTROL_SPACE_WRITE (R369): A write to an I/O die control-space register with no behaviour of its own, dropped and logged when not permitted. -/
  | controlSpaceWrite (by_ : IoActor) (off : BitVec 64) (size : Nat) (v : BitVec 64)
  /-- ENDPOINT_REQUEST (R347): An endpoint memory request is checked, translated and performed or refused. -/
  | endpointRequest (r : EpReq)
  /-- PEER_INBOUND_REQUEST (R356): A request from a peer through an inbound window is handled as an endpoint request. -/
  | peerInboundRequest (port : Nat) (r : EpReq)
  /-- MSIX_ARRIVAL (R353): A write to the interrupt aperture advances a bound barrier, raises PEND or is discarded. -/
  | msixArrival (r : EpReq)
  /-- LINK_TRAIN (R344): A link trains at the highest common rate. -/
  | linkTrain (port : Nat) (rate : Nat) (cxl : Bool) (mod : BitVec 8)
  /-- LINK_DOWN (R357): A link loss or window close logs LINK_DOWN and poisons or drops later traffic. -/
  | linkDown (port : Nat) (window : Option Nat)
  /-- VIRTIO_NOTIFY (R362): The host notifies a virtqueue of the host face. -/
  | virtioNotify (fn : Nat) (queue : Nat)
  /-- HOST_REQUEST (R363): A host request to the host face is served or completed as Unsupported Request. -/
  | hostRequest (r : HostAccess)
  /-- SPDM_REQUEST_POST (R382): A DOE or I3C transport writes a request into its transport area and raises ASEQ. -/
  | spdmRequestPost (conn : Conn) (req : List Byte)
  /-- GET_VERSION (R380): SPDM request answered with VERSION 1.2 and a transcript restart. -/
  | getVersion (conn : Conn)
  /-- GET_CAPABILITIES (R380): SPDM request answered with CAPABILITIES. -/
  | getCapabilities (conn : Conn)
  /-- NEGOTIATE_ALGORITHMS (R380): SPDM request answered with ALGORITHMS. -/
  | negotiateAlgorithms (conn : Conn)
  /-- GET_DIGESTS (R380): SPDM request answered with the digest of chain slot 0. -/
  | getDigests (conn : Conn)
  /-- GET_CERTIFICATE (R380): SPDM request answered with up to 1,024 bytes of the chain. -/
  | getCertificate (conn : Conn)
  /-- CHALLENGE (R380): SPDM request answered with a signed CHALLENGE_AUTH. -/
  | challenge (conn : Conn)
  /-- GET_MEASUREMENTS (R380): SPDM request answered with measurement blocks, signed when requested. -/
  | getMeasurements (conn : Conn)
  /-- SPDM_ERROR_REPLY (R381): A request not accepted gets a four-byte error reply without state change. -/
  | spdmErrorReply (conn : Conn)
  /-- SYSTEM_CORE_MEMORY_ACCESS (R254): A system core reads or writes device memory physically under key slot 0, for example page tables and queue descriptors. -/
  | systemCoreMemoryAccess (r : SysAccess)
  /-- ATS_INVALIDATION_COMPLETION (R217): An endpoint returns the completion of an ATS invalidation that a TLBI drain is waiting for. -/
  | atsInvalidationCompletion (idx : Nat)
  /-- PEER_READ_COMPLETION (R263): The peer module answers a request made through an outbound window to a TIER 10 page. -/
  | peerReadCompletion (idx : Nat) (data : List Byte)
  /-- THERMAL_CAP_LIFT (R427): TEMP falls below 90 °C, lifting the duty cap of 8 and allowing the device to leave Winter after a trip. -/
  | thermalCapLift (temp : BitVec 8)
  deriving DecidableEq, Repr

end Sys2Proof
end

