-- ==== Sys2Proof/WellFormed.lean ====
section
/-! DEFINITION. Well-formed instructions: which fields and modifiers each D form accepts (03_encoding R56–R65,
Tables 5-7, 6-1, 7-1, 7-7, 8-4, 10-1, 13-1, 17-4, 18-4, 18-7, 20-4, 23-5). Everything refused here is UND (R65).
Events have no encoding and are well formed. -/

namespace Sys2Proof

/-- Why an encoding is refused; every reason raises UND (R65). -/
inductive Reject where
  | unassignedOpcode      -- R62, R64
  | reservedSource        -- R58
  | literalForm           -- R57: 511 in a D form, or an L form without it
  | sourceKind            -- R58, R294: a code the field does not accept
  | unusedField           -- R65: a non-zero field that the instruction does not use
  | noWriteBack           -- R65: N with a non-zero D, or N without a result
  | reservedModifier      -- R60, R65
  | truncated             -- fewer bytes than the length of parcel 0 asks for
  deriving DecidableEq, Repr

/-- What a source field may hold. -/
inductive Use where
  | unused        -- the code must be 0
  | any           -- any source code
  | regOnly       -- register-only (R58)
  | regOrLatch    -- "pair" of Table 13-1
  | immOnly       -- "imm" of Table 13-1: an immediate or the literal
  deriving DecidableEq, Repr

/-- What the D field holds. -/
inductive DUse where
  | none       -- must be zero, no result
  | result     -- the destination; N = 1 allowed
  | resultNoN  -- read and written (CAS): N must be 0
  | source     -- a further register source (R56)
  deriving DecidableEq, Repr

structure Shape where
  d : DUse
  a : Use
  b : Use
  c : Use
  deriving DecidableEq, Repr

/-- Does a source fit a use? -/
def Use.accepts : Use → Src → Bool
  | .unused, s => s == .reg 0
  | .any, _ => true
  | .regOnly, .reg _ => true
  | .regOnly, _ => false
  | .regOrLatch, .reg _ => true
  | .regOrLatch, .latch _ => true
  | .regOrLatch, _ => false
  | .immOnly, .imm _ => true
  | .immOnly, .lit => true
  | .immOnly, _ => false

def DF.hasLit (f : DF) : Bool := f.a == .lit || f.b == .lit || f.c == .lit

/-- The field rules of R57, R58 and R65 for one shape. -/
def Shape.check (s : Shape) (f : DF) : Option Reject :=
  if f.hasLit != f.lit.isSome then some .literalForm
  else if !(s.a.accepts f.a) then some (if s.a = .unused then .unusedField else .sourceKind)
  else if !(s.b.accepts f.b) then some (if s.b = .unused then .unusedField else .sourceKind)
  else if !(s.c.accepts f.c) then some (if s.c = .unused then .unusedField else .sourceKind)
  else match s.d with
    | .none => if f.n then some .noWriteBack else if f.d ≠ 0 then some .unusedField else none
    | .result => if f.n && f.d ≠ 0 then some .noWriteBack else none
    | .resultNoN => if f.n then some .noWriteBack else none
    | .source => if f.n then some .noWriteBack else none

/-- "d, a, b, c" with some of them unused. -/
def shABC : Shape := ⟨.result, .any, .any, .any⟩
def shAB : Shape := ⟨.result, .any, .any, .unused⟩
def shB : Shape := ⟨.result, .unused, .any, .unused⟩
def shAC : Shape := ⟨.result, .any, .unused, .any⟩
def shD : Shape := ⟨.result, .unused, .unused, .unused⟩
def sh0 : Shape := ⟨.none, .unused, .unused, .unused⟩
def shN (a b c : Use) : Shape := ⟨.none, a, b, c⟩

/-- The shape of each D form, and whether its modifiers are accepted; `none` for other constructors. -/
def Instr.form : Instr → Option (Shape × DF × Bool)
  -- integer class, Table 6-1 and R132
  | .mov f => some (shB, f, true)
  | .li f m => some (shB, f, m == { u := m.u })
  | .add f m | .sub f m => some (shAB, f, m == { ew := m.ew, sat := m.sat, u := m.u } && (!m.u || m.sat))
  | .addc f | .subb f => some (shABC, f, true)
  | .mul f => some (shAB, f, true)
  | .mulh f m => some (shAB, f, m == { u := m.u })
  | .mad f => some (shABC, f, true)
  | .madw f m => some (shABC, f, m == { u := m.u })
  | .add64 f | .sub64 f => some (shAB, f, true)
  | .lea f m => some (shAB, f, m == { u := m.u })
  | .min f m | .max f m => some (shAB, f, m == { ew := m.ew, u := m.u })
  | .abs f m | .neg f m => some (shB, f, m == { sat := m.sat })
  | .cmp f m => some (shAB, f, m == { cond := m.cond, u := m.u, ones := m.ones } && m.cond ≠ .un && m.cond ≠ .od)
  | .sel f => some (shABC, f, true)
  | .and f | .or f | .xor f | .andn f => some (shAB, f, true)
  | .shl f m => some (shAB, f, m == { ew := m.ew, sat := m.sat, u := m.u } && (!m.u || m.sat))
  | .shr f m | .sar f m => some (shAB, f, m == { ew := m.ew })
  | .rot f => some (shAB, f, true)
  | .fsh f => some (shABC, f, true)
  | .bfx f m => some (shAB, f, m == { u := m.u })
  | .bfi f => some (shABC, f, true)
  | .popc f | .clz f | .ctz f | .brev f => some (shB, f, true)
  | .perm f => some (shABC, f, true)
  | .dot4 f m => some (shABC, f, m == { sat := m.sat, u := m.u })
  -- float class, Table 7-1
  | .fadd f m | .fsub f m | .fmul f m => some (shAB, f, m == { rm := m.rm, pk := m.pk })
  | .ffma f m => some (shABC, f, m == { rm := m.rm, pk := m.pk })
  | .fmin f m | .fmax f m | .fminp f m | .fmaxp f m => some (shAB, f, m == { pk := m.pk })
  | .fcmp f m => some (shAB, f, m == { pk := m.pk, cond := m.cond, ones := m.ones })
  | .fclass f m => some (shB, f, m == { pk := m.pk })
  | .frnd f m => some (shB, f, m.df == m.sf && !m.sat && (m.df == .f32 || m.df == .f16 || m.df == .bf16))
  | .cvt f _ => some (shB, f, true)
  | .frcp f | .frsq f | .fsqrt f | .fexp2 f | .flog2 f | .fsint f | .fcost f => some (shB, f, true)
  -- cross-lane, Table 7-7
  | .shfl f _ => some (shABC, f, true)
  | .bcst f => some (shABC, f, true)
  | .vote f _ => some (shAC, f, true)
  | .lred f m => some (shAC, f, m.opc ≠ .exch && !m.excl && (!m.u || m.opc == .min || m.opc == .max))
  | .lscan f m => some (shAC, f, m.opc ≠ .exch && (!m.u || m.opc == .min || m.opc == .max))
  | .match f | .elect f => some (shAC, f, true)
  -- memory, Table 10-1 and R220
  | .ld f m => some (⟨.result, .regOnly, .any, .unused⟩, f,
      m == { size := m.size, sx := m.sx, ord := m.ord, scope := m.scope, sc := m.sc }
        && (m.ord || m.scope == .core) && (!m.sx || ((m.size == .s1 || m.size == .s2) && !m.sc))
        && (!m.sc || m.size == .s16))
  | .st f m => some (⟨.source, .regOnly, .any, .unused⟩, f,
      m == { size := m.size, ord := m.ord, scope := m.scope, psn := m.psn } && (m.ord || m.scope == .core))
  | .ldt f m => some (shABC, f,
      m == { size := m.size, sx := m.sx, ord := m.ord, scope := m.scope, col := m.col, wf := m.wf, clr := m.clr }
        && (m.ord || m.scope == .core) && (!m.sx || m.size == .s1 || m.size == .s2))
  | .stt f m => some (⟨.source, .any, .any, .any⟩, f,
      m == { size := m.size, ord := m.ord, scope := m.scope, col := m.col, fill := m.fill, psn := m.psn }
        && (m.ord || m.scope == .core))
  | .pref f _ | .cinv f _ | .cwb f _ => some (shN .regOnly .any .unused, f, true)
  | .cpy f _ => some (⟨.result, .regOnly, .regOnly, .any⟩, f, true)
  | .gth f => some (⟨.result, .regOnly, .regOnly, .any⟩, f, true)
  | .ewait f => some (shB, f, true)
  | .cpySeal f | .cpyOpen f => some (⟨.result, .regOnly, .regOnly, .any⟩, f, true)
  | .dbell f _ => some (shN .regOnly .any .any, f, true)
  | .atom f m => some (⟨.result, .regOnly, .any, if m.sz = .z16 then .regOnly else .any⟩, f,
      (m.opc == .exch || m.opc == .add || m.opc == .min || m.opc == .max || m.opc == .and || m.opc == .or || m.opc == .xor)
        && (!m.u || m.opc == .min || m.opc == .max) && (m.sz ≠ .z16 || m.opc == .exch)
        && (m.ord ≠ .relaxed || m.scope == .core) && !m.sc && !m.eng)
  | .red f m => some (shN .regOnly .any .any, f,
      m == { opc := m.opc, u := m.u, sz := m.sz, sc := m.sc }
        && (if m.sc then m.opc == .fadd && m.sz == .z16
            else m.sz ≠ .z16 && (m.opc == .add || m.opc == .min || m.opc == .max || m.opc == .and || m.opc == .or || m.opc == .xor))
        && (!m.u || m.opc == .min || m.opc == .max))
  | .cas f m => some (⟨.resultNoN, .regOnly, .any, if m.sz = .z16 then .regOnly else .any⟩, f,
      m == { ord := m.ord, scope := m.scope, sz := m.sz } && (m.ord ≠ .relaxed || m.scope == .core))
  | .fence f m => some (sh0, f, m == { ord := m.ord, scope := m.scope, eng := m.eng } && m.ord ≠ .relaxed)
  | .waitv f m => some (⟨.result, .regOnly, .any, .any⟩, f,
      m == { ord := m.ord, scope := m.scope, sz := m.sz } && (m.ord == .relaxed || m.ord == .acq)
        && (m.ord ≠ .relaxed || m.scope == .core) && m.sz ≠ .z16)
  -- tiles and matrix tasks, Tables 5-7 and 8-4
  | .talloc f m => some (⟨.result, .regOnly, .any, .any⟩, f,
      m.span == 0 || (m.lv == .sp && 4 ≤ m.span.toNat && m.span.toNat ≤ 64))
  | .tfree f => some (shN .unused .any .unused, f, true)
  | .thdr f _ => some (shB, f, true)
  | .thdrCtl f => some (shB, f, true)
  | .thset f k => some (shN .any .any .any, f, k ≠ 15)
  | .thsetCtl f => some (shN .any .any .any, f, true)
  | .tmov f _ => some (shAB, f, true)
  | .mma f _ => some (shABC, f, true)
  | .mwait f => some (shN .unused .any .unused, f, true)
  | .mwaitAll f => some (sh0, f, true)
  | .quant f => some (shAB, f, true)
  -- control, Table 13-1
  | .bara f l | .bars f l => some (shN .unused .any .any, f, l.toNat ≤ 8)
  | .barw f l => some (shN .unused .any .unused, f, l.toNat ≤ 8)
  | .br f _ => some (shN .any .any .unused, f, true)
  | .jmp f => some (shN .unused .any .unused, f, true)
  | .jmpr f => some (shN .regOrLatch .any .unused, f, true)
  | .call f => some (shB, f, true)
  | .callInd f => some (⟨.result, .regOrLatch, .any, .unused⟩, f, true)
  | .ret f => some (shN .regOrLatch .unused .unused, f, true)
  | .tdisp f => some (shD, f, true)
  | .svc f => some (shN .unused .any .unused, f, true)
  | .svcMb f => some (⟨.result, .unused, .any, .any⟩, f, true)
  | .yield f | .nop f | .exit f | .eret f => some (sh0, f, true)
  | .safe f => some (shN .unused .immOnly .unused, f, true)
  | .trap f => some (shN .unused .any .unused, f, true)
  -- system, Tables 17-4, 18-7 and 20-4
  | .rdsr f sr => some (shD, f, sr ≠ 0x405 && sr ≠ 0x408)
  | .trqRead f | .mboxRead f => some (shD, f, true)
  | .wrsr f sr => some (shN .unused .any .unused, f, sr ≠ 0x409)
  | .mbrplWrite f => some (shN .unused .any .unused, f, true)
  | .tlbiPage f => some (shN .regOnly .any .unused, f, true)
  | .tlbiCtx f => some (shN .unused .any .unused, f, true)
  | .tlbiAll f => some (sh0, f, true)
  | .rdth f => some (⟨.result, .unused, .any, .any⟩, f, true)
  | .wrth f => some (⟨.source, .unused, .any, .any⟩, f, true)
  | .wake f | .park f => some (shN .unused .any .unused, f, true)
  | .irqbBind f => some (⟨.result, .unused, .any, .any⟩, f, true)
  | .irqbUnbind f => some (shB, f, true)
  | .bind f => some (⟨.result, .regOnly, .any, .unused⟩, f, true)
  | .selft f => some (⟨.result, .unused, .any, .any⟩, f, true)
  | .hashb f _ => some (shN .regOnly .any .any, f, true)
  | .hashf f _ => some (shN .regOnly .any .unused, f, true)
  | .ecver f => some (⟨.result, .regOnly, .any, .unused⟩, f, true)
  | .ecsig f => some (shN .regOnly .any .unused, f, true)
  | .mext f k => some (shN .regOnly .any .unused, f, k ≠ 0)
  | .mread f _ => some (shN .regOnly .any .unused, f, true)
  -- short forms and events hold no field that could break a rule of R65
  | _ => none

/-- The first rule that an instruction breaks. -/
def Instr.reject (i : Instr) : Option Reject :=
  match i.form with
  | none => none
  | some (s, f, ok) => if ok then s.check f else some .reservedModifier

/-- Well formed: no rule of R65 refuses it. -/
def Instr.wellFormed (i : Instr) : Bool := i.reject.isNone

end Sys2Proof
end

