-- ==== Sys2Proof/Decode.lean ====
section
/-! DEFINITION. The decoder and the encoder of Nelcy, from the encoding tables of 03_encoding (Tables 3-1 to 3-14)
and the MOD layouts of Table 3-8. The decoder is total on any bytes and refuses by name (`Reject`). -/

namespace Sys2Proof

/-! ## Bit helpers -/

/-- Bit `k` of a 16-bit MOD, when set. -/
def bit (b : Bool) (k : Nat) : BitVec 16 := if b then (1 : BitVec 16) <<< k else 0

/-- A field of a MOD. -/
def fld (m : BitVec 16) (lo w : Nat) : Nat := (m.extractLsb' lo w).toNat

/-- A field value placed at bit `lo`. -/
def put (v lo : Nat) : BitVec 16 := BitVec.ofNat 16 v <<< lo

/-! ## Field codes (Table 3-9, Table 3-10) -/

def EW.code : EW → Nat
  | .w32 => 0 | .h2 => 1 | .q4 => 2
def EW.ofCode : Nat → Option EW
  | 0 => some .w32 | 1 => some .h2 | 2 => some .q4 | _ => none

def Cond.code : Cond → Nat
  | .eq => 0 | .ne => 1 | .lt => 2 | .ge => 3 | .le => 4 | .gt => 5 | .un => 6 | .od => 7
def Cond.ofCode : Nat → Option Cond
  | 0 => some .eq | 1 => some .ne | 2 => some .lt | 3 => some .ge | 4 => some .le | 5 => some .gt
  | 6 => some .un | 7 => some .od | _ => none

def RMod.code : RMod → Nat
  | .fmode => 0 | .rne => 1 | .rtz => 2 | .rup => 3 | .rdn => 4
def RMod.ofCode : Nat → Option RMod
  | 0 => some .fmode | 1 => some .rne | 2 => some .rtz | 3 => some .rup | 4 => some .rdn | _ => none

def PK.code : PK → Nat
  | .f32 => 0 | .bf16x2 => 1 | .f16x2 => 2
def PK.ofCode : Nat → Option PK
  | 0 => some .f32 | 1 => some .bf16x2 | 2 => some .f16x2 | _ => none

def Fmt.code : Fmt → Nat
  | .f32 => 0 | .f16 => 1 | .bf16 => 2 | .e4m3 => 3 | .e5m2 => 4 | .e3m2 => 5 | .e2m3 => 6 | .e2m1 => 7
  | .i8 => 8 | .i4 => 9 | .i32 => 10 | .ui32 => 11
def Fmt.ofCode : Nat → Option Fmt
  | 0 => some .f32 | 1 => some .f16 | 2 => some .bf16 | 3 => some .e4m3 | 4 => some .e5m2 | 5 => some .e3m2
  | 6 => some .e2m3 | 7 => some .e2m1 | 8 => some .i8 | 9 => some .i4 | 10 => some .i32 | 11 => some .ui32 | _ => none

def Scope.code : Scope → Nat
  | .core => 0 | .die => 1 | .dev => 2 | .clu => 3 | .sys => 4
def Scope.ofCode : Nat → Option Scope
  | 0 => some .core | 1 => some .die | 2 => some .dev | 3 => some .clu | 4 => some .sys | _ => none

def Opc.code : Opc → Nat
  | .add => 0 | .min => 1 | .max => 2 | .and => 3 | .or => 4 | .xor => 5 | .exch => 6 | .fadd => 7 | .fmin => 8 | .fmax => 9
def Opc.ofCode : Nat → Option Opc
  | 0 => some .add | 1 => some .min | 2 => some .max | 3 => some .and | 4 => some .or | 5 => some .xor
  | 6 => some .exch | 7 => some .fadd | 8 => some .fmin | 9 => some .fmax | _ => none

def Size.code : Size → Nat
  | .s1 => 0 | .s2 => 1 | .s4 => 2 | .s8 => 3 | .s16 => 4
def Size.ofCode : Nat → Option Size
  | 0 => some .s1 | 1 => some .s2 | 2 => some .s4 | 3 => some .s8 | 4 => some .s16 | _ => none

/-- The size in bytes. -/
def Size.bytes (s : Size) : Nat := 2 ^ s.code

def Sz.code : Sz → Nat
  | .z4 => 0 | .z8 => 1 | .z16 => 2
def Sz.ofCode : Nat → Option Sz
  | 0 => some .z4 | 1 => some .z8 | 2 => some .z16 | _ => none

/-- The size in bytes. -/
def Sz.bytes (s : Sz) : Nat := 4 * 2 ^ s.code

def Ord2.code : Ord2 → Nat
  | .relaxed => 0 | .acq => 1 | .rel => 2 | .acqrel => 3
def Ord2.ofCode : Nat → Ord2
  | 0 => .relaxed | 1 => .acq | 2 => .rel | _ => .acqrel

def Level.code : Level → Nat
  | .sp => 0 | .om => 1 | .acc => 2
def Level.ofCode : Nat → Option Level
  | 0 => some .sp | 1 => some .om | 2 => some .acc | _ => none

/-! ## MOD layouts (Table 3-8). A decoder answers none on a reserved bit or value. -/

def IntMod.enc (m : IntMod) : BitVec 16 :=
  put m.cond.code 12 ||| put m.ew.code 10 ||| bit m.sat 9 ||| bit m.u 8 ||| bit m.ones 7
def IntMod.dec (x : BitVec 16) : Option IntMod := do
  let cond ← Cond.ofCode (fld x 12 4)
  let ew ← EW.ofCode (fld x 10 2)
  if fld x 0 7 = 0 then some { cond, ew, sat := x.getLsbD 9, u := x.getLsbD 8, ones := x.getLsbD 7 } else none

def FMod.enc (m : FMod) : BitVec 16 :=
  put m.rm.code 13 ||| put m.pk.code 11 ||| put m.cond.code 7 ||| bit m.ones 6
def FMod.dec (x : BitVec 16) : Option FMod := do
  let rm ← RMod.ofCode (fld x 13 3)
  let pk ← PK.ofCode (fld x 11 2)
  let cond ← Cond.ofCode (fld x 7 4)
  if fld x 0 6 = 0 then some { rm, pk, cond, ones := x.getLsbD 6 } else none

def CvtMod.enc (m : CvtMod) : BitVec 16 :=
  put m.rm.code 13 ||| put m.df.code 9 ||| put m.sf.code 5 ||| bit m.sat 4
def CvtMod.dec (x : BitVec 16) : Option CvtMod := do
  let rm ← RMod.ofCode (fld x 13 3)
  let df ← Fmt.ofCode (fld x 9 4)
  let sf ← Fmt.ofCode (fld x 5 4)
  if fld x 0 4 = 0 then some { rm, df, sf, sat := x.getLsbD 4 } else none

def ShflMode.code : ShflMode → Nat
  | .idx => 0 | .up => 1 | .down => 2 | .bxor => 3
def ShflMode.enc (m : ShflMode) : BitVec 16 := put m.code 8
def ShflMode.dec (x : BitVec 16) : Option ShflMode :=
  if x = put 0 8 then some .idx else if x = put 1 8 then some .up
  else if x = put 2 8 then some .down else if x = put 3 8 then some .bxor else none

def VoteMode.code : VoteMode → Nat
  | .any => 0 | .all => 1 | .ballot => 2
def VoteMode.enc (m : VoteMode) : BitVec 16 := put m.code 8
def VoteMode.dec (x : BitVec 16) : Option VoteMode :=
  if x = put 0 8 then some .any else if x = put 1 8 then some .all else if x = put 2 8 then some .ballot else none

def RedMod.enc (m : RedMod) : BitVec 16 := put m.opc.code 12 ||| bit m.u 11 ||| bit m.excl 10
def RedMod.dec (x : BitVec 16) : Option RedMod := do
  let opc ← Opc.ofCode (fld x 12 4)
  if fld x 0 10 = 0 then some { opc, u := x.getLsbD 11, excl := x.getLsbD 10 } else none

def MemMod.enc (m : MemMod) : BitVec 16 :=
  put m.size.code 13 ||| bit m.sx 12 ||| bit m.ord 10 ||| put m.scope.code 7 ||| bit m.col 6 ||| bit m.wf 5
    ||| bit m.clr 4 ||| bit m.fill 3 ||| bit m.psn 2 ||| bit m.sc 1
def MemMod.dec (x : BitVec 16) : Option MemMod := do
  let size ← Size.ofCode (fld x 13 3)
  let scope ← Scope.ofCode (fld x 7 3)
  if x.getLsbD 11 || x.getLsbD 0 then none
  else some { size, sx := x.getLsbD 12, ord := x.getLsbD 10, scope, col := x.getLsbD 6, wf := x.getLsbD 5,
              clr := x.getLsbD 4, fill := x.getLsbD 3, psn := x.getLsbD 2, sc := x.getLsbD 1 }

def Size.encMod (s : Size) : BitVec 16 := put s.code 13
def Size.decMod (x : BitVec 16) : Option Size := if fld x 0 13 = 0 then Size.ofCode (fld x 13 3) else none

def SyncMod.enc (m : SyncMod) : BitVec 16 :=
  put m.opc.code 12 ||| bit m.u 11 ||| put m.ord.code 9 ||| put m.scope.code 6 ||| put m.sz.code 4
    ||| bit m.sc 3 ||| bit m.eng 2
def SyncMod.dec (x : BitVec 16) : Option SyncMod := do
  let opc ← Opc.ofCode (fld x 12 4)
  let scope ← Scope.ofCode (fld x 6 3)
  let sz ← Sz.ofCode (fld x 4 2)
  if fld x 0 2 = 0 then
    some { opc, u := x.getLsbD 11, ord := Ord2.ofCode (fld x 9 2), scope, sz, sc := x.getLsbD 3, eng := x.getLsbD 2 }
  else none

def AllocMod.enc (m : AllocMod) : BitVec 16 :=
  put m.lv.code 12 ||| bit m.xshape 11 ||| bit m.xsparse 10 ||| bit m.xscale 9 ||| bit m.xfmt 8 ||| m.span.setWidth 16
def AllocMod.dec (x : BitVec 16) : Option AllocMod := do
  let lv ← Level.ofCode (fld x 12 2)
  if fld x 14 2 = 0 && !x.getLsbD 7 then
    some { lv, xshape := x.getLsbD 11, xsparse := x.getLsbD 10, xscale := x.getLsbD 9, xfmt := x.getLsbD 8,
           span := x.extractLsb' 0 7 }
  else none

def MovMod.enc (m : MovMod) : BitVec 16 := bit m.os 15 ||| bit m.od 14 ||| put m.rm.code 1 ||| bit m.sat 0
def MovMod.dec (x : BitVec 16) : Option MovMod := do
  let rm ← RMod.ofCode (fld x 1 3)
  if fld x 4 10 = 0 then some { os := x.getLsbD 15, od := x.getLsbD 14, rm, sat := x.getLsbD 0 } else none

/-! ## Source codes (Table 3-6) -/

def Special.code : Special → Nat
  | .tid => 0 | .lane => 1 | .slot => 2 | .cx => 3 | .cy => 4 | .rw => 5 | .rh => 6 | .nth => 7
def Special.ofCode : Nat → Special
  | 0 => .tid | 1 => .lane | 2 => .slot | 3 => .cx | 4 => .cy | 5 => .rw | 6 => .rh | _ => .nth

def Src.code : Src → BitVec 9
  | .reg n => n.setWidth 9
  | .latch k => 256 + k.setWidth 9
  | .special s => 264 + BitVec.ofNat 9 s.code
  | .imm v => 272 + (v + 16).setWidth 9
  | .lit => 511
def Src.ofCode (c : BitVec 9) : Option Src :=
  let n := c.toNat
  if n < 256 then some (.reg (c.setWidth 8))
  else if n < 264 then some (.latch (c.setWidth 3))
  else if n < 272 then some (.special (.ofCode (n - 264)))
  else if n < 304 then some (.imm (c.setWidth 5))
  else if n = 511 then some .lit
  else none

def SrcW.code : SrcW → BitVec 8
  | .reg n => n.setWidth 8
  | .latch k => 128 + k.setWidth 8
  | .imm v => 136 + (v + 32).setWidth 8
  | .special s => 200 + BitVec.ofNat 8 s.code
def SrcW.ofCode (c : BitVec 8) : Option SrcW :=
  let n := c.toNat
  if n < 128 then some (.reg (c.setWidth 7))
  else if n < 136 then some (.latch (c.setWidth 3))
  else if n < 200 then some (.imm (BitVec.ofNat 6 (n - 136) - 32))
  else if n < 208 then some (.special (.ofCode (n - 200)))
  else none

def SrcC.code : SrcC → BitVec 6
  | .reg n => n.setWidth 6
  | .latch k => 32 + k.setWidth 6
  | .imm k => 40 + k.setWidth 6
  | .special s => 56 + BitVec.ofNat 6 s.code
def SrcC.ofCode (c : BitVec 6) : SrcC :=
  let n := c.toNat
  if n < 32 then .reg (c.setWidth 5)
  else if n < 40 then .latch (c.setWidth 3)
  else if n < 56 then .imm (BitVec.ofNat 4 (n - 40))
  else .special (.ofCode (n - 56))

/-! ## D and L forms (Tables 3-4 and 3-12) -/

/-- The instruction of a major opcode, its MOD and its fields; none where the opcode or the MOD is reserved. -/
def decodeOpd (opd : Nat) (mod : BitVec 16) (f : DF) : Option Instr :=
  match opd with
  | 0x000 => if mod = 0 then some (.mov f) else none
  | 0x001 => (IntMod.dec mod).map (.li f)
  | 0x002 => (IntMod.dec mod).map (.add f)
  | 0x003 => (IntMod.dec mod).map (.sub f)
  | 0x004 => if mod = 0 then some (.addc f) else none
  | 0x005 => if mod = 0 then some (.subb f) else none
  | 0x006 => if mod = 0 then some (.mul f) else none
  | 0x007 => (IntMod.dec mod).map (.mulh f)
  | 0x008 => if mod = 0 then some (.mad f) else none
  | 0x009 => (IntMod.dec mod).map (.madw f)
  | 0x00A => if mod = 0 then some (.add64 f) else none
  | 0x00B => if mod = 0 then some (.sub64 f) else none
  | 0x00C => (IntMod.dec mod).map (.lea f)
  | 0x00D => (IntMod.dec mod).map (.min f)
  | 0x00E => (IntMod.dec mod).map (.max f)
  | 0x00F => (IntMod.dec mod).map (.abs f)
  | 0x010 => (IntMod.dec mod).map (.neg f)
  | 0x011 => (IntMod.dec mod).map (.cmp f)
  | 0x012 => if mod = 0 then some (.sel f) else none
  | 0x013 => if mod = 0 then some (.and f) else none
  | 0x014 => if mod = 0 then some (.or f) else none
  | 0x015 => if mod = 0 then some (.xor f) else none
  | 0x016 => if mod = 0 then some (.andn f) else none
  | 0x017 => (IntMod.dec mod).map (.shl f)
  | 0x018 => (IntMod.dec mod).map (.shr f)
  | 0x019 => (IntMod.dec mod).map (.sar f)
  | 0x01A => if mod = 0 then some (.rot f) else none
  | 0x01B => if mod = 0 then some (.fsh f) else none
  | 0x01C => (IntMod.dec mod).map (.bfx f)
  | 0x01D => if mod = 0 then some (.bfi f) else none
  | 0x01E => if mod = 0 then some (.popc f) else none
  | 0x01F => if mod = 0 then some (.clz f) else none
  | 0x020 => if mod = 0 then some (.ctz f) else none
  | 0x021 => if mod = 0 then some (.brev f) else none
  | 0x022 => if mod = 0 then some (.perm f) else none
  | 0x023 => (IntMod.dec mod).map (.dot4 f)
  | 0x040 => (FMod.dec mod).map (.fadd f)
  | 0x041 => (FMod.dec mod).map (.fsub f)
  | 0x042 => (FMod.dec mod).map (.fmul f)
  | 0x043 => (FMod.dec mod).map (.ffma f)
  | 0x044 => (FMod.dec mod).map (.fmin f)
  | 0x045 => (FMod.dec mod).map (.fmax f)
  | 0x046 => (FMod.dec mod).map (.fminp f)
  | 0x047 => (FMod.dec mod).map (.fmaxp f)
  | 0x048 => (FMod.dec mod).map (.fcmp f)
  | 0x049 => (FMod.dec mod).map (.fclass f)
  | 0x04A => (CvtMod.dec mod).map (.frnd f)
  | 0x04B => (CvtMod.dec mod).map (.cvt f)
  | 0x080 => if mod = 0 then some (.frcp f) else none
  | 0x081 => if mod = 0 then some (.frsq f) else none
  | 0x082 => if mod = 0 then some (.fsqrt f) else none
  | 0x083 => if mod = 0 then some (.fexp2 f) else none
  | 0x084 => if mod = 0 then some (.flog2 f) else none
  | 0x085 => if mod = 0 then some (.fsint f) else none
  | 0x086 => if mod = 0 then some (.fcost f) else none
  | 0x0A0 => (ShflMode.dec mod).map (.shfl f)
  | 0x0A1 => if mod = 0 then some (.bcst f) else none
  | 0x0A2 => (VoteMode.dec mod).map (.vote f)
  | 0x0A3 => (RedMod.dec mod).map (.lred f)
  | 0x0A4 => (RedMod.dec mod).map (.lscan f)
  | 0x0A5 => if mod = 0 then some (.match f) else none
  | 0x0A6 => if mod = 0 then some (.elect f) else none
  | 0x0C0 => (MemMod.dec mod).map (.ld f)
  | 0x0C1 => (MemMod.dec mod).map (.st f)
  | 0x0C2 => (MemMod.dec mod).map (.ldt f)
  | 0x0C3 => (MemMod.dec mod).map (.stt f)
  | 0x0C4 => (Size.decMod mod).map (.pref f)
  | 0x0C5 => (Size.decMod mod).map (.cinv f)
  | 0x0C6 => (Size.decMod mod).map (.cwb f)
  | 0x0C7 => if mod = 0 then some (.cpy f false) else if mod = 0x40 then some (.cpy f true) else none
  | 0x0C8 => if mod = 0 then some (.gth f) else none
  | 0x0C9 => if mod = 0 then some (.ewait f) else none
  | 0x0CA => if mod = 0 then some (.cpySeal f) else none
  | 0x0CB => if mod = 0 then some (.cpyOpen f) else none
  | 0x0CC => if mod = 0x4000 then some (.dbell f false) else if mod = 0x6000 then some (.dbell f true) else none
  | 0x100 => (AllocMod.dec mod).map (.talloc f)
  | 0x101 => if mod = 0 then some (.tfree f) else none
  | 0x102 => if mod = 16 then some (.thdrCtl f) else if mod.toNat < 16 then some (.thdr f (mod.extractLsb' 0 4)) else none
  | 0x103 => if mod = 16 then some (.thsetCtl f) else if mod.toNat < 16 then some (.thset f (mod.extractLsb' 0 4)) else none
  | 0x104 => (MovMod.dec mod).map (.tmov f)
  | 0x105 => if mod.toNat < 2 then some (.mma f (mod = 1)) else none
  | 0x106 => if mod = 0 then some (.mwait f) else if mod = 1 then some (.mwaitAll f) else none
  | 0x107 => if mod = 0 then some (.quant f) else none
  | 0x140 => (SyncMod.dec mod).map (.atom f)
  | 0x141 => (SyncMod.dec mod).map (.red f)
  | 0x142 => (SyncMod.dec mod).map (.cas f)
  | 0x143 => (SyncMod.dec mod).map (.fence f)
  | 0x144 => (SyncMod.dec mod).map (.waitv f)
  | 0x145 => if mod.toNat < 16 then some (.bara f (mod.extractLsb' 0 4)) else none
  | 0x146 => if mod.toNat < 16 then some (.barw f (mod.extractLsb' 0 4)) else none
  | 0x147 => if mod.toNat < 16 then some (.bars f (mod.extractLsb' 0 4)) else none
  | 0x148 => if mod.toNat < 2 then some (.br f (mod = 1)) else none
  | 0x149 => if mod = 0 then some (.jmp f) else none
  | 0x14A => if mod = 0 then some (.jmpr f) else none
  | 0x14B => if mod = 0 then some (.call f) else if mod = 1 then some (.callInd f) else none
  | 0x14C => if mod = 0 then some (.ret f) else none
  | 0x14D => if mod = 0 then some (.tdisp f) else none
  | 0x14E => if mod = 0 then some (.svc f) else if mod = 1 then some (.svcMb f) else none
  | 0x14F => if mod = 0 then some (.yield f) else none
  | 0x150 => if mod = 0 then some (.safe f) else none
  | 0x151 => if mod = 0 then some (.nop f) else none
  | 0x152 => if mod = 0 then some (.exit f) else none
  | 0x153 => if mod = 0 then some (.trap f) else none
  | 0x180 => if mod = 0x405 then some (.trqRead f) else if mod = 0x408 then some (.mboxRead f) else if mod.toNat < 4096 then some (.rdsr f (mod.extractLsb' 0 12)) else none
  | 0x181 => if mod = 0x409 then some (.mbrplWrite f) else if mod.toNat < 4096 then some (.wrsr f (mod.extractLsb' 0 12)) else none
  | 0x182 => if mod = 0 then some (.eret f) else none
  | 0x183 => if mod = 0 then some (.tlbiPage f) else if mod = 1 then some (.tlbiCtx f) else if mod = 2 then some (.tlbiAll f) else none
  | 0x184 => if mod = 0 then some (.rdth f) else none
  | 0x185 => if mod = 0 then some (.wrth f) else none
  | 0x186 => if mod = 0 then some (.wake f) else none
  | 0x187 => if mod = 0 then some (.park f) else none
  | 0x188 => if mod = 0 then some (.irqbBind f) else if mod = 1 then some (.irqbUnbind f) else none
  | 0x189 => if mod = 0 then some (.bind f) else none
  | 0x18A => if mod = 0 then some (.selft f) else none
  | 0x190 => if mod.toNat < 4 then some (.hashb f (mod.extractLsb' 0 2)) else none
  | 0x191 => if mod.toNat < 4 then some (.hashf f (mod.extractLsb' 0 2)) else none
  | 0x192 => if mod = 0 then some (.ecver f) else none
  | 0x193 => if mod = 0 then some (.ecsig f) else none
  | 0x194 => if mod.toNat < 8 then some (.mext f (mod.extractLsb' 0 3)) else none
  | 0x195 => if mod.toNat < 8 then some (.mread f (mod.extractLsb' 0 3)) else none
  | _ => none

/-- Is the major opcode assigned (R62)? -/
def opdAssigned (n : Nat) : Bool :=
  n ≤ 0x023 || (0x040 ≤ n && n ≤ 0x04B) || (0x080 ≤ n && n ≤ 0x086) || (0x0A0 ≤ n && n ≤ 0x0A6)
    || (0x0C0 ≤ n && n ≤ 0x0CC) || (0x100 ≤ n && n ≤ 0x107) || (0x140 ≤ n && n ≤ 0x153)
    || (0x180 ≤ n && n ≤ 0x18A) || (0x190 ≤ n && n ≤ 0x195)

/-- The 64-bit D word (bits 2:0 = 011) or the D part of an L form, with its literal. -/
def decodeD (w : BitVec 64) (lit : Option Word) : Except Reject Instr :=
  let opd := (w.extractLsb' 3 9).toNat
  if !opdAssigned opd then .error .unassignedOpcode else
  match Src.ofCode (w.extractLsb' 21 9), Src.ofCode (w.extractLsb' 30 9), Src.ofCode (w.extractLsb' 39 9) with
  | some a, some b, some c =>
    match decodeOpd opd (w.extractLsb' 48 16) ⟨w.extractLsb' 12 8, w.getLsbD 20, a, b, c, lit⟩ with
    | none => .error .reservedModifier
    | some i => match i.reject with
      | none => .ok i
      | some r => .error r
  | _, _, _ => .error .reservedSource

/-- Major opcode, MOD and fields of a D-form constructor. -/
def Instr.dFields : Instr → Option (Nat × BitVec 16 × DF)
  | .mov f => some (0x000, 0, f)
  | .li f m => some (0x001, m.enc, f)
  | .add f m => some (0x002, m.enc, f)
  | .sub f m => some (0x003, m.enc, f)
  | .addc f => some (0x004, 0, f)
  | .subb f => some (0x005, 0, f)
  | .mul f => some (0x006, 0, f)
  | .mulh f m => some (0x007, m.enc, f)
  | .mad f => some (0x008, 0, f)
  | .madw f m => some (0x009, m.enc, f)
  | .add64 f => some (0x00A, 0, f)
  | .sub64 f => some (0x00B, 0, f)
  | .lea f m => some (0x00C, m.enc, f)
  | .min f m => some (0x00D, m.enc, f)
  | .max f m => some (0x00E, m.enc, f)
  | .abs f m => some (0x00F, m.enc, f)
  | .neg f m => some (0x010, m.enc, f)
  | .cmp f m => some (0x011, m.enc, f)
  | .sel f => some (0x012, 0, f)
  | .and f => some (0x013, 0, f)
  | .or f => some (0x014, 0, f)
  | .xor f => some (0x015, 0, f)
  | .andn f => some (0x016, 0, f)
  | .shl f m => some (0x017, m.enc, f)
  | .shr f m => some (0x018, m.enc, f)
  | .sar f m => some (0x019, m.enc, f)
  | .rot f => some (0x01A, 0, f)
  | .fsh f => some (0x01B, 0, f)
  | .bfx f m => some (0x01C, m.enc, f)
  | .bfi f => some (0x01D, 0, f)
  | .popc f => some (0x01E, 0, f)
  | .clz f => some (0x01F, 0, f)
  | .ctz f => some (0x020, 0, f)
  | .brev f => some (0x021, 0, f)
  | .perm f => some (0x022, 0, f)
  | .dot4 f m => some (0x023, m.enc, f)
  | .fadd f m => some (0x040, m.enc, f)
  | .fsub f m => some (0x041, m.enc, f)
  | .fmul f m => some (0x042, m.enc, f)
  | .ffma f m => some (0x043, m.enc, f)
  | .fmin f m => some (0x044, m.enc, f)
  | .fmax f m => some (0x045, m.enc, f)
  | .fminp f m => some (0x046, m.enc, f)
  | .fmaxp f m => some (0x047, m.enc, f)
  | .fcmp f m => some (0x048, m.enc, f)
  | .fclass f m => some (0x049, m.enc, f)
  | .frnd f m => some (0x04A, m.enc, f)
  | .cvt f m => some (0x04B, m.enc, f)
  | .frcp f => some (0x080, 0, f)
  | .frsq f => some (0x081, 0, f)
  | .fsqrt f => some (0x082, 0, f)
  | .fexp2 f => some (0x083, 0, f)
  | .flog2 f => some (0x084, 0, f)
  | .fsint f => some (0x085, 0, f)
  | .fcost f => some (0x086, 0, f)
  | .shfl f m => some (0x0A0, m.enc, f)
  | .bcst f => some (0x0A1, 0, f)
  | .vote f m => some (0x0A2, m.enc, f)
  | .lred f m => some (0x0A3, m.enc, f)
  | .lscan f m => some (0x0A4, m.enc, f)
  | .match f => some (0x0A5, 0, f)
  | .elect f => some (0x0A6, 0, f)
  | .ld f m => some (0x0C0, m.enc, f)
  | .st f m => some (0x0C1, m.enc, f)
  | .ldt f m => some (0x0C2, m.enc, f)
  | .stt f m => some (0x0C3, m.enc, f)
  | .pref f m => some (0x0C4, m.encMod, f)
  | .cinv f m => some (0x0C5, m.encMod, f)
  | .cwb f m => some (0x0C6, m.encMod, f)
  | .cpy f col => some (0x0C7, bit col 6, f)
  | .gth f => some (0x0C8, 0, f)
  | .ewait f => some (0x0C9, 0, f)
  | .cpySeal f => some (0x0CA, 0, f)
  | .cpyOpen f => some (0x0CB, 0, f)
  | .dbell f eight => some (0x0CC, if eight then 0x6000 else 0x4000, f)
  | .talloc f m => some (0x100, m.enc, f)
  | .tfree f => some (0x101, 0, f)
  | .thdr f k => some (0x102, k.setWidth 16, f)
  | .thdrCtl f => some (0x102, 16, f)
  | .thset f k => some (0x103, k.setWidth 16, f)
  | .thsetCtl f => some (0x103, 16, f)
  | .tmov f m => some (0x104, m.enc, f)
  | .mma f z => some (0x105, bit z 0, f)
  | .mwait f => some (0x106, 0, f)
  | .mwaitAll f => some (0x106, 1, f)
  | .quant f => some (0x107, 0, f)
  | .atom f m => some (0x140, m.enc, f)
  | .red f m => some (0x141, m.enc, f)
  | .cas f m => some (0x142, m.enc, f)
  | .fence f m => some (0x143, m.enc, f)
  | .waitv f m => some (0x144, m.enc, f)
  | .bara f l => some (0x145, l.setWidth 16, f)
  | .barw f l => some (0x146, l.setWidth 16, f)
  | .bars f l => some (0x147, l.setWidth 16, f)
  | .br f nz => some (0x148, bit nz 0, f)
  | .jmp f => some (0x149, 0, f)
  | .jmpr f => some (0x14A, 0, f)
  | .call f => some (0x14B, 0, f)
  | .callInd f => some (0x14B, 1, f)
  | .ret f => some (0x14C, 0, f)
  | .tdisp f => some (0x14D, 0, f)
  | .svc f => some (0x14E, 0, f)
  | .svcMb f => some (0x14E, 1, f)
  | .yield f => some (0x14F, 0, f)
  | .safe f => some (0x150, 0, f)
  | .nop f => some (0x151, 0, f)
  | .exit f => some (0x152, 0, f)
  | .trap f => some (0x153, 0, f)
  | .rdsr f sr => some (0x180, sr.setWidth 16, f)
  | .trqRead f => some (0x180, 0x405, f)
  | .mboxRead f => some (0x180, 0x408, f)
  | .wrsr f sr => some (0x181, sr.setWidth 16, f)
  | .mbrplWrite f => some (0x181, 0x409, f)
  | .eret f => some (0x182, 0, f)
  | .tlbiPage f => some (0x183, 0, f)
  | .tlbiCtx f => some (0x183, 1, f)
  | .tlbiAll f => some (0x183, 2, f)
  | .rdth f => some (0x184, 0, f)
  | .wrth f => some (0x185, 0, f)
  | .wake f => some (0x186, 0, f)
  | .park f => some (0x187, 0, f)
  | .irqbBind f => some (0x188, 0, f)
  | .irqbUnbind f => some (0x188, 1, f)
  | .bind f => some (0x189, 0, f)
  | .selft f => some (0x18A, 0, f)
  | .hashb f k => some (0x190, k.setWidth 16, f)
  | .hashf f k => some (0x191, k.setWidth 16, f)
  | .ecver f => some (0x192, 0, f)
  | .ecsig f => some (0x193, 0, f)
  | .mext f k => some (0x194, k.setWidth 16, f)
  | .mread f k => some (0x195, k.setWidth 16, f)
  | _ => none

/-- The D word with length bits `len` (011 for D, 111 for L). -/
def dWord (opd : Nat) (mod : BitVec 16) (f : DF) : BitVec 64 :=
  let len : BitVec 3 := if f.lit.isSome then 0b111 else 0b011
  mod ++ f.c.code ++ f.b.code ++ f.a.code ++ (BitVec.ofBool f.n) ++ f.d ++ BitVec.ofNat 9 opd ++ len

/-! ## C forms (Tables 3-2 and 3-5) -/

def decodeC (w : BitVec 16) : Instr :=
  let f : CF := ⟨w.extractLsb' 5 5, SrcC.ofCode (w.extractLsb' 10 6)⟩
  match (w.extractLsb' 1 4).toNat with
  | 0 => .movC f
  | 1 => .addC f
  | 2 => .subC f
  | 3 => .mulC f
  | 4 => .andC f
  | 5 => .orC f
  | 6 => .xorC f
  | 7 => .shlC f
  | 8 => .shrC f
  | 9 => .sarC f
  | 10 => .minC f
  | 11 => .maxC f
  | 12 => .faddC f
  | 13 => .fsubC f
  | 14 => .fmulC f
  | _ => .fmaxC f

def Instr.cFields : Instr → Option (Nat × CF)
  | .movC f => some (0, f)
  | .addC f => some (1, f)
  | .subC f => some (2, f)
  | .mulC f => some (3, f)
  | .andC f => some (4, f)
  | .orC f => some (5, f)
  | .xorC f => some (6, f)
  | .shlC f => some (7, f)
  | .shrC f => some (8, f)
  | .sarC f => some (9, f)
  | .minC f => some (10, f)
  | .maxC f => some (11, f)
  | .faddC f => some (12, f)
  | .fsubC f => some (13, f)
  | .fmulC f => some (14, f)
  | .fmaxC f => some (15, f)
  | _ => none

def cWord (op : Nat) (f : CF) : BitVec 16 := f.s.code ++ f.d ++ BitVec.ofNat 4 op ++ (0 : BitVec 1)

/-! ## W forms (Tables 3-3 and 3-14) -/

/-- Is the W opcode assigned (R64)? -/
def opwAssigned (n : Nat) : Bool :=
  n ≤ 0x1F || (0x40 ≤ n && n ≤ 0x4D) || (0x50 ≤ n && n ≤ 0x54) || (0x60 ≤ n && n ≤ 0x65) || n == 0x7F

def decodeOpw (opw : Nat) (d a : BitVec 7) (b : SrcW) : Option Instr :=
  match opw with
  | 0x00 => if a = 0 then some (.movW ⟨d, b⟩) else none
  | 0x01 => some (.addW ⟨d, a, b⟩)
  | 0x02 => some (.subW ⟨d, a, b⟩)
  | 0x03 => some (.mulW ⟨d, a, b⟩)
  | 0x04 => some (.mulhW ⟨d, a, b⟩)
  | 0x05 => some (.mulhUW ⟨d, a, b⟩)
  | 0x06 => some (.minW ⟨d, a, b⟩)
  | 0x07 => some (.maxW ⟨d, a, b⟩)
  | 0x08 => some (.minUW ⟨d, a, b⟩)
  | 0x09 => some (.maxUW ⟨d, a, b⟩)
  | 0x0A => some (.andW ⟨d, a, b⟩)
  | 0x0B => some (.orW ⟨d, a, b⟩)
  | 0x0C => some (.xorW ⟨d, a, b⟩)
  | 0x0D => some (.andnW ⟨d, a, b⟩)
  | 0x0E => some (.shlW ⟨d, a, b⟩)
  | 0x0F => some (.shrW ⟨d, a, b⟩)
  | 0x10 => some (.sarW ⟨d, a, b⟩)
  | 0x11 => some (.rotW ⟨d, a, b⟩)
  | 0x12 => if a = 0 then some (.popcW ⟨d, b⟩) else none
  | 0x13 => if a = 0 then some (.clzW ⟨d, b⟩) else none
  | 0x14 => if a = 0 then some (.ctzW ⟨d, b⟩) else none
  | 0x15 => if a = 0 then some (.brevW ⟨d, b⟩) else none
  | 0x16 => some (.cmpEqW ⟨d, a, b⟩)
  | 0x17 => some (.cmpNeW ⟨d, a, b⟩)
  | 0x18 => some (.cmpLtW ⟨d, a, b⟩)
  | 0x19 => some (.cmpGeW ⟨d, a, b⟩)
  | 0x1A => some (.cmpLtUW ⟨d, a, b⟩)
  | 0x1B => some (.cmpGeUW ⟨d, a, b⟩)
  | 0x1C => some (.leaW ⟨d, a, b⟩)
  | 0x1D => some (.add64W ⟨d, a, b⟩)
  | 0x1E => if a = 0 then some (.negW ⟨d, b⟩) else none
  | 0x1F => if a = 0 then some (.absW ⟨d, b⟩) else none
  | 0x40 => some (.faddW ⟨d, a, b⟩)
  | 0x41 => some (.fsubW ⟨d, a, b⟩)
  | 0x42 => some (.fmulW ⟨d, a, b⟩)
  | 0x43 => some (.fminW ⟨d, a, b⟩)
  | 0x44 => some (.fmaxW ⟨d, a, b⟩)
  | 0x45 => some (.faddBf16x2W ⟨d, a, b⟩)
  | 0x46 => some (.fmulBf16x2W ⟨d, a, b⟩)
  | 0x47 => some (.faddF16x2W ⟨d, a, b⟩)
  | 0x48 => some (.fmulF16x2W ⟨d, a, b⟩)
  | 0x49 => some (.fcmpLtW ⟨d, a, b⟩)
  | 0x4A => some (.fcmpLeW ⟨d, a, b⟩)
  | 0x4B => some (.fcmpEqW ⟨d, a, b⟩)
  | 0x4C => if a = 0 then some (.cvtF32I32W ⟨d, b⟩) else none
  | 0x4D => if a = 0 then some (.cvtI32F32W ⟨d, b⟩) else none
  | 0x50 => if a = 0 then some (.frcpW ⟨d, b⟩) else none
  | 0x51 => if a = 0 then some (.frsqW ⟨d, b⟩) else none
  | 0x52 => if a = 0 then some (.fsqrtW ⟨d, b⟩) else none
  | 0x53 => if a = 0 then some (.fexp2W ⟨d, b⟩) else none
  | 0x54 => if a = 0 then some (.flog2W ⟨d, b⟩) else none
  | 0x60 => some (.ld4W ⟨d, a, b⟩)
  | 0x61 => some (.ld8W ⟨d, a, b⟩)
  | 0x62 => some (.ld1W ⟨d, a, b⟩)
  | 0x63 => some (.ld1SxW ⟨d, a, b⟩)
  | 0x64 => some (.ld2W ⟨d, a, b⟩)
  | 0x65 => some (.ld2SxW ⟨d, a, b⟩)
  | 0x7F => if a = 0 && d = 0 && b = .reg 0 then some .nopW else none
  | _ => none

def decodeW (w : BitVec 32) : Except Reject Instr :=
  let opw := (w.extractLsb' 2 8).toNat
  if !opwAssigned opw then .error .unassignedOpcode else
  match SrcW.ofCode (w.extractLsb' 24 8) with
  | none => .error .reservedSource
  | some b => match decodeOpw opw (w.extractLsb' 10 7) (w.extractLsb' 17 7) b with
    | some i => .ok i
    | none => .error .unusedField

def Instr.wFields : Instr → Option (Nat × BitVec 7 × BitVec 7 × SrcW)
  | .movW f => some (0x00, f.d, 0, f.b)
  | .addW f => some (0x01, f.d, f.a, f.b)
  | .subW f => some (0x02, f.d, f.a, f.b)
  | .mulW f => some (0x03, f.d, f.a, f.b)
  | .mulhW f => some (0x04, f.d, f.a, f.b)
  | .mulhUW f => some (0x05, f.d, f.a, f.b)
  | .minW f => some (0x06, f.d, f.a, f.b)
  | .maxW f => some (0x07, f.d, f.a, f.b)
  | .minUW f => some (0x08, f.d, f.a, f.b)
  | .maxUW f => some (0x09, f.d, f.a, f.b)
  | .andW f => some (0x0A, f.d, f.a, f.b)
  | .orW f => some (0x0B, f.d, f.a, f.b)
  | .xorW f => some (0x0C, f.d, f.a, f.b)
  | .andnW f => some (0x0D, f.d, f.a, f.b)
  | .shlW f => some (0x0E, f.d, f.a, f.b)
  | .shrW f => some (0x0F, f.d, f.a, f.b)
  | .sarW f => some (0x10, f.d, f.a, f.b)
  | .rotW f => some (0x11, f.d, f.a, f.b)
  | .popcW f => some (0x12, f.d, 0, f.b)
  | .clzW f => some (0x13, f.d, 0, f.b)
  | .ctzW f => some (0x14, f.d, 0, f.b)
  | .brevW f => some (0x15, f.d, 0, f.b)
  | .cmpEqW f => some (0x16, f.d, f.a, f.b)
  | .cmpNeW f => some (0x17, f.d, f.a, f.b)
  | .cmpLtW f => some (0x18, f.d, f.a, f.b)
  | .cmpGeW f => some (0x19, f.d, f.a, f.b)
  | .cmpLtUW f => some (0x1A, f.d, f.a, f.b)
  | .cmpGeUW f => some (0x1B, f.d, f.a, f.b)
  | .leaW f => some (0x1C, f.d, f.a, f.b)
  | .add64W f => some (0x1D, f.d, f.a, f.b)
  | .negW f => some (0x1E, f.d, 0, f.b)
  | .absW f => some (0x1F, f.d, 0, f.b)
  | .faddW f => some (0x40, f.d, f.a, f.b)
  | .fsubW f => some (0x41, f.d, f.a, f.b)
  | .fmulW f => some (0x42, f.d, f.a, f.b)
  | .fminW f => some (0x43, f.d, f.a, f.b)
  | .fmaxW f => some (0x44, f.d, f.a, f.b)
  | .faddBf16x2W f => some (0x45, f.d, f.a, f.b)
  | .fmulBf16x2W f => some (0x46, f.d, f.a, f.b)
  | .faddF16x2W f => some (0x47, f.d, f.a, f.b)
  | .fmulF16x2W f => some (0x48, f.d, f.a, f.b)
  | .fcmpLtW f => some (0x49, f.d, f.a, f.b)
  | .fcmpLeW f => some (0x4A, f.d, f.a, f.b)
  | .fcmpEqW f => some (0x4B, f.d, f.a, f.b)
  | .cvtF32I32W f => some (0x4C, f.d, 0, f.b)
  | .cvtI32F32W f => some (0x4D, f.d, 0, f.b)
  | .frcpW f => some (0x50, f.d, 0, f.b)
  | .frsqW f => some (0x51, f.d, 0, f.b)
  | .fsqrtW f => some (0x52, f.d, 0, f.b)
  | .fexp2W f => some (0x53, f.d, 0, f.b)
  | .flog2W f => some (0x54, f.d, 0, f.b)
  | .ld4W f => some (0x60, f.d, f.a, f.b)
  | .ld8W f => some (0x61, f.d, f.a, f.b)
  | .ld1W f => some (0x62, f.d, f.a, f.b)
  | .ld1SxW f => some (0x63, f.d, f.a, f.b)
  | .ld2W f => some (0x64, f.d, f.a, f.b)
  | .ld2SxW f => some (0x65, f.d, f.a, f.b)
  | .nopW => some (0x7F, 0, 0, .reg 0)
  | _ => none

def wWord (opw : Nat) (d a : BitVec 7) (b : SrcW) : BitVec 32 :=
  b.code ++ a ++ d ++ BitVec.ofNat 8 opw ++ (0b01 : BitVec 2)

/-! ## Parcels and bytes (R51, Table 3-1) -/

/-- How many parcels the instruction that starts with this parcel has. -/
def parcelCount (p : Parcel) : Nat :=
  if p.getLsbD 0 = false then 1 else if p.getLsbD 1 = false then 2 else if p.getLsbD 2 = false then 4 else 6

/-- The first two bytes, little-endian, and the rest. -/
def takeParcel : List Byte → Option (Parcel × List Byte)
  | lo :: hi :: rest => some (hi ++ lo, rest)
  | _ => none

/-- The first `n` parcels as one number, first parcel lowest, and the rest. -/
def takeParcels : Nat → List Byte → Option (Nat × List Byte)
  | 0, bs => some (0, bs)
  | n + 1, bs => do
    let (p, rest) ← takeParcel bs
    let (hi, rest') ← takeParcels n rest
    some (p.toNat + 2 ^ 16 * hi, rest')

/-- Decode one instruction from the front of a byte list, and the bytes after it. -/
def decode (bs : List Byte) : Except Reject (Instr × List Byte) :=
  match takeParcel bs with
  | none => .error .truncated
  | some (p, _) =>
    match takeParcels (parcelCount p) bs with
    | none => .error .truncated
    | some (w, rest) =>
      match parcelCount p with
      | 1 => .ok (decodeC (BitVec.ofNat 16 w), rest)
      | 2 => (decodeW (BitVec.ofNat 32 w)).map (·, rest)
      | 4 => (decodeD (BitVec.ofNat 64 w) none).map (·, rest)
      | _ => (decodeD (BitVec.ofNat 64 w) (some (BitVec.ofNat 32 (w / 2 ^ 64)))).map (·, rest)

/-- The bits of an instruction as one number, and its length in parcels; none for an event. -/
def Instr.bits (i : Instr) : Option (Nat × Nat) :=
  match i.cFields with
  | some (op, f) => some ((cWord op f).toNat, 1)
  | none => match i.wFields with
    | some (opw, d, a, b) => some ((wWord opw d a b).toNat, 2)
    | none => match i.dFields with
      | some (opd, mod, f) => match f.lit with
        | none => some ((dWord opd mod f).toNat, 4)
        | some l => some ((dWord opd mod f).toNat + 2 ^ 64 * l.toNat, 6)
      | none => none

/-- `n` bytes of a number, least significant first (R2). -/
def bytesOf : Nat → Nat → List Byte
  | 0, _ => []
  | n + 1, w => BitVec.ofNat 8 w :: bytesOf n (w / 256)

/-- The bytes of an instruction (events have none). -/
def encode (i : Instr) : List Byte :=
  match i.bits with
  | some (w, n) => bytesOf (2 * n) w
  | none => []

/-- The length of an instruction in bytes; 0 for an event. -/
def Instr.len (i : Instr) : Nat :=
  match i.bits with
  | some (_, n) => 2 * n
  | none => 0

/-- The first 32 bits of an instruction, as TVAL holds them for UND and PRIV (R66). -/
def Instr.first32 (i : Instr) : Word :=
  match i.bits with
  | some (w, _) => BitVec.ofNat 32 w
  | none => 0

/-- The instruction this decoder reads from the bits `w` of a table row, low parcel first; bits above `nbits` are 0. -/
def decodeTableWord (nbits w : Nat) : Option Instr :=
  match decode (bytesOf 12 (w % 2 ^ nbits)) with
  | .ok (i, _) => some i
  | .error _ => none

end Sys2Proof
end

