-- ==== Sys2Proof/Config.lean ====
section
/-! DEFINITION. What one device fixes and the manual does not give: the free values. Every constant here has no
body, so no proof can see its value; each is named in a row of notes/assumptions. -/

namespace Sys2Proof.Config

/-- A fresh free bit: the n-th choice that the manual leaves open. DESIGN CHOICE (log 3): free. -/
opaque freeBit : Nat → Bool

/-- A fresh free 64-bit value (BOOTID of R408, an unstated result). DESIGN CHOICE (log 3): free. -/
opaque freePair : Nat → Pair

/-- Where the firmware puts the save areas of a queue's launches (R405). DESIGN CHOICE (log 22): free. -/
opaque saveBase : Nat → Pair

/-- Words 12–27 of the fuse block (R370); words 0–11 read zero and 28–31 are reserved. DESIGN CHOICE (log 4): free. -/
opaque fuseWord : Nat → Word

/-- The 48 octets of UDS, by octet (R370): no instruction returns them. DESIGN CHOICE (log 4): free. -/
opaque udsByte : Nat → Byte

/-- The entry of the supervisor firmware that the Spring stage loads (R400, R429). DESIGN CHOICE (log 5): free. -/
opaque supEntry : Nat → Pair

/-- A register of the host face that R362 gives a value or that sets up a function's queues: which one, of which function; areas 0, 1
and 2 of a queue are its descriptors, its available ring and its used ring. -/
inductive VirtioField where
  | vendor (fn : Nat) | device (fn : Nat) | features (fn : Nat) (high : Bool) | queueSize (fn queue : Nat)
  | vectors (fn : Nat) | mtu | netStatus
  | driverFeatures (fn : Nat) (high : Bool) | status (fn : Nat) | queueEnable (fn queue : Nat)
  | queueArea (fn queue : Nat) (area : Nat) (high : Bool)
  deriving DecidableEq, Repr, Inhabited

/-- The register that lies at an address of the host face, where R362 gives its value; the placing is the virtio
transport's. DESIGN CHOICE (log 6): free. -/
opaque virtioAt : BitVec 64 → Option VirtioField

/-- The vendor and device IDs that virtio 1.2 assigns, by function (R362 does not print them). DESIGN CHOICE (log 6): free. -/
opaque virtioId : Nat → Nat

/-- What a read of PCIe configuration space or host-face virtio state returns: devices outside the manual
(R345, R362, R369). DESIGN CHOICE (log 6): free. -/
opaque deviceRead : Nat → Nat → Pair

/-- Octets of the engine-memory side stores in a sealed image: "their layout is Axlux's own" (R409). DESIGN CHOICE (log 7): free. -/
opaque sideByte : Nat → Byte

/-- The row, as the error log numbers it, of a block's place in its HBM sub-channel (R257 gives the place, no chapter the
row). DESIGN CHOICE (log 9): free. -/
opaque hbmRow : Nat → Word

/-- The bank of its sub-channel in which a block's place lies (no chapter says). DESIGN CHOICE (log 9): free. -/
opaque hbmBank : Nat → Nat

/-- NBV.VER on a core with no workgroup (R40 gives it from a kernel header). DESIGN CHOICE (log 29): free. -/
opaque idleNbv : Nat → Bool

/-- Do two bus addresses belong to one device (R215)? DESIGN CHOICE (log 31): free. -/
opaque sameDevice : BitVec 64 → BitVec 64 → Bool

/-- The port whose expander holds a capacity-tier address, by the HDM decoders (R253). DESIGN CHOICE (log 72): free. -/
opaque cxlPort : Nat → Nat

/-- A byte of device memory that a unit reads under key slot 0 where it was written under other material, or where nothing
is installed (R253, R254). DESIGN CHOICE (log 50): free. -/
opaque foreignByte : Nat → Byte

/-- How many reads in a row a thread may find a granule's older contents (R197 gives no bound in reads). DESIGN CHOICE
(log 14): free. -/
opaque staleReads : Nat

/-- Which of the free words of the device-configuration block reads as STG (R423 gives no offset). DESIGN CHOICE (log 103): free. -/
opaque stgOffset : Nat

end Sys2Proof.Config
end

