-- ==== Sys2Proof/Machine/Maps.lean ====
section
/-! DEFINITION. Sparse tables as plain data: lists of (key, value) in one canonical form, keys strictly rising and no
value equal to the table's default, so that equal tables are equal lists. Byte memories are the case `Host.Cell`;
byte order (R2) is decided here, once. -/

namespace Sys2Proof.Machine

/-- The value at a key; `d` is what an unlisted key reads as. -/
def mget {α : Type} (d : α) : List (Nat × α) → Nat → α
  | [], _ => d
  | (k', v) :: m, k => if k' = k then v else mget d m k

/-- Drop a key. -/
def mdel {α : Type} : List (Nat × α) → Nat → List (Nat × α)
  | [], _ => []
  | (k', v) :: m, k => if k' = k then mdel m k else (k', v) :: mdel m k

/-- Insert at the key's place, replacing what is there. -/
def mins {α : Type} : List (Nat × α) → Nat → α → List (Nat × α)
  | [], k, v => [(k, v)]
  | (k', v') :: m, k, v =>
    if k < k' then (k, v) :: (k', v') :: m
    else if k' = k then (k, v) :: m
    else (k', v') :: mins m k v

/-- Write a key: the default removes the entry. -/
def mset {α : Type} [DecidableEq α] (d : α) (m : List (Nat × α)) (k : Nat) (v : α) : List (Nat × α) :=
  if v = d then mdel m k else mins m k v

/-- The canonical form: keys strictly rising from `lo`, no entry at the default. -/
def mwfFrom {α : Type} [DecidableEq α] (d : α) : Nat → List (Nat × α) → Bool
  | _, [] => true
  | lo, (k, v) :: m => decide (lo ≤ k) && decide (v ≠ d) && mwfFrom d (k + 1) m

def mwf {α : Type} [DecidableEq α] (d : α) (m : List (Nat × α)) : Bool := mwfFrom d 0 m

/-! ## Byte memories -/

/-- The byte at an address; an unlisted address reads 0 (DESIGN CHOICE, log 1). -/
def peek (m : List Host.Cell) (a : Nat) : Byte := mget 0 m a

/-- Store one byte. -/
def poke (m : List Host.Cell) (a : Nat) (b : Byte) : List Host.Cell := mset 0 m a b

/-- `n` bytes from an address. -/
def peeks (m : List Host.Cell) (a : Nat) : Nat → List Byte
  | 0 => []
  | n + 1 => peek m a :: peeks m (a + 1) n

/-- Store bytes at consecutive addresses. -/
def pokes (m : List Host.Cell) (a : Nat) : List Byte → List Host.Cell
  | [] => m
  | b :: bs => pokes (poke m a b) (a + 1) bs

/-- Store (address, byte) pairs in order. -/
def pokeAll (m : List Host.Cell) : List (Nat × Byte) → List Host.Cell
  | [] => m
  | (a, b) :: r => pokeAll (poke m a b) r

/-- A byte memory in canonical form. -/
def Memory.wf (m : List Host.Cell) : Bool := mwf (0 : Byte) m

/-- The number that little-endian bytes hold (R2). -/
def bytesNat : List Byte → Nat
  | [] => 0
  | b :: bs => b.toNat + 256 * bytesNat bs

/-- The `n` low bytes of a number, little-endian (R2). -/
def natBytes : Nat → Nat → List Byte
  | 0, _ => []
  | n + 1, v => BitVec.ofNat 8 v :: natBytes n (v / 256)

/-- A little-endian value of `n` bytes as a vector of width `w`. -/
def peekBv (m : List Host.Cell) (a n w : Nat) : BitVec w := BitVec.ofNat w (bytesNat (peeks m a n))

/-- Store the `n` low bytes of a vector, little-endian. -/
def pokeBv {w : Nat} (m : List Host.Cell) (a n : Nat) (v : BitVec w) : List Host.Cell := pokes m a (natBytes n v.toNat)

/-- Bytes with the address of each. -/
def addrBytes (a : Nat) : List Byte → List (Nat × Byte)
  | [] => []
  | b :: bs => (a, b) :: addrBytes (a + 1) bs

/-- Drop the keys of a half-open range. -/
def mclear {α : Type} (m : List (Nat × α)) (lo hi : Nat) : List (Nat × α) := m.filter (fun p => p.1 < lo || hi ≤ p.1)

/-- Remove duplicates of a list of numbers, keeping the first of each. -/
def dedup (l : List Nat) : List Nat := l.foldl (fun acc x => if acc.contains x then acc else acc ++ [x]) []

end Sys2Proof.Machine
end

