-- ==== Sys2Proof/Machine/Crypto.lean ====
section
/-! DEFINITION. The cryptographic functions that the manual names by standard: SHA-384 (FIPS 180-4), HMAC, ECDSA on P-384
with the deterministic k of FIPS 186-5 (20_trust R377, R378), and AES-256-GCM (SP 800-38D, 23_context_images R407).
Octet strings are lists of bytes, first octet first. -/

namespace Sys2Proof.Machine

/-! ## Octet strings -/

/-- OS2IP: the number that an octet string holds, most significant octet first. -/
def os2ip (bs : List Byte) : Nat := bs.foldl (fun acc b => acc * 256 + b.toNat) 0

/-- I2OSP: `n` octets of a number, most significant first. -/
def i2osp (n v : Nat) : List Byte := (natBytes n v).reverse

/-- An ASCII label without a terminator. -/
def ascii (s : String) : List Byte := s.toList.map (fun c => BitVec.ofNat 8 c.toNat)

/-- `n` zero octets. -/
def zeros (n : Nat) : List Byte := List.replicate n 0

/-- Split into blocks of `n` octets, at most `fuel` of them. -/
def blocksOf (n : Nat) : Nat → List Byte → List (List Byte)
  | 0, _ => []
  | fuel + 1, bs => if bs.isEmpty then [] else bs.take n :: blocksOf n fuel (bs.drop n)

/-! ## SHA-384 -/

def shaIv : List (BitVec 64) :=
  [0xcbbb9d5dc1059ed8, 0x629a292a367cd507, 0x9159015a3070dd17, 0x152fecd8f70e5939, 0x67332667ffc00b31, 0x8eb44a8768581511, 0xdb0c2e0d64f98fa7, 0x47b5481dbefa4fa4]

def shaK : List (BitVec 64) :=
  [0x428a2f98d728ae22, 0x7137449123ef65cd, 0xb5c0fbcfec4d3b2f, 0xe9b5dba58189dbbc]
  ++ [0x3956c25bf348b538, 0x59f111f1b605d019, 0x923f82a4af194f9b, 0xab1c5ed5da6d8118]
  ++ [0xd807aa98a3030242, 0x12835b0145706fbe, 0x243185be4ee4b28c, 0x550c7dc3d5ffb4e2]
  ++ [0x72be5d74f27b896f, 0x80deb1fe3b1696b1, 0x9bdc06a725c71235, 0xc19bf174cf692694]
  ++ [0xe49b69c19ef14ad2, 0xefbe4786384f25e3, 0x0fc19dc68b8cd5b5, 0x240ca1cc77ac9c65]
  ++ [0x2de92c6f592b0275, 0x4a7484aa6ea6e483, 0x5cb0a9dcbd41fbd4, 0x76f988da831153b5]
  ++ [0x983e5152ee66dfab, 0xa831c66d2db43210, 0xb00327c898fb213f, 0xbf597fc7beef0ee4]
  ++ [0xc6e00bf33da88fc2, 0xd5a79147930aa725, 0x06ca6351e003826f, 0x142929670a0e6e70]
  ++ [0x27b70a8546d22ffc, 0x2e1b21385c26c926, 0x4d2c6dfc5ac42aed, 0x53380d139d95b3df]
  ++ [0x650a73548baf63de, 0x766a0abb3c77b2a8, 0x81c2c92e47edaee6, 0x92722c851482353b]
  ++ [0xa2bfe8a14cf10364, 0xa81a664bbc423001, 0xc24b8b70d0f89791, 0xc76c51a30654be30]
  ++ [0xd192e819d6ef5218, 0xd69906245565a910, 0xf40e35855771202a, 0x106aa07032bbd1b8]
  ++ [0x19a4c116b8d2d0c8, 0x1e376c085141ab53, 0x2748774cdf8eeb99, 0x34b0bcb5e19b48a8]
  ++ [0x391c0cb3c5c95a63, 0x4ed8aa4ae3418acb, 0x5b9cca4f7763e373, 0x682e6ff3d6b2b8a3]
  ++ [0x748f82ee5defb2fc, 0x78a5636f43172f60, 0x84c87814a1f0ab72, 0x8cc702081a6439ec]
  ++ [0x90befffa23631e28, 0xa4506cebde82bde9, 0xbef9a3f7b2c67915, 0xc67178f2e372532b]
  ++ [0xca273eceea26619c, 0xd186b8c721c0c207, 0xeada7dd6cde0eb1e, 0xf57d4f7fee6ed178]
  ++ [0x06f067aa72176fba, 0x0a637dc5a2c898a6, 0x113f9804bef90dae, 0x1b710b35131c471b]
  ++ [0x28db77f523047d84, 0x32caab7b40c72493, 0x3c9ebe0a15c9bebc, 0x431d67c49c100d4c]
  ++ [0x4cc5d4becb3e42b6, 0x597f299cfc657e2a, 0x5fcb6fab3ad6faec, 0x6c44198c4a475817]

def shaCh (x y z : BitVec 64) : BitVec 64 := (x &&& y) ^^^ (~~~x &&& z)
def shaMaj (x y z : BitVec 64) : BitVec 64 := (x &&& y) ^^^ (x &&& z) ^^^ (y &&& z)
def shaBig0 (x : BitVec 64) : BitVec 64 := x.rotateRight 28 ^^^ x.rotateRight 34 ^^^ x.rotateRight 39
def shaBig1 (x : BitVec 64) : BitVec 64 := x.rotateRight 14 ^^^ x.rotateRight 18 ^^^ x.rotateRight 41
def shaSmall0 (x : BitVec 64) : BitVec 64 := x.rotateRight 1 ^^^ x.rotateRight 8 ^^^ (x >>> 7)
def shaSmall1 (x : BitVec 64) : BitVec 64 := x.rotateRight 19 ^^^ x.rotateRight 61 ^^^ (x >>> 6)

/-- The message schedule, newest word first. -/
def shaExtend : Nat → List (BitVec 64) → List (BitVec 64)
  | 0, w => w
  | n + 1, w =>
    let at_ (k : Nat) : BitVec 64 := w.getD (k - 1) 0
    shaExtend n ((shaSmall1 (at_ 2) + at_ 7 + shaSmall0 (at_ 15) + at_ 16) :: w)

/-- One round on the eight working variables. -/
def shaRound (v : List (BitVec 64)) (kw : BitVec 64) : List (BitVec 64) :=
  match v with
  | [a, b, c, d, e, f, g, h] =>
    let t1 := h + shaBig1 e + shaCh e f g + kw
    [t1 + (shaBig0 a + shaMaj a b c), a, b, c, d + t1, e, f, g]
  | _ => v

/-- Absorb one block of 128 octets. -/
def shaBlock (h : List (BitVec 64)) (block : List Byte) : List (BitVec 64) :=
  let w := (blocksOf 8 16 block).map (fun o => BitVec.ofNat 64 (os2ip o))
  let ws := (shaExtend 64 w.reverse).reverse
  let out := ((shaK.zip ws).map (fun p => p.1 + p.2)).foldl shaRound h
  (h.zip out).map (fun p => p.1 + p.2)

/-- Absorb every whole block of `bs`; the rest, with the state. -/
def shaAbsorb : Nat → List (BitVec 64) → List Byte → List (BitVec 64) × List Byte
  | 0, h, bs => (h, bs)
  | n + 1, h, bs => if bs.length < 128 then (h, bs) else shaAbsorb n (shaBlock h (bs.take 128)) (bs.drop 128)

/-- Pad and finish: `count` octets in all, the last of them in `part`. -/
def shaFinish (h : List (BitVec 64)) (count : Nat) (part : List Byte) : List Byte :=
  let n := part.length
  let fill := (239 - n) % 128
  let last := part ++ [0x80] ++ zeros fill ++ i2osp 16 (8 * count)
  ((shaAbsorb 2 h last).1.take 6).flatMap (fun w => i2osp 8 w.toNat)

/-- SHA-384. -/
def sha384 (bs : List Byte) : List Byte :=
  let r := shaAbsorb (bs.length / 128 + 1) shaIv bs
  shaFinish r.1 bs.length r.2

/-- HMAC-SHA-384. -/
def hmac384 (key msg : List Byte) : List Byte :=
  let k0 := if 128 < key.length then sha384 key else key
  let k := k0 ++ zeros (128 - k0.length)
  sha384 (k.map (· ^^^ 0x5C) ++ sha384 (k.map (· ^^^ 0x36) ++ msg))

/-! ## P-384 -/

def p384P : Nat := 2 ^ 384 - 2 ^ 128 - 2 ^ 96 + 2 ^ 32 - 1
def p384N : Nat := 0xFFFFFFFFFFFFFFFFFFFFFFFFFFFFFFFFFFFFFFFFFFFFFFFFC7634D81F4372DDF581A0DB248B0A77AECEC196ACCC52973
def p384B : Nat := 0xB3312FA7E23EE7E4988E056BE3F82D19181D9C6EFE8141120314088F5013875AC656398D8A2ED19D2A85C8EDD3EC2AEF
def p384Gx : Nat := 0xAA87CA22BE8B05378EB1C71EF320AD746E1D3B628BA79B9859F741E082542A385502F25DBF55296C3A545E3872760AB7
def p384Gy : Nat := 0x3617DE4A96262C6F5D9E98BF9292DC29F8F41DBD289A147CE9DA3113B5F0B8C00A60B1CE1D7E819D7A431D7C90EA0E5F

/-- Power modulo `m` by squaring; `fuel` bits of the exponent. -/
def powMod (m : Nat) : Nat → Nat → Nat → Nat
  | 0, _, _ => 1 % m
  | fuel + 1, b, e =>
    let r := powMod m fuel (b * b % m) (e / 2)
    if e % 2 = 1 then r * b % m else r

/-- Inverse modulo a prime. -/
def invMod (m a : Nat) : Nat := powMod m 384 (a % m) (m - 2)

/-- A point of the curve, or infinity. -/
abbrev Point := Option (Nat × Nat)

def subMod (a b : Nat) : Nat := (a + p384P - b % p384P) % p384P

def onCurve (x y : Nat) : Bool :=
  x < p384P && y < p384P && y * y % p384P = (x * x * x + p384B + 3 * (p384P - x)) % p384P

/-- The sum of two points. -/
def pointAdd (a b : Point) : Point :=
  match a, b with
  | none, b => b
  | a, none => a
  | some (x1, y1), some (x2, y2) =>
    if x1 = x2 && (y1 + y2) % p384P = 0 then none
    else
      let l := if x1 = x2 then (3 * x1 * x1 + p384P - 3) * invMod p384P (2 * y1) % p384P
        else subMod y2 y1 * invMod p384P (subMod x2 x1) % p384P
      let x := subMod (l * l) (x1 + x2)
      some (x, subMod (l * subMod x1 x) y1)

/-- k · P by doubling; `fuel` bits of k. -/
def pointMul : Nat → Nat → Point → Point
  | 0, _, _ => none
  | fuel + 1, k, p =>
    let r := pointMul fuel (k / 2) (pointAdd p p)
    if k % 2 = 1 then pointAdd r p else r

def p384G : Point := some (p384Gx, p384Gy)

/-- ECDSA verification of a 48-octet digest (FIPS 186-5). -/
def ecdsaVerify (e r s qx qy : Nat) : Bool :=
  if 1 ≤ r && r < p384N && 1 ≤ s && s < p384N && onCurve qx qy then
    let w := invMod p384N s
    match pointAdd (pointMul 384 (e * w % p384N) p384G) (pointMul 384 (r * w % p384N) (some (qx, qy))) with
    | none => false
    | some (x, _) => x % p384N == r
  else false

/-- The candidates of the deterministic k (RFC 6979 with HMAC-SHA-384, qlen = 384), tried in turn. -/
def ecdsaTry (d e : Nat) : Nat → List Byte → List Byte → Option (Nat × Nat)
  | 0, _, _ => none
  | fuel + 1, key, v =>
    let v := hmac384 key v
    let k := os2ip v
    let again (_ : Unit) : Option (Nat × Nat) :=
      let key' := hmac384 key (v ++ [0])
      ecdsaTry d e fuel key' (hmac384 key' v)
    if 1 ≤ k && k < p384N then
      match pointMul 384 k p384G with
      | none => again ()
      | some (x, _) =>
        let r := x % p384N
        let s := invMod p384N k * (e + r * d) % p384N
        if r = 0 || s = 0 then again () else some (r, s)
    else again ()

/-- Deterministic ECDSA of a digest under the scalar `d`: r ‖ s. A candidate is refused with negligible chance; eight are
tried. -/
def ecdsaSign (d : Nat) (digest : List Byte) : List Byte :=
  let x := i2osp 48 d
  let h1 := i2osp 48 (os2ip digest % p384N)
  let v0 := List.replicate 48 (1 : Byte)
  let k1 := hmac384 (zeros 48) (v0 ++ [0] ++ x ++ h1)
  let v1 := hmac384 k1 v0
  let k2 := hmac384 k1 (v1 ++ [1] ++ x ++ h1)
  let v2 := hmac384 k2 v1
  match ecdsaTry d (os2ip digest) 8 k2 v2 with
  | some (r, s) => i2osp 48 r ++ i2osp 48 s
  | none => zeros 96

/-! ## What the fuses give (R370, R371) -/

/-- UDS. -/
def uds : List Byte := (List.range 48).map Config.udsByte

/-- The material of key slot 0: 64 octets derived from UDS (R330, R371). -/
def slot0Material : List Byte := (hmac384 uds (ascii "FV-MEMK1") ++ hmac384 uds (ascii "FV-MEMK2")).take 64

/-! ## AES-256 and GCM -/

/-- Sixty-four octets of the S-box, first octet lowest. -/
def sboxRow : Nat → Nat
  | 0 => 0x75b227ebe28012079a059618c323c7041531d871f1e5a534ccf73f362693fdb7c072a49cafa2d4adf04759fa7dc982ca76abd7fe2b670130c56f6bf27b777c63
  | 1 => 0xd2f3ff1021dab6bcf5389d928f40a351a89f3c507f02f94585334d43fbaaefd0cf584c4a39becb6a5bb1fc20ed00d153842fe329b3d63b52a05a6e1b1a2c8309
  | 2 => 0x08ae7a65eaf4566ca94ed58d6d37c8e779e4959162acd3c25c2406490a3a32e0db0b5ede14b8ee4688902a22dc4f816073195d643d7ea7c41744975fec130ccd
  | _ => 0x16bb54b00f2d99416842e6bf0d89a18cdf2855cee9871e9b948ed9691198f8e19e1dc186b95735610ef6034866b53e708a8bbd4b1f74dde8c6b4a61c2e2578ba

def sbox (b : Byte) : Byte := BitVec.ofNat 8 (sboxRow (b.toNat / 64) / 256 ^ (b.toNat % 64))

def xtime (b : Byte) : Byte := (b <<< 1) ^^^ (if b.getLsbD 7 then 0x1B else 0)

def xorBytes (a b : List Byte) : List Byte := (a.zip b).map (fun p => p.1 ^^^ p.2)

/-- The key schedule of AES-256: words of four octets, newest first. -/
def aesExpand : Nat → Nat → Byte → List (List Byte) → List (List Byte)
  | 0, _, _, w => w
  | n + 1, i, rcon, w =>
    let prev := w.getD 0 []
    let old := w.getD 7 []
    let t := if i % 8 = 0 then
        match (prev.drop 1 ++ prev.take 1).map sbox with
        | a :: r => (a ^^^ rcon) :: r
        | [] => []
      else if i % 8 = 4 then prev.map sbox else prev
    aesExpand n (i + 1) (if i % 8 = 0 then xtime rcon else rcon) (xorBytes old t :: w)

/-- The fifteen round keys of a 32-octet key. -/
def aesKeys (key : List Byte) : List (List Byte) :=
  let w := (aesExpand 52 8 1 (blocksOf 4 8 key).reverse).reverse
  (List.range 15).map (fun r => ((w.drop (4 * r)).take 4).flatten)

def aesShift (b : List Byte) : List Byte := (List.range 16).map (fun i => b.getD ((i + 4 * (i % 4)) % 16) 0)

def aesMixColumn (c : List Byte) : List Byte :=
  (List.range 4).map (fun i =>
    let at_ (k : Nat) : Byte := c.getD ((i + k) % 4) 0
    xtime (at_ 0) ^^^ xtime (at_ 1) ^^^ at_ 1 ^^^ at_ 2 ^^^ at_ 3)

/-- AES-256 of one block. -/
def aesBlock (keys : List (List Byte)) (b : List Byte) : List Byte :=
  let key (r : Nat) : List Byte := keys.getD r []
  let mid := (List.range 13).foldl (fun b r =>
    xorBytes ((blocksOf 4 4 (aesShift (b.map sbox))).flatMap aesMixColumn) (key (r + 1))) (xorBytes b (key 0))
  xorBytes (aesShift (mid.map sbox)) (key 14)

/-- Multiplication in GF(2^128) as GCM orders its bits: bit 127 of the number is the first bit. -/
def gcmMul (x y : Nat) : Nat :=
  ((List.range 128).foldl (fun (zv : Nat × Nat) i =>
    let z := if x.testBit (127 - i) then zv.1 ^^^ zv.2 else zv.1
    let v := if zv.2 % 2 = 1 then (zv.2 / 2) ^^^ (0xE1 * 2 ^ 120) else zv.2 / 2
    (z, v)) (0, y)).1

def ghash (h : Nat) (bs : List Byte) : Nat :=
  (blocksOf 16 (bs.length / 16 + 1) bs).foldl (fun y b => gcmMul (y ^^^ os2ip (b ++ zeros (16 - b.length))) h) 0

def padTo16 (bs : List Byte) : List Byte := bs ++ zeros ((16 - bs.length % 16) % 16)

/-- The key stream applied to `bs`, from counter 2. -/
def gcmStream (keys : List (List Byte)) (iv bs : List Byte) : List Byte :=
  ((blocksOf 16 (bs.length / 16 + 1) bs).zipIdx.map (fun p =>
    xorBytes p.1 (aesBlock keys (iv ++ i2osp 4 (p.2 + 2))))).flatten

/-- The 16-octet tag of a ciphertext. -/
def gcmTag (keys : List (List Byte)) (iv aad ct : List Byte) : List Byte :=
  let h := os2ip (aesBlock keys (zeros 16))
  let s := ghash h (padTo16 aad ++ padTo16 ct ++ i2osp 8 (8 * aad.length) ++ i2osp 8 (8 * ct.length))
  xorBytes (i2osp 16 s) (aesBlock keys (iv ++ i2osp 4 1))

/-- GCM-Encrypt: ciphertext and tag. -/
def gcmEncrypt (key iv aad pt : List Byte) : List Byte × List Byte :=
  let keys := aesKeys key
  let ct := gcmStream keys iv pt
  (ct, gcmTag keys iv aad ct)

/-- GCM-Decrypt: the plaintext, where the tag holds. -/
def gcmDecrypt (key iv aad ct tag : List Byte) : Option (List Byte) :=
  let keys := aesKeys key
  if gcmTag keys iv aad ct = tag then some (gcmStream keys iv ct) else none

end Sys2Proof.Machine
end

