-- ==== Sys2Proof/Machine/State.lean ====
section
/-! DEFINITION. The state of one Axlux module, all of it plain data, and the state right after device reset.
Sparse tables are lists of (key, value) pairs in one canonical form (Machine/Maps.lean): keys strictly rising, no
value equal to the table's default. -/

namespace Sys2Proof.Machine

/-! ## Causes, faults, refusals -/

/-- Cause codes of Table 2-8 that a thread, an agent or the log can receive. -/
inductive Cause where
  | und | priv | regRange | regPair | latchEmpty | pcAlign | safeIndex | trapInsn | svcCall | srRo
  | addrAlign | addrRange | pageNotPresent | pageProt | fetchFault | migrateFail | rangeLock | spBounds
  | keyInvalid | tableFormat
  | hdrCheck | hdrUnsupported | hdrMismatch | handleFree | handleBusy | tileSpace | tileLevel
  | poisonUse
  | barCount | barScope | waitNoProducer | engineFailed | xlaneExited | xlaneMask
  | imgStale | imgTag | kernelHdr | packetMalformed | slotFetch | supFault
  | dbellUnmapped | irqVector | ctxBarred | deadContext | keySlot
  | sramUe | hbmUe | linkDown | cmdReplayFail | coreRetired | selftestFail
  deriving DecidableEq, Repr

/-- Why the machine stops: no rule stops the module as a whole, so there is no fault. A trap, a stopped core and a halted management
core are states (R46–R48), and a module in which nothing can move stays as it is. -/
inductive Fault where
  deriving DecidableEq, Repr

/-- Why a step is refused. -/
inductive Refusal where
  /-- Raised by a dispatcher arm whose instruction has no meaning in this model. Safe: no state is claimed. -/
  | notModelled (mnemonic : String)
  deriving DecidableEq, Repr

/-! ## Threads (02_threads_and_state) -/

/-- One bypass latch (R34); an empty latch is `none` in the window. -/
structure Latch where
  val : Pair
  wide : Bool
  poison : Bool
  deriving DecidableEq, Repr

/-- Where a result goes (R135): register `d`, unless N. -/
structure Dest where
  d : BitVec 8
  n : Bool
  deriving DecidableEq, Repr

/-- What a formed global access does (R224, R244). -/
inductive AccKind where
  | load (sx : Bool) (sc : Bool)
  | store
  | atom (opc : Opc) (u : Bool)
  | cas (expected : BitVec 128)
  | red (opc : Opc) (u : Bool)
  | redSc
  | waitv
  deriving DecidableEq, Repr

/-- A formed global access: everything it needs once its sources have been read (R224). -/
structure Access where
  kind : AccKind
  addr : BitVec 64
  size : Nat
  data : BitVec 128
  dpoison : Bool
  acq : Bool
  rel : Bool
  scope : Scope
  dst : Dest
  deriving DecidableEq, Repr

/-- A formed scratchpad load (R231). -/
structure SpAccess where
  h : Nat
  row : Nat
  col : Nat
  size : Nat
  column : Bool
  sx : Bool
  clr : Bool
  acq : Bool
  dst : Dest
  deriving DecidableEq, Repr

/-- An instruction parked on a page that is not resident, with its sources already read (R224). -/
inductive Pending where
  | access (a : Access)
  | talloc (addr : BitVec 64) (h : Word) (hp : Bool) (m : AllocMod) (dst : Dest)
  | cpy (a b : Pair) (c : Word) (col : Bool) (dst : Dest)
  | gth (a b : Pair) (c : Word) (dst : Dest)
  deriving DecidableEq, Repr

/-- Why a thread is parked, and all that its wake needs (Table 13-2). -/
inductive Wait where
  | barrier (b lvl : Nat) (target : BitVec 16)
  | ldtWf (a : SpAccess)
  | page (ctx : BitVec 16) (va : BitVec 64) (p : Pending)
  | waitv (a : Access)
  | mwait (token : BitVec 16)
  | mwaitAll
  | ewait (token : BitVec 16) (dst : Dest)
  | xlane
  | svcMb (code : BitVec 16) (arg : Word) (dst : Dest)
  | tdisp (dst : Dest)
  | tdispDone (start stop : Pair) (dst : Dest)
  | yield
  | supIdle
  /-- A lane of a supervisor group that parks with the group, its own part of the instruction done (R24). -/
  | group
  deriving DecidableEq, Repr

/-- Ready, Parked, Trapped or Exited (Table 2-7). Stopped is the separate mark `Thread.stopped`, since a stopped
thread keeps the state from which it was stopped (R340). -/
inductive Run where
  | ready
  | parked (w : Wait)
  | trapped
  | exited
  deriving DecidableEq, Repr

/-- Where a thread stands with respect to its save routine (R313, R315; items 0x411–0x415). -/
inductive SavePhase where
  | none | inside | finished
  deriving DecidableEq, Repr

structure SaveInfo where
  phase : SavePhase := .none
  entry : Nat := 0
  resume : BitVec 64 := 0
  area : BitVec 64 := 0
  /-- Restored inside its routine: its EXIT there starts it at RESTORE, whatever is pending now (R315). -/
  again : Bool := false
  deriving DecidableEq, Repr

/-- The memory that a queued store goes to. -/
inductive Space where
  | global      -- physical device memory
  | scratch     -- the core's scratchpad, raw offset bank × 16,384 + byte
  | supScratch  -- the core's supervisor scratch (R329)
  | sram        -- management SRAM (R368)
  deriving DecidableEq, Repr

/-- One store-queue or core-order entry (R198): `bytes` gives (address in `space`, value, mask of the bits written);
`key` is the key slot of a global store; `fill` the scratchpad granules that it makes Full (R232); `rel` is the scope of a release, `ord` its place among the stores of its
thread. A release waits for its thread's stores before `relOrd` and for the other entries that had joined the core order
before `relSeq` (R201, R202); `seq` is the entry's own place in that order, and `view` the floor that its thread had
(R199). An engine's entry has a `tid` from 2,000 up (2,000 + the issuing thread's key) and its token in `ord`. -/
structure StoreEnt where
  tid : Nat
  space : Space
  bytes : List (Nat × Byte × Byte)
  key : Nat
  poison : Bool
  fill : List Nat
  rel : Option Scope
  ord : Nat
  relOrd : Nat := 0
  relSeq : Nat := 0
  seq : Nat := 0
  view : Nat := 0
  deriving DecidableEq, Repr

/-! ## What an observer knows of global memory (R193–R206, log 14)

Home instants are numbered (`State.instant`). A thread's floor is an instant: its loads return each granule's contents at
some instant from the floor on. -/

/-- An observer (Table 9-1): a core's threads and engines, the management core, another unit of the module, a peer
module, a PCIe endpoint or the host. -/
inductive Observer where
  | core (c : Nat)
  | mgmt
  | unit
  | peer
  | endpoint
  deriving DecidableEq, Repr

/-- A release that a write carries: who made it, at what scope, its home instant (R203), and the floor that its thread had (R199). -/
structure Release where
  who : Observer
  scope : Scope
  instant : Nat
  view : Nat
  deriving DecidableEq, Repr

/-- A write's place in its granule's coherence order: its home instant, who made it, the floor its thread had, and the
releases it carries, its own and those of the writes that it and atomics before it replaced (R203). -/
structure Stamp where
  instant : Nat := 0
  who : Observer := .unit
  view : Nat := 0
  rels : List Release := []
  deriving DecidableEq, Repr

/-- Contents of a granule that a later write has replaced, at the instant `stop`. -/
structure OldCopy where
  stamp : Stamp
  bytes : List Byte
  mark : Bool
  tag : Nat
  stop : Nat
  deriving DecidableEq, Repr

/-- A load that returned bytes of a granule from beneath stores of its core that had no home instant yet: the `n` bytes from `lo`, read
by `h` when its thread had issued `ord` stores and `seq` had joined the core order. Until those of them that touch the granule are home,
no write of another observer to a byte that came from beneath may come between (R195, R196, R199; log 107). -/
structure ReadHold where
  h : Hart
  g : Nat
  lo : Nat
  n : Nat
  ord : Nat
  seq : Nat
  deriving DecidableEq, Repr

/-- The coherence order of one granule: the write it holds now, and what it held before, newest first (R195). -/
structure GranuleLog where
  cur : Stamp := {}
  olds : List OldCopy := []
  deriving DecidableEq, Repr

/-- What one thread knows of global memory: its floor; for each granule the instant of the write its last read returned
(R195) and how many reads in a row returned an old one (R197); the floors that an acquire fence of each scope would give it
(R202); its release fences; the engine operations whose completion it has seen in part (R211). -/
structure MemView where
  floor : Nat := 0
  readAt : List (Nat × Nat) := []
  stale : List (Nat × Nat) := []
  acqDie : Nat := 0
  acqDev : Nat := 0
  acqClu : Nat := 0
  acqSys : Nat := 0
  fencedRel : Option Scope := none
  fenceOrd : Nat := 0
  fenceSeq : Nat := 0
  /-- How many stores had joined the core order at the last release fence of scope sys (R215). -/
  sysSeq : Nat := 0
  seenOps : List (Bool × BitVec 16) := []
  deriving DecidableEq, Repr

/-- One thread: a user thread, a lane of the supervisor group, or the management core. -/
structure Thread where
  regs : List (Nat × Word) := []
  poison : List (Nat × Bool) := []
  latches : List (Option Latch) := [none, none, none, none, none, none, none, none]
  pc : BitVec 64 := 0
  fmode : BitVec 3 := 0
  flags : BitVec 7 := 0
  qpct : BitVec 14 := 10000
  causeActive : Bool := false
  causeCode : BitVec 8 := 0
  epc : BitVec 64 := 0
  tval : BitVec 64 := 0
  run : Run := .ready
  stopped : Bool := false
  engFlags : BitVec 7 := 0
  fail : Bool := false
  failToken : BitVec 16 := 0
  failCode : BitVec 8 := 0
  storeQ : List StoreEnt := []
  stores : Nat := 0
  mv : MemView := {}
  arrive : List (Nat × Option (BitVec 16)) := []
  seen : List (Nat × BitVec 16) := []
  barLvl : List (Nat × Option Nat) := []
  save : SaveInfo := {}
  age : Nat := 0
  npc : BitVec 64 := 0
  rearm : List (Nat × Word) := []
  /-- A WRTH has written a word of its wait since it stopped: `rearm` holds them all (R406). -/
  rearmed : Bool := false
  /-- Restored at a cross-lane instruction: it issues in lane order with the others of its row (R168). -/
  rearrive : Bool := false
  deriving DecidableEq, Repr

/-! ## Cores -/

/-- Granule states of R119. -/
inductive GState where
  | empty | full | failed
  deriving DecidableEq, Repr

/-- A tile-table entry (R111). `bad` is a stored header damaged beyond its code (Table 22-1). -/
structure Tile where
  hdr : BitVec 512
  lv : Level
  xshape : Bool
  xsparse : Bool
  xscale : Bool
  xfmt : Bool
  span : Nat
  base : Nat
  bad : Bool := false
  deriving DecidableEq, Repr

/-- One barrier of a launch's scope (R299). -/
structure Barrier where
  phase : BitVec 16 := 0
  count : Option Nat := none
  arrivals : Nat := 0
  /-- The highest floor among the arrivals of this phase, and among those of the completed phases (R214). -/
  view : Nat := 0
  doneView : Nat := 0
  deriving DecidableEq, Repr

/-- What pre-emption a workgroup is under (R287); a forced save keeps whether the workgroup had armed (R404). -/
inductive Preempt where
  | none | deferring | armed
  | forced (wasArmed : Bool)
  deriving DecidableEq, Repr

/-- A safe-point entry (Table 2-2). -/
structure SafePoint where
  save : Nat
  restore : Nat
  live : Nat
  deriving DecidableEq, Repr

/-- The workgroup resident on a core (R22, R27, R280, R299). -/
structure Workgroup where
  ctx : BitVec 16
  slot : Nat
  cx : Nat
  cy : Nat
  rw : Nat
  rh : Nat
  nth : Nat
  regs : Nat
  hdr : BitVec 64
  args : BitVec 64
  safe : List SafePoint
  nbv : Bool
  tiles : List (Nat × Tile) := []
  taskTok : BitVec 16 := 1
  copyTok : BitVec 16 := 1
  bars : List (Nat × Barrier) := []
  preempt : Preempt := .none
  restoring : Bool := false
  killed : Bool := false
  /-- The threads whose mailbox requests the save found unread, oldest first (R312, R413). -/
  mboxOrder : List Nat := []
  /-- The agent has come to its EXIT since it took the pre-emption request: its part of the save is done. -/
  served : Bool := false
  /-- The home instant at which the workgroup started: a parcel of its code may be fetched as it was at any time since (R52). -/
  since : Nat := 0
  deriving DecidableEq, Repr

/-- What the record of a save says of one workgroup beside its images: the threads whose mailbox requests were not read, in order
(R312), and the redirection of each thread whose save routine had finished (R314). -/
structure KeptWg where
  mbox : List Nat := []
  saves : List (Nat × SaveInfo) := []
  deriving DecidableEq, Repr

/-- Kinds of matrix task (Table 8-1). -/
inductive TaskKind where
  | mma | tmov | quant
  deriving DecidableEq, Repr

/-- A live matrix task record (Table 8-1): `running` holds the engine; `done` the level-0 granules already written. -/
structure Task where
  idx : Nat
  kind : TaskKind
  running : Option Nat
  token : BitVec 16
  tid : Nat
  ha : Nat
  hb : Nat
  hc : Nat
  rm : BitVec 2
  ftz : Bool
  nbv : Bool
  opt : Bool
  os : Bool
  od : Bool
  qpct : BitVec 14
  done : List Nat := []
  /-- The destination rows that an uncorrectable error has touched (R180). -/
  struck : List Nat := []
  /-- The floor of the issuing thread (R210). -/
  view : Nat := 0
  deriving DecidableEq, Repr

/-- What a copy-engine or gather-engine operation does (R238–R242, R409). -/
inductive EngKind where
  | bytes (dst src : BitVec 64) (len : Nat)
  | tileIn (h : Nat) (src : BitVec 64) (hdr : BitVec 512)
  | tileOut (dst : BitVec 64) (h : Nat) (hdr : BitVec 512)
  | gatherMem (list base : BitVec 64) (grain count : Nat) (dst : BitVec 64)
  | gatherTile (list base : BitVec 64) (grain count h : Nat)
  | sealImg (image side : BitVec 64) (src : Nat) (qid : BitVec 16) (part : BitVec 8) (dlen : Nat)
  | openImg (side image : BitVec 64) (src : Nat) (qid : BitVec 16) (part : BitVec 8) (dlen : Nat)
  deriving DecidableEq, Repr

/-- A live copy or gather operation (R235). -/
structure EngOp where
  token : BitVec 16
  tid : Nat
  kind : EngKind
  ctx : BitVec 16
  ksel : BitVec 12
  done : List Nat := []
  /-- The floor of the issuing thread (R210). -/
  view : Nat := 0
  /-- The seal number that a CPY.seal took at issue (R411). -/
  sealN : BitVec 32 := 0
  deriving DecidableEq, Repr

/-- A range in the range-lock table (R208): granules of named memory, or scratchpad banks. -/
inductive Range where
  | mem (lo hi : Nat)
  | banks (lo hi : Nat)
  deriving DecidableEq, Repr

structure RangeLock where
  matrix : Bool
  token : BitVec 16
  dest : Bool
  range : Range
  deriving DecidableEq, Repr

/-- Cross-lane operations (Table 7-7). -/
inductive XOp where
  | shfl (m : ShflMode)
  | bcst
  | vote (m : VoteMode)
  | lred (opc : Opc) (u : Bool)
  | lscan (opc : Opc) (u : Bool) (excl : Bool)
  | match_
  | elect
  deriving DecidableEq, Repr

/-- What a member brought to its cross-lane group (R169): its a, and its b where the operation has one. -/
structure XMember where
  lane : Nat
  op : XOp
  x : Pair
  xp : Bool
  y : Option Word
  yp : Bool
  fmode : BitVec 3
  dst : Dest
  deriving DecidableEq, Repr

/-- An open cross-lane group of a row (R165); row 0 is the supervisor group's. -/
structure XGroup where
  row : Nat
  mask : BitVec 64
  members : List XMember
  deriving DecidableEq, Repr

/-- A mailbox request (R312). -/
structure MboxReq where
  tid : Nat
  code : BitVec 16
  arg : Word
  deriving DecidableEq, Repr

/-- Work posted to a supervisor agent (R276, R278, R287, R290). -/
inductive AgentEvent where
  | preempt (slot : Nat)
  /-- The slot event of a resumed launch. -/
  | restore (slot : Nat) (seq : Word) (ended : Bool)
  | slotEvent (slot : Nat) (seq : Word) (ended : Bool)
  | queueError (slot : Nat)
  deriving DecidableEq, Repr

/-- Is a core running, stopped (R47, R391) or retired (R399)? -/
inductive CoreStatus where
  | running | stopped | retired
  deriving DecidableEq, Repr

/-- A per-row poison record of operand slots and accumulators is keyed 64 × unit + row; accumulators are units 128–143. -/
structure Core where
  threads : List (Nat × Thread) := []
  supPc : BitVec 64 := 0
  /-- The lanes of the supervisor group that have done the instruction at `supPc` while another lane stalls (R235, log 35). -/
  lanesDone : List Nat := []
  started : Bool := false
  status : CoreStatus := .running
  wg : Option Workgroup := none
  coreOrder : List StoreEnt := []
  /-- How many stores have joined the core order. -/
  seq : Nat := 0
  /-- The floor that the core's full fences have reached (R206). -/
  fenceView : Nat := 0
  /-- The floors that the writers of scratchpad and supervisor-scratch granules had (R199). -/
  spView : List (Nat × Nat) := []
  supView : List (Nat × Nat) := []
  /-- The floors that ended copy and gather operations had, by token (R210). -/
  engView : List (Nat × Nat) := []
  /-- The granules that the loads of this clk touch, with the instruction's PC, until their requests go out (R226). -/
  loads : List (Bool × BitVec 64 × Nat) := []
  /-- The bytes, each with its store's mark, that entered the core order in this clk, until their requests go out (R226). -/
  stored : List (Nat × Byte × Bool) := []
  locks : List RangeLock := []
  tasks : List Task := []
  ops : List EngOp := []
  /-- Trapped threads in the order they trapped, and how many of them trapped before the clk that now runs (R42). -/
  trq : List Nat := []
  trqOld : Nat := 0
  ctxid : BitVec 16 := 0
  ksel : BitVec 12 := 0
  mtqx : BitVec 6 := 0
  mbox : List MboxReq := []
  mboxRead : List Nat := []
  carve : Nat := 0
  sp : List Host.Cell := []
  spPoison : List (Nat × Bool) := []
  spState : List (Nat × GState) := []
  om : List Host.Cell := []
  omSide : List Host.Cell := []
  acc : List Host.Cell := []
  rowPoison : List (Nat × Bool) := []
  /-- The side-store granules in which an uncorrectable error was met, 528 a slot as an image lays them out (R409, R412). -/
  sideBad : List (Nat × Bool) := []
  supScratch : List Host.Cell := []
  supScratchPoison : List (Nat × Bool) := []
  /-- What granules of supervisor scratch held before stores to them, with the marks: a fetch may still return it (R52). -/
  supOld : List (Nat × List Byte × Bool) := []
  /-- The home instant at which the core started: its agent's code may be fetched as it was at any time since (R52). -/
  since : Nat := 0
  /-- The slot and the kernel header of the head that the core's agent has claimed, until its workgroup starts or it takes another
  item (R277). -/
  hdrOf : Option (Nat × Nat) := none
  groups : List XGroup := []
  events : List AgentEvent := []
  /-- The harts whose claims of the tile dispenser have no answer yet, in issue order (R282). -/
  claims : List Nat := []
  buckets : List (Nat × Nat) := []
  supFirst : Bool := false
  deriving DecidableEq, Repr

/-! ## The management core and its memory (20_trust) -/

/-- A hash context (R377): SHA-384 chaining value, byte count, partial block, poison. -/
structure HashCtx where
  h : List (BitVec 64)
  count : BitVec 64
  part : List Byte
  poison : Bool
  deriving DecidableEq, Repr

/-- Stages of R421. -/
inductive Stage where
  | winter | spring | summer
  deriving DecidableEq, Repr

structure Mgmt where
  thread : Thread := {}
  mtvec : BitVec 64 := 0x40
  halted : Bool := false
  order : List StoreEnt := []
  orderSeq : Nat := 0
  rom : List Host.Cell := []
  flash : List Host.Cell := []
  sram : List Host.Cell := []
  sramPoison : List (Nat × Bool) := []
  /-- What granules of SRAM held before stores of the management core that no FENCE.acqrel follows yet, with the marks (R383). -/
  sramOld : List (Nat × List Byte × Bool) := []
  /-- The pieces that a security instruction still under way has read so far, each with its mark (R376). -/
  loaded : List (List Byte × Bool) := []
  hc : List (Nat × HashCtx) := []
  ksx : BitVec 12 := 0
  ksd : List Byte := []
  glim : BitVec 8 := 16
  ctxx : BitVec 16 := 0
  fusx : BitVec 5 := 0
  elc : BitVec 32 := 0
  elx : BitVec 10 := 0
  ctxkId : BitVec 16 := 0
  ctxkGo : Bool := false
  corc : BitVec 8 := 0
  stage : Stage := .winter
  plim : BitVec 12 := 2800
  temp : BitVec 8 := 0
  trip : Bool := false
  /-- A trip's return to Winter lasts until TEMP is below 90 °C (R427). -/
  cooling : Bool := false
  duty0 : Nat := 16
  duty1 : Nat := 16
  hot : Bool := false
  /-- The positions found retired at the last device reset, which the next Spring stage tests again (R399). -/
  retiredPos : List Nat := []
  deriving DecidableEq, Repr

/-! ## The key store (17, 20, 23) -/

/-- Kinds of key slot (Table 17-2). -/
inductive KeyKind where
  | empty | xts | gcm
  deriving DecidableEq, Repr

/-- A key slot other than slot 0. Slot 0's material is derived from UDS (R371) and never listed. -/
structure KeySlot where
  kind : KeyKind
  owner : BitVec 16
  data : List Byte
  deriving DecidableEq, Repr

structure KeyStore where
  slots : List (Nat × KeySlot) := []
  /-- MEAS1–MEAS7 as written; an unlisted slot is 48 zero octets. MEAS0 is computed from the ROM (R372). -/
  meas : List (Nat × List Byte) := []
  bootId : BitVec 64 := 0
  sealN : List (Nat × BitVec 32) := []
  saveCtr : List (Nat × BitVec 64) := []
  /-- How often each slot has been loaded: with the slot number it names the material a granule was written under. -/
  loads : List (Nat × Nat) := []
  deriving DecidableEq, Repr

/-! ## The scheduler (12) -/

/-- The tile dispenser of a launch (R282). -/
structure Dispenser where
  x : Nat
  y : Nat
  z : Nat
  chunk : Nat
  next : Nat
  deriving DecidableEq, Repr

/-- One of barriers 16–23, by number, level and block origin (R299). -/
structure BlockBar where
  b : Nat
  lvl : Nat
  ox : Nat
  oy : Nat
  bar : Barrier
  deriving DecidableEq, Repr

/-- A granted head: a launch's rectangle, or the origin agent alone (R276). -/
structure Grant where
  launch : Bool
  x0 : Nat
  y0 : Nat
  wlog : Nat
  hlog : Nat
  seq : Word
  qid : BitVec 16
  ctx : BitVec 16
  n : Nat
  held : List Nat
  ended : List Nat := []
  disp : Dispenser
  bars : List BlockBar := []
  verdictDone : Bool := false
  preemptReq : Bool := false
  delivered : List Nat := []
  exitedAt : List (Nat × List Nat) := []
  resumed : Bool := false
  killed : Bool := false
  heldIrqs : List (Nat × List Nat) := []
  kept : List (Nat × KeptWg) := []
  /-- The cores whose agents have claimed the head, in claim order, and how the verdict stands: refused, or a migration of the
  kernel header's pages failed (R276–R278). -/
  claimants : List Nat := []
  refused : Bool := false
  headerLost : Bool := false
  /-- The images that the save under way has sealed so far: context, address and length of each (R415). -/
  images : List (Nat × Nat × Nat) := []
  deriving DecidableEq, Repr

/-- A launch kept after its save (R288), by queue. `exits` follows the writes of EXITS in the area of `slot`, where it ran. -/
structure SavedLaunch where
  slot : Nat
  seq : Word
  wlog : Nat
  hlog : Nat
  exits : Word
  disp : Dispenser
  bars : List BlockBar
  ended : List Nat
  exitedAt : List (Nat × List Nat)
  heldIrqs : List (Nat × List Nat)
  kept : List (Nat × KeptWg) := []
  deriving DecidableEq, Repr

/-- A packet in a slot's fetch window (R267): sequence number, bits, and whether a granule was poisoned. -/
structure Fetched where
  seq : Word
  bits : BitVec 512
  poison : Bool
  deriving DecidableEq, Repr

/-- A write of VCODE and VGUILT that the scheduler has observed, and the item that it answers: the claimed head, or the queue-error
event of a context (R278). -/
structure Verdict where
  code : Byte
  guilt : Bool
  event : Option (BitVec 16)
  deriving DecidableEq, Repr

/-- What the scheduler keeps for one hardware queue slot; `verdicts` are the writes of VCODE and VGUILT that it has
observed and not yet carried out (R271, R278), `areaOf` the queue whose head stands in the slot's area. -/
structure Slot where
  bindRec : BitVec 128 := 0
  window : List Fetched := []
  fetchFault : Bool := false
  since : Nat := 0
  grant : Option Grant := none
  /-- Queue-error events held back, and posted and not yet answered, oldest first, each with its context (R278). -/
  qerrHeld : List (BitVec 16) := []
  qerrPosted : List (BitVec 16) := []
  refusal : Option (Nat × BitVec 64 × BitVec 64) := none
  verdicts : List Verdict := []
  areaOf : Option (BitVec 16) := none
  noticed : Bool := false
  expired : Bool := false
  deriving DecidableEq, Repr

structure Sched where
  slots : List (Nat × Slot) := []
  queueTable : List (Nat × BitVec 64) := []
  pending : List (Nat × Bool) := []
  saved : List (Nat × Option SavedLaunch) := []
  /-- Queue errors of queues no valid record names, by queue (R278). -/
  qerrUnbound : List (Nat × Nat) := []
  tick : Nat := 0
  deriving DecidableEq, Repr

/-! ## Translation and tiers (11) -/

/-- Who holds a translation (R255): a die's last-level TLB, a core's own caches, or the IOMMU's. -/
inductive TlbOwner where
  | die (d : Nat)
  | core (c : Nat)
  | iommu
  deriving DecidableEq, Repr

/-- A translation held: a leaf, or a table entry of level `ptr`, for the range that it maps. -/
structure TlbEnt where
  owner : TlbOwner
  ctx : BitVec 16
  va : Nat
  size : Nat
  pte : BitVec 64
  ptr : Option Nat := none
  deriving DecidableEq, Repr

/-- Who waits for a migration besides the threads parked on its page: a page request of an endpoint (R258), a fetch
(R52), a slot's packet fetch (R267) or refusal word (R278), an engine operation (R236). -/
inductive MigWaiter where
  | pri (rid : BitVec 16) (va : BitVec 64)
  | fetch (h : Hart)
  | slot (k : Nat)
  | refusal (k : Nat)
  /-- The agent of a core that reads a claimed kernel header (R277). -/
  | header (core : Nat)
  | engine (core : Nat) (token : BitVec 16)
  deriving DecidableEq, Repr

/-- A migration in progress (R256): direction, the page's leaf, what waits for it, the frame once taken,
and its entry as the last CAS left it. -/
structure Migration where
  ctx : BitVec 16
  va : BitVec 64
  pteAddr : Nat
  promote : Bool
  frame : Option (BitVec 64) := none
  waiters : List MigWaiter := []
  entry : BitVec 64 := 0
  demoteAfter : Bool := false
  promoteAfter : Bool := false
  /-- The link or window to the source has been lost since the promotion began (R256, R357). -/
  lost : Bool := false
  deriving DecidableEq, Repr

/-- For whom a drain runs: a TLBI of a hart, the invalidation request register, or the demotion of a page. -/
inductive DrainFor where
  | hart (h : Hart)
  | register
  | demote (pteAddr : Nat)
  deriving DecidableEq, Repr

/-- An invalidation whose drain has not ended: the endpoints still owing an ATS completion (R217, R338). -/
structure Drain where
  who : DrainFor
  kind : TlbiKind
  addr : BitVec 64
  ctx : BitVec 16
  owing : List (BitVec 16)
  deriving DecidableEq, Repr

/-! ## The root complex (18) -/

/-- A doorbell the proxy holds (R350), with the target it had at acceptance, and how many stores its thread had issued
by then: it waits for those, and for the stores of others that had joined the core order before `seq`, at the thread's last
release fence of scope sys (R215). -/
structure HeldBell where
  h : Hart
  entry : Nat
  kind : Nat
  target : BitVec 64
  size : Nat
  val : Pair
  after : Nat
  seq : Nat := 0
  deriving DecidableEq, Repr

/-- A Zhevy message in the engine, and where its status goes: a ring entry of a context, MSCTL, or the link it came by
(`remote`). `code` is a status that waits to be written. -/
structure Message where
  bits : BitVec 512
  fromMgmt : Bool
  ctx : BitVec 16
  entryVa : BitVec 64
  held : Bool := false
  remote : Bool := false
  code : Option (BitVec 8) := none
  deriving DecidableEq, Repr

/-- A split virtqueue of the host face (R362): its size, whether the host has enabled it, where its three areas lie in host memory, and how
many entries of its available ring have been taken and of its used ring filled. -/
structure VirtQueue where
  size : Nat := 256
  enabled : Bool := false
  areas : List (Nat × BitVec 64) := []
  taken : BitVec 16 := 0
  filled : BitVec 16 := 0
  deriving DecidableEq, Repr

/-- The options of a link (Table 18-1). -/
structure PortOptions where
  flit : Bool := false
  maxPayload : Nat := 0
  tagBits : Nat := 0
  ats : Bool := false
  pri : Bool := false
  pasidBits : Nat := 0
  acs : Bool := false
  msixReceived : Bool := false
  msixSent : Bool := false
  msi : Bool := false
  intx : Bool := false
  ioSpace : Bool := false
  doe : Bool := false
  aer : Bool := false
  errorsLogged : Bool := false
  hotPlug : Bool := false
  deriving DecidableEq, Repr

/-- The state of the link of a port or sub-port (R16, R344, R357): its rate in tenths of GT/s, and the modules that it has
reached since reset (R359). -/
structure Link where
  up : Bool
  rate : Nat
  cxl : Bool
  module : BitVec 8
  reached : List (BitVec 8)
  options : PortOptions := {}
  deriving DecidableEq, Repr

/-- A translation that a function holds through ATS (R217, R258). -/
structure AtsEnt where
  rid : BitVec 16
  ent : TlbEnt
  deriving DecidableEq, Repr

/-- A request sent through an outbound window, not yet answered (R263). -/
structure PeerReq where
  h : Hart
  a : Access
  pa : Nat
  /-- The bytes that the core's own stores supplied when the request went out (R199). -/
  own : List (Option Byte)
  /-- A piece of what a security instruction reads (R376). -/
  span : Bool := false
  deriving DecidableEq, Repr

structure Io where
  ctxs : List (Nat × BitVec 256) := []
  doorbells : List (Nat × BitVec 256) := []
  dbPending : List (Nat × Option (BitVec 256)) := []
  proxy : List HeldBell := []
  fns : List (Nat × BitVec 64) := []
  irqs : List (Nat × BitVec 64) := []
  ntb : List (Nat × BitVec 256) := []
  pmode : BitVec 32 := 0
  /-- The Winter stage that fixes the port modes has ended: they hold until the next device reset (R15). -/
  modesFixed : Bool := false
  modId : BitVec 8 := 0
  ftop : BitVec 64 := 0
  ctop : BitVec 64 := 0x100000000000
  ptop : BitVec 64 := 0x800000000000
  slotb : BitVec 64 := 0
  ffr : BitVec 64 := 0
  ffc : BitVec 64 := 0
  cfr : BitVec 64 := 0
  cfc : BitVec 64 := 0
  msend : BitVec 512 := 0
  /-- Which of the eight words of MSEND hold poisoned data (R389). -/
  msendPoison : List (Nat × Bool) := []
  msStatus : BitVec 8 := 0
  msBusy : Bool := false
  mrbase : BitVec 24 := 0
  invAddr : BitVec 64 := 0
  invCtx : BitVec 64 := 0
  invKind : BitVec 64 := 0
  invDone : Bool := false
  ecam : List Host.Cell := []
  virtio : List Host.Cell := []
  /-- What the host has written to the virtio structures and the MSI-X table, beside the registers below (R362, R363). -/
  hostRegs : List (Nat × Option Byte) := []
  /-- The split virtqueues, by 2 × function + queue, and by function what the host has accepted of the features and its device status
  (R362). -/
  virtqs : List (Nat × VirtQueue) := []
  hostFeatures : List (Nat × BitVec 64) := []
  hostStatus : List (Nat × Byte) := []
  /-- The management core has handed the console over (R362, Table 25-1). -/
  consoleHanded : Bool := false
  links : List (Nat × Option Link) := []
  messages : List Message := []
  ringIdx : List (Nat × Word) := []
  ringW : List (Nat × Word) := []
  tlb : List TlbEnt := []
  ats : List AtsEnt := []
  migs : List Migration := []
  drains : List Drain := []
  peers : List PeerReq := []
  retraining : List (Nat × Bool) := []
  deriving DecidableEq, Repr

/-! ## Errors (22) and the SPDM responder (20, 21) -/

/-- A classification in the error logic's history (R397). -/
structure Classified where
  seq : Nat
  kind : BitVec 4
  core : BitVec 8
  index : BitVec 20
  ext : Word
  transient : Bool
  deriving DecidableEq, Repr

/-- A targeted self-test in progress, with the events that take its result (R396). -/
structure Test where
  kind : BitVec 4
  core : BitVec 8
  index : BitVec 20
  ext : Word
  events : List Nat
  deriving DecidableEq, Repr

/-- A command in a sub-channel's history (R259, R392): its tag and address, the beats of its burst, a write's data, how often it has
been issued, whether an ALERT named it, and the bank-state model just before it. -/
structure HbmCommand where
  tag : BitVec 6
  pa : Nat
  beats : Nat
  data : Option (List Byte)
  issued : Nat := 1
  replayed : Bool := false
  before : List (Nat × Option Word) := []
  deriving DecidableEq, Repr

/-- A write in a sub-channel's write queue: its request, and the bytes that it writes (R260). -/
structure QueuedWrite where
  pa : Nat
  size : Nat
  mask : List Nat
  deriving DecidableEq, Repr

/-- A sub-channel's command history and state (R392, R393): tags in order, the next tag, replays of the first tag. -/
structure SubChannel where
  history : List HbmCommand := []
  nextTag : BitVec 6 := 0
  replays : Nat := 0
  replayTag : BitVec 6 := 0
  failed : Bool := false
  /-- The controller's model of the banks: the row open in each (R392). -/
  banks : List (Nat × Option Word) := []
  /-- The controller's write queue, oldest first (R260). -/
  writes : List QueuedWrite := []
  deriving DecidableEq, Repr

/-- The error log and what the error logic keeps (R394–R398): records, their count, past classifications, running tests, spare
rows and lanes taken, how often the link of a port was narrowed, sub-channels, scrubs. -/
structure Errors where
  log : List (Nat × BitVec 256) := []
  elp : BitVec 32 := 0
  history : List Classified := []
  tests : List Test := []
  spares : List (Nat × Nat) := []
  narrowed : List (Nat × Nat) := []
  subs : List (Nat × SubChannel) := []
  scrubs : Nat := 0
  deriving DecidableEq, Repr

/-- States of an SPDM connection (Table 20-6). -/
inductive SpdmState where
  | start | v | c | n
  deriving DecidableEq, Repr

/-- One connection's records (R380, R384); `sent` is the RSEQ whose reply its transport has sent (R382). -/
structure Spdm where
  st : SpdmState := .start
  seen : Word := 0
  m1 : List Byte := []
  l1 : List Byte := []
  vca : Nat := 0
  cnt : BitVec 64 := 0
  sent : Word := 0
  /-- Requests that arrived while another was served, oldest first (R380). -/
  waiting : List (List Byte) := []
  deriving DecidableEq, Repr

/-! ## What leaves the device -/

/-- What units send out of the device, post to a processor, or send one another where the spec gives the form, oldest
first. -/
inductive Out where
  | busWrite (target : BitVec 64) (size : Nat) (v : Pair)
  | readData (rid : BitVec 16) (data : List Byte) (poison : Bool)
  | unsupported (rid : BitVec 16)
  | atsReply (rid : BitVec 16) (pa : BitVec 64) (rd w : Bool)
  | prgReply (rid : BitVec 16) (success : Bool)
  | queueNotice (qid : BitVec 16)
  | slotNotice (slot : Nat)
  | barNotice (ctx : BitVec 16)
  | lowFrames (fast : Bool)
  | retiredFrames (loc : BitVec 20) (ext : Word)
  | spdmReply (conn : Conn) (data : List Byte)
  | message (m : BitVec 512)
  | hostData (data : List Byte)
  | hostUnsupported
  /-- A read of host memory at a virtqueue of the host face, and a write there (R363). -/
  | hostRead (addr : BitVec 64) (size : Nat)
  | hostWrite (addr : BitVec 64) (data : List Byte)
  /-- An AER report of the host face: an error of its link (R344). -/
  | aer (link : Nat) (corrected : Bool)
  /-- The carrier of a function's queue is told of the host's notification (R362). -/
  | virtioNotified (carrier : IoActor) (fn queue : Nat)
  /-- An MSI-X message of a host-face function: a vector for each queue, and one for configuration changes (R362). -/
  | hostMsix (fn vector : Nat)
  | sysData (data : List Byte)
  /-- A PCIe memory write or read of a peer port, at its bus address (R263, R356). -/
  | peerWrite (port : Nat) (bus : BitVec 64) (data : List Byte) (poison : Bool)
  | peerRead (port : Nat) (bus : BitVec 64) (size : Nat)
  /-- A core's request to a home slice (R226). -/
  | request (core die slice : Nat) (pa : BitVec 64) (size : Nat) (write : Bool)
  /-- CXL.mem requests of a 64-byte line (R262). -/
  | cxlRead (line : BitVec 64)
  | cxlWrite (line : BitVec 64) (data : List Byte) (poison : Bool)
  | cxlWritePartial (line : BitVec 64) (enables : BitVec 64) (data : List Byte) (poison : Bool)
  deriving DecidableEq, Repr

/-- A core's request to the fast tier (R226): its core, its address, its size, and for a write the bytes it writes. -/
structure Burst where
  core : Nat
  pa : Nat
  size : Nat
  write : Bool
  mask : List Nat := []
  deriving DecidableEq, Repr

/-! ## The module -/

structure State where
  /-- The events still to take place, in order: which unit moves next is plain data. -/
  agenda : List Instr := []
  /-- The agents the selector chose for this clk, in issue order (R285). -/
  issueQ : List Agent := []
  /-- The agent whose instruction `exec` runs. -/
  cur : Agent := .mgmt
  /-- The last instruction stalled (R284) or looped back: units move, then another agent, before its agent goes on. The
  model's own field (log 2). -/
  stalled : Bool := false
  /-- The free-value counter: the model's own field, not the spec's (log 3). -/
  free : Nat := 0
  cores : List (Nat × Core) := []
  mgmt : Mgmt := {}
  /-- Device memory, by physical address. -/
  mem : List Host.Cell := []
  /-- Poison marks of device memory, by granule (physical address div 16). -/
  memPoison : List (Nat × Bool) := []
  /-- The key material each granule of device memory was last written under (R254, R331). -/
  memKey : List (Nat × Nat) := []
  /-- The last home instant, and the coherence order of each granule written since reset (R194, R195). -/
  instant : Nat := 0
  hist : List (Nat × GranuleLog) := []
  /-- The loads whose bytes came in part from beneath stores not yet home, newest first (R195, R196). -/
  holds : List ReadHold := []
  /-- The latest full fence of each scope and die: 4 × SCOPE + die, die 2 off the compute dies (R206). -/
  fences : List (Nat × Nat) := []
  keys : KeyStore := {}
  sched : Sched := {}
  io : Io := {}
  errors : Errors := {}
  spdmDoe : Spdm := {}
  spdmI3c : Spdm := {}
  /-- The responder's scan has served the DOE connection and comes to I3C (R384). -/
  scanI3c : Bool := false
  /-- The fast-tier granules that L2 holds (R259). -/
  l2 : List (Nat × Bool) := []
  /-- The fast-tier requests of cores that L2 has not yet answered or turned into a burst (R226, R259), oldest first. -/
  bursts : List Burst := []
  out : List Out := []
  deriving DecidableEq, Repr

/-- The module right after device reset: Winter, the management core about to fetch at ROM 0x100 (R371, R372, R421).
BOOTID is drawn by `DEVICE_RESET`; at the power-on reset it is the 0-th free value (R408). -/
def State.reset : State :=
  { free := 1
    mgmt := { thread := { pc := 0x100 } }
    keys := { bootId := Config.freePair 0 } }

end Sys2Proof.Machine
end

