-- ==== Sys2Proof/Machine/Access.lean ====
section
/-! DEFINITION. Where each piece of state lives, and the fields of the records that the spec lays out in bits. -/

namespace Sys2Proof

/-! ## Harts and agents -/

/-- Supervisor lanes are kept beside the 960 user threads of a core. -/
def supKey (lane : Nat) : Nat := 960 + lane

/-- The threads-table key of a hart on its core. -/
def Hart.key : Hart → Nat
  | .user _ t => t
  | .sup _ l => supKey l
  | .mgmt => 0

/-- The core of a hart; the management core has none. -/
def Hart.core? : Hart → Option Nat
  | .user c _ => some c
  | .sup c _ => some c
  | .mgmt => none

/-- The hart of a threads-table key. -/
def hartOf (c key : Nat) : Hart := if key < 960 then .user c key else .sup c (key - 960)

/-- Privilege levels (R43). -/
def Hart.level : Hart → Nat
  | .user .. => 0
  | .sup .. => 1
  | .mgmt => 2

/-- The level of an agent (R43). -/
def Agent.level : Agent → Nat
  | .user .. => 0
  | .sup _ => 1
  | .mgmt => 2

end Sys2Proof

namespace Sys2Proof.Machine

/-! ## Fields of records laid out in bits (R2, R4) -/

/-- Field of `w` bits at bit `lo`. -/
def bget {n : Nat} (r : BitVec n) (lo w : Nat) : Nat := (r.extractLsb' lo w).toNat

/-- The same record with `v` in the field of `w` bits at bit `lo`. -/
def bput {n : Nat} (r : BitVec n) (lo w v : Nat) : BitVec n :=
  let mask : BitVec n := BitVec.ofNat n (2 ^ w - 1) <<< lo
  (r &&& ~~~mask) ||| (BitVec.ofNat n (v % 2 ^ w) <<< lo)

/-- The record with every field of (lo, width, value) written. -/
def bputs {n : Nat} (r : BitVec n) : List (Nat × Nat × Nat) → BitVec n
  | [] => r
  | (lo, w, v) :: rest => bputs (bput r lo w v) rest

/-! ## Cause codes (Table 2-8) -/

def Cause.code : Cause → BitVec 8
  | .und => 0x00 | .priv => 0x01 | .regRange => 0x02 | .regPair => 0x03 | .latchEmpty => 0x04 | .pcAlign => 0x05
  | .safeIndex => 0x06 | .trapInsn => 0x07 | .svcCall => 0x08 | .srRo => 0x09
  | .addrAlign => 0x20 | .addrRange => 0x21 | .pageNotPresent => 0x22 | .pageProt => 0x23 | .fetchFault => 0x24
  | .migrateFail => 0x25 | .rangeLock => 0x26 | .spBounds => 0x27 | .keyInvalid => 0x28 | .tableFormat => 0x29
  | .hdrCheck => 0x40 | .hdrUnsupported => 0x41 | .hdrMismatch => 0x42 | .handleFree => 0x43 | .handleBusy => 0x44
  | .tileSpace => 0x45 | .tileLevel => 0x46
  | .poisonUse => 0x60
  | .barCount => 0x80 | .barScope => 0x81 | .waitNoProducer => 0x82 | .engineFailed => 0x83 | .xlaneExited => 0x84
  | .xlaneMask => 0x85
  | .imgStale => 0xA0 | .imgTag => 0xA1 | .kernelHdr => 0xA2 | .packetMalformed => 0xA3 | .slotFetch => 0xA4
  | .supFault => 0xA5
  | .dbellUnmapped => 0xC0 | .irqVector => 0xC1 | .ctxBarred => 0xC2 | .deadContext => 0xC3 | .keySlot => 0xC4
  | .sramUe => 0xE0 | .hbmUe => 0xE1 | .linkDown => 0xE2 | .cmdReplayFail => 0xE3 | .coreRetired => 0xE4
  | .selftestFail => 0xE5

/-! ## Cores and threads -/

def Core.thread (k : Core) (t : Nat) : Thread := mget {} k.threads t
def Core.setThread (k : Core) (t : Nat) (th : Thread) : Core := { k with threads := mset {} k.threads t th }
def Core.modThread (k : Core) (t : Nat) (f : Thread → Thread) : Core := k.setThread t (f (k.thread t))

def State.core (s : State) (c : Nat) : Core := mget {} s.cores c
def State.setCore (s : State) (c : Nat) (k : Core) : State := { s with cores := mset {} s.cores c k }
def State.modCore (s : State) (c : Nat) (f : Core → Core) : State := s.setCore c (f (s.core c))

def State.thread (s : State) : Hart → Thread
  | .user c t => (s.core c).thread t
  | .sup c l => (s.core c).thread (supKey l)
  | .mgmt => s.mgmt.thread

def State.setThread (s : State) (h : Hart) (th : Thread) : State :=
  match h with
  | .user c t => s.modCore c (·.setThread t th)
  | .sup c l => s.modCore c (·.setThread (supKey l) th)
  | .mgmt => { s with mgmt := { s.mgmt with thread := th } }

def State.modThread (s : State) (h : Hart) (f : Thread → Thread) : State := s.setThread h (f (s.thread h))

def State.modMgmt (s : State) (f : Mgmt → Mgmt) : State := { s with mgmt := f s.mgmt }
def State.modIo (s : State) (f : Io → Io) : State := { s with io := f s.io }
def State.modSched (s : State) (f : Sched → Sched) : State := { s with sched := f s.sched }
def State.modErrors (s : State) (f : Errors → Errors) : State := { s with errors := f s.errors }
def State.modKeys (s : State) (f : KeyStore → KeyStore) : State := { s with keys := f s.keys }

/-- Something leaves the device or is posted to a processor. -/
def State.emit (s : State) (o : Out) : State := { s with out := s.out ++ [o] }

/-- How many registers a hart may name (R31; R24: the supervisor group owns 256). The management core's count is
not stated: 256, DEDUCED (log 8). -/
def State.regCount (s : State) : Hart → Nat
  | .user c _ => match (s.core c).wg with
    | some w => w.regs
    | none => 0
  | .sup .. => 256
  | .mgmt => 256

/-- Is the thread a member of the resident workgroup (R21)? -/
def Core.hasThread (k : Core) (t : Nat) : Bool :=
  match k.wg with
  | some w => decide (t < w.nth)
  | none => false

def allLanes : List Nat := List.range 64

/-! ## Free values -/

/-- The next free bit (log 3). -/
def State.freeBit (s : State) : Bool × State := (Config.freeBit s.free, { s with free := s.free + 1 })

/-- The next free 64-bit value (log 3). -/
def State.freePair (s : State) : Pair × State := (Config.freePair s.free, { s with free := s.free + 1 })

/-! ## Context records (Table 17-1) -/

/-- A context record at reset: MSGV 0xFFFF, all else zero. -/
def ctxReset : BitVec 256 := BitVec.ofNat 256 0xFFFF <<< 176

/-- The record of a context. Context 0 always reads STATE = live (R326). -/
def State.ctxRec (s : State) (x : Nat) : BitVec 256 :=
  let r := mget ctxReset s.io.ctxs x
  if x = 0 then bput r 102 3 1 else r
def State.setCtxRec (s : State) (x : Nat) (r : BitVec 256) : State :=
  s.modIo (fun io => { io with ctxs := mset ctxReset io.ctxs x r })

namespace CtxF
def inbox (r : BitVec 256) : Nat := bget r 192 64
def msgv (r : BitVec 256) : Nat := bget r 176 16
def pend (r : BitVec 256) : Nat := bget r 160 16
def ilog (r : BitVec 256) : Nat := bget r 156 4
def ckey (r : BitVec 256) : Nat := bget r 136 12
def pasid (r : BitVec 256) : Nat := bget r 116 20
def guilt (r : BitVec 256) : Nat := bget r 108 8
def barred (r : BitVec 256) : Bool := r.getLsbD 107
def run (r : BitVec 256) : Nat := bget r 105 2
def state (r : BitVec 256) : Nat := bget r 102 3
def root (r : BitVec 256) : Nat := bget r 14 34 * 2 ^ 14
end CtxF

/-! ## Zhevy messages (Table 18-10) -/

namespace Msg
def type (m : BitVec 512) : Nat := bget m 0 8
def srcMod (m : BitVec 512) : Nat := bget m 64 8
def dstMod (m : BitVec 512) : Nat := bget m 72 8
def dstCtx (m : BitVec 512) : Nat := bget m 80 16
def srcCtx (m : BitVec 512) : BitVec 16 := m.extractLsb' 96 16
def reserved (m : BitVec 512) : Bool := bget m 112 16 ≠ 0 || bget m 16 48 ≠ 0
def setStatus (m : BitVec 512) (c : BitVec 8) : BitVec 512 := bput m 8 8 c.toNat
end Msg

/-! ## Key slots (R330) -/

/-- Slot 0: loaded at device reset with material derived from UDS, shared, and never changed (R330, R371). -/
def slot0 : KeySlot := ⟨.xts, 0xFFFF, slot0Material⟩

def State.keySlot (s : State) (k : Nat) : KeySlot := if k = 0 then slot0 else mget ⟨.empty, 0, []⟩ s.keys.slots k

/-- May this context use the slot (R330)? Slot 0 is loaded and shared. -/
def State.keyUsable (s : State) (k x : Nat) : Bool :=
  if k = 0 then true
  else
    let e := s.keySlot k
    e.kind ≠ .empty && (e.owner.toNat == x || e.owner == 0xFFFF)

/-! ## Physical address map (Table 11-2) -/

/-- Is a physical address in an installed range (R253)? -/
def State.installed (s : State) (pa : Nat) : Bool :=
  (pa < 0xC000000000 && pa < s.io.ftop.toNat)
  || (0x100000000000 ≤ pa && pa < 0x200000000000 && pa < s.io.ctop.toNat)
  || (0x800000000000 ≤ pa && pa < 0x1000000000000 && pa < s.io.ptop.toNat)

/-- The range of a tier, as (span base, span end) of Table 11-2. -/
def tierSpan : Nat → Nat × Nat
  | 0 => (0, 0xC000000000)
  | 1 => (0x100000000000, 0x200000000000)
  | _ => (0x800000000000, 0x1000000000000)

/-- Is an address an installed one of a tier (R252, R253)? -/
def State.inTier (s : State) (tier pa : Nat) : Bool :=
  let (lo, hi) := tierSpan tier
  decide (lo ≤ pa) && decide (pa < hi) && s.installed pa

/-! ## Granules -/

/-- The granule of a byte address (R195). -/
def granule (a : Nat) : Nat := a / 16

/-- The granules of a byte range. -/
def granules (a n : Nat) : List Nat :=
  if n = 0 then [] else (List.range ((a + n - 1) / 16 - a / 16 + 1)).map (· + a / 16)

/-! ## Bind records and slots (Table 12-3) -/

def State.slot (s : State) (k : Nat) : Slot := mget {} s.sched.slots k
def State.setSlot (s : State) (k : Nat) (v : Slot) : State :=
  s.modSched (fun q => { q with slots := mset {} q.slots k v })
def State.modSlot (s : State) (k : Nat) (f : Slot → Slot) : State := s.setSlot k (f (s.slot k))

namespace BR
def v (r : BitVec 128) : Bool := r.getLsbD 63
def act (r : BitVec 128) : Nat := bget r 61 2
def prio (r : BitVec 128) : Nat := bget r 32 4
def qid (r : BitVec 128) : Nat := bget r 16 16
def bx (r : BitVec 128) : Nat := bget r 12 4
def by_ (r : BitVec 128) : Nat := bget r 8 4
def bwl (r : BitVec 128) : Nat := bget r 5 3
def bhl (r : BitVec 128) : Nat := bget r 2 3
def gang (r : BitVec 128) : Nat := bget r 116 12
def defer (r : BitVec 128) : Nat := bget r 100 16
def deadline (r : BitVec 128) : Nat := bget r 84 16
def slice (r : BitVec 128) : Nat := bget r 68 16
end BR

def allSlots : List Nat := List.range 64

/-- Does a slot's claimed head packet await its verdict? A head that is granted and not yet claimed counts: which of the two holds a
queue-error event back, the manual leaves open (DESIGN CHOICE, log 111). -/
def Slot.awaits (sl : Slot) : Bool :=
  match sl.grant with
  | some g => !g.verdictDone
  | none => false

/-- The slot whose valid record names a queue (R270: at most one). -/
def State.slotOfQueue? (s : State) (q : Nat) : Option Nat :=
  allSlots.find? (fun k => BR.v (s.slot k).bindRec && BR.qid (s.slot k).bindRec == q)

/-! ## Interrupt binding entries (Table 18-6) -/

def State.irq (s : State) (n : Nat) : BitVec 64 := mget 0 s.io.irqs n
def State.setIrq (s : State) (n : Nat) (e : BitVec 64) : State :=
  s.modIo (fun io => { io with irqs := mset 0 io.irqs n e })

namespace IrqF
def v (e : BitVec 64) : Bool := e.getLsbD 63
def src (e : BitVec 64) : Bool := e.getLsbD 62
def state (e : BitVec 64) : Nat := bget e 60 2
def ctx (e : BitVec 64) : Nat := bget e 44 16
def rid (e : BitVec 64) : Nat := bget e 28 16
def pend (e : BitVec 64) : Nat := bget e 12 16
def core (e : BitVec 64) : Nat := bget e 4 8
def bar (e : BitVec 64) : Nat := bget e 1 3
/-- Unbound, with no arrival kept. -/
def unbind (e : BitVec 64) : BitVec 64 := bputs e [(60, 2, 0), (12, 16, 0)]
end IrqF

end Sys2Proof.Machine
end

