-- ==== Sys2Proof/Machine/Flags.lean ====
section
/-! DEFINITION. The sticky FLAGS of a thread (Table 2-6, R94, R136): their bits, and raising them. -/

namespace Sys2Proof.Machine

/-- The seven sticky flags, bit n of FLAGS. -/
abbrev FlagSet := BitVec 7

def flNX : FlagSet := 0x01
def flUF : FlagSet := 0x02
def flOF : FlagSet := 0x04
def flDZ : FlagSet := 0x08
def flIV : FlagSet := 0x10
def flNL : FlagSet := 0x20
def flSAT : FlagSet := 0x40

/-- SAT when the flag's condition holds. -/
def satIf (b : Bool) : FlagSet := if b then flSAT else 0

/-- Raise flags: they are sticky. -/
def Thread.raise (th : Thread) (f : FlagSet) : Thread := { th with flags := th.flags ||| f }

def State.raise (s : State) (h : Hart) (f : FlagSet) : State := s.modThread h (·.raise f)

end Sys2Proof.Machine
end

