-- ==== Sys2Proof/Machine/Home.lean ====
section
/-! DEFINITION. Device memory at its home slices (09_ordering_model R193–R205, 10 R225, R226, 11 R253, R254, R257, R262,
R263): which slice is an address's home, what a granule holds, its coherence order, what a write at home does, the requests
that accesses become, and the accesses of units under key slot 0. -/

namespace Sys2Proof

/-- The observer that a hart is (R193). -/
def Hart.observer : Hart → Machine.Observer
  | .user c _ => .core c
  | .sup c _ => .core c
  | .mgmt => .mgmt

end Sys2Proof

namespace Sys2Proof.Machine

/-! ## Where an address lives (Table 11-2, R12, R14, R257) -/

/-- The sub-channel of a fast-tier address, 0–767, over all stacks (R257). -/
def subChannel (pa : Nat) : Nat := pa / 128 % 768

/-- The stack of a fast-tier address, and the sub-channel within it (R257). -/
def stackOf (pa : Nat) : Nat := subChannel pa % 12
def stackChannel (pa : Nat) : Nat := subChannel pa / 12

/-- The die whose controllers carry a stack: six stacks to a die (R12, R257). -/
def stackDie (stack : Nat) : Nat := stack / 6

def isFast (pa : Nat) : Bool := pa < 0xC000000000
def isPeer (pa : Nat) : Bool := 0x800000000000 ≤ pa

/-- The die and slice that are the home of an address (Table 11-2). -/
def homeSlice (pa : Nat) : Nat × Nat :=
  if isFast pa then (stackDie (stackOf pa), stackChannel pa % 32)
  else (pa / 128 % 2, pa / 256 % 32)

/-- The die of a core (R6, R8). -/
def dieOf (c : Nat) : Nat := c / 128

/-! ## Observers and scopes (R193) -/

/-- Does the scope, as seen from `x`, hold `y` (Table 9-1)? -/
def inScope (sc : Scope) (x y : Observer) : Bool :=
  match sc, x, y with
  | .core, .core a, .core b => a == b
  | .core, _, _ => false
  | .die, .core a, .core b => dieOf a == dieOf b
  | .die, _, _ => false
  | .dev, _, .peer => false
  | .dev, _, .endpoint => false
  | .dev, _, _ => true
  | .clu, _, .endpoint => false
  | .clu, _, _ => true
  | .sys, _, _ => true

/-- Does each scope hold the other's observer (R203)? -/
def bothIn (s1 : Scope) (x : Observer) (s2 : Scope) (y : Observer) : Bool := inScope s1 x y && inScope s2 y x

/-- The floor that an acquire by `y` at scope `sc` gains from reading a write: the home instants of the releases that
synchronise with it (R203), or the floor that the releasing thread had where that is of `y`'s own core (R199); and the write's own
instant where the scope holds its writer (R205), unless the write is itself a release wider than core whose scope leaves `y` out
(Table 9-5, row 4). -/
def Stamp.acquired (t : Stamp) (y : Observer) (sc : Scope) : Nat :=
  let synced := t.rels.filter (fun r => bothIn r.scope r.who sc y)
  let own := t.rels.filter (fun r => r.instant == t.instant && r.scope ≠ .core)
  let plain := inScope sc y t.who && (own.isEmpty || own.any (fun r => inScope r.scope r.who y))
  synced.foldl (fun n r => Nat.max n (if r.who = y then r.view else r.instant)) (if plain && t.who ≠ y then t.instant else 0)

/-- The floor that any load by `y` gains from reading a write: those of its own core's threads that made the write, or whose releases
it carries, plain stores among them (R199, R203). -/
def Stamp.coreView (t : Stamp) (y : Observer) : Nat :=
  (t.rels.filter (fun r => r.who == y)).foldl (fun n r => Nat.max n r.view) (if t.who = y then t.view else 0)

/-- What a write brings to its granule: who made it, its thread's floor, the scope of its release, whether it is the
write of an atomic read-modify-write (R203), and whether the scheduler makes it (R271). -/
structure Origin where
  who : Observer := .unit
  view : Nat := 0
  rel : Option Scope := none
  rmw : Bool := false
  sched : Bool := false
  deriving DecidableEq, Repr

/-- The coherence order of a granule. -/
def State.log (s : State) (g : Nat) : GranuleLog := mget {} s.hist g

/-- Is a write made by a core? -/
def Observer.isCore : Observer → Bool
  | .core _ => true
  | _ => false

/-- The scope at which a write releases: its own, or core for a plain store of a core (R199); a relaxed atomic is no release. -/
def Origin.release (o : Origin) : Option Scope :=
  if o.rel.isNone && o.who.isCore && !o.rmw then some .core else o.rel

/-- The stamp of a new write of a granule. -/
def Origin.stamp (o : Origin) (instant : Nat) (old : Stamp) : Stamp :=
  { instant, who := o.who, view := o.view
    rels := (if o.rmw then old.rels else []) ++ (match o.release with
      | some sc => [⟨o.who, sc, instant, o.view⟩]
      | none => []) }

/-! ## Port modes and the roles of links (R15, R16) -/

/-- The mode of port `p` in a PMODE value. -/
def portMode (v : BitVec 32) (p : Nat) : Nat := bget v (4 * p) 4

/-- What a mode of a port is. -/
inductive PortRole where
  | root | host | peer | none
  deriving DecidableEq, Repr

def portRole (m : Nat) : PortRole :=
  if m = 1 || m = 2 || m = 3 then .root else if m = 4 || m = 5 then .host else if m = 6 || m = 7 then .peer else .none

/-- How many links a port has: a bifurcated root port has one per sub-port (R16). -/
def subPorts (m : Nat) : Nat := if m = 2 then 2 else if m = 3 then 4 else if portRole m = .none then 0 else 1

/-- The port number of a link, and its letter: links 0–7 are the ports, or their sub-ports a; `8 · k + p` is a further sub-port of
port `p`. -/
def linkPort (link : Nat) : Nat := link % 8
def linkLetter (link : Nat) : Nat := link / 8

/-- The role in which a link operates now; `none` where its port's mode gives it none. -/
def State.linkRole (s : State) (link : Nat) : PortRole :=
  let m := portMode s.io.pmode (linkPort link)
  if linkLetter link < subPorts m then portRole m else .none

/-! ## Key material, links and windows -/

/-- The material that a key slot holds now, as a tag. -/
def State.keyTag (s : State) (k : Nat) : Nat := k + 4096 * mget 0 s.keys.loads k

/-- Has the sub-channel of the address failed (R393)? -/
def State.subFailed (s : State) (pa : Nat) : Bool :=
  isFast pa && (mget {} s.errors.subs (subChannel pa) : SubChannel).failed

/-- Is a port's link up (R344, R357)? -/
def State.linkUp (s : State) (port : Nat) : Bool :=
  match mget none s.io.links port with
  | some l => l.up
  | none => false

/-- The outbound window of a port in a peer mode that a peer address lies in, open and its link up: port × 32 + entry (R356,
R357). -/
def State.peerWindow? (s : State) (pa : Nat) : Option Nat :=
  (List.range 256).find? (fun i =>
    let e : BitVec 256 := mget 0 s.io.ntb i
    e.getLsbD 255 && !e.getLsbD 254 && s.linkRole (i / 32) == .peer && s.linkUp (i / 32) && bget e 64 60 ≤ pa && pa < bget e 64 60 + 2 ^ bget e 248 5 * 65536)

/-- The bus address that an outbound window gives a local one: RBASE + (PA − LBASE) (R356). -/
def State.peerBus (s : State) (window pa : Nat) : BitVec 64 :=
  let e : BitVec 256 := mget 0 s.io.ntb window
  BitVec.ofNat 64 (bget e 0 64 + (pa - bget e 64 60))

/-- Sixteen free bytes (log 3). -/
def State.freeBytes16 (s : State) : List Byte × State :=
  let (a, s) := s.freePair
  let (b, s) := s.freePair
  (natBytes 8 a.toNat ++ natBytes 8 b.toNat, s)

/-! ## Granules at home (R195, R225, R254) -/

/-- The sixteen bytes of a granule of device memory and its mark, read under a key slot. Bytes written under other
material, and bytes of a peer module, are free values (log 13); a failed sub-channel or a closed window gives poison
(R393, R357). -/
def State.homeGranule (s : State) (key g : Nat) : List Byte × Bool × State :=
  if isPeer (16 * g) then
    let (bs, s') := s.freeBytes16
    (bs, (s.peerWindow? (16 * g)).isNone, s')
  else if mget 0 s.memKey g = s.keyTag key then
    (peeks s.mem (16 * g) 16, mget false s.memPoison g || s.subFailed (16 * g), s)
  else
    let (bs, s') := s.freeBytes16
    (bs, mget false s.memPoison g || s.subFailed (16 * g), s')

/-- Replace the masked bits of a byte. -/
def maskPut (old v m : Byte) : Byte := (old &&& ~~~m) ||| (v &&& m)

/-- A byte after the writes of an entry. -/
def applyBytes (bs : List (Nat × Byte × Byte)) (a : Nat) (old : Byte) : Byte :=
  bs.foldl (fun b w => if w.1 = a then maskPut b w.2.1 w.2.2 else b) old

/-- Does an entry write all of a granule? -/
def coversGranule (bs : List (Nat × Byte × Byte)) (g : Nat) : Bool :=
  (List.range 16).all (fun i => bs.any (fun w => w.1 == 16 * g + i && w.2.2 == 0xFF))

def touchesGranule (bs : List (Nat × Byte × Byte)) (g : Nat) : Bool := bs.any (fun w => w.1 / 16 == g)

/-- The granules an entry touches. -/
def entGranules (bs : List (Nat × Byte × Byte)) : List Nat := dedup (bs.map (·.1 / 16))

/-- The mark of a granule after a write (R225). -/
def markAfter (mark poison full : Bool) : Bool := if poison then true else if full then false else mark

/-- The offset of a granule in the 64 slot areas, in granules, where it lies in them (R271). -/
def State.slotGranule? (s : State) (g : Nat) : Option Nat :=
  let base := s.io.slotb.toNat / 16
  if base ≠ 0 && base ≤ g && g < base + 512 then some (g - base) else none

/-- The bits of byte `o` of a slot area that a write other than the scheduler's changes: CLAIM, EXITS, VCODE and VGUILT; the other
fields of Table 12-4 are RO or reserved, and a write to them is ignored (R4, log 81). -/
def slotMask (o : Nat) : Byte :=
  if o < 4 || (8 ≤ o && o < 12) || o = 16 then 0xFF else if o = 17 then 1 else 0

/-- What of a write reaches a granule: in a slot area only the writable fields, but for the scheduler's own writes. -/
def State.reaching (s : State) (g : Nat) (bs : List (Nat × Byte × Byte)) (o : Origin) : List (Nat × Byte × Byte) :=
  match if o.sched then none else s.slotGranule? g with
  | some k => (bs.filter (fun w => w.1 / 16 == g)).filterMap (fun w =>
      let m := w.2.2 &&& slotMask (16 * (k % 8) + w.1 % 16)
      if m = 0 then none else some (w.1, w.2.1, m))
  | none => bs

/-- A write of VCODE and VGUILT answers the claimed head while its verdict is awaited, else the oldest queue-error event posted and not
yet answered; with neither it answers nothing (R278). -/
def Slot.takeVerdict (sl : Slot) (code : Byte) (guilt : Bool) : Slot :=
  let claimed := match sl.grant with
    | some g => !g.claimants.isEmpty
    | none => false
  if claimed && sl.awaits && !sl.verdicts.any (·.event.isNone) then { sl with verdicts := sl.verdicts ++ [⟨code, guilt, none⟩] }
  else match sl.qerrPosted with
    | x :: rest => { sl with qerrPosted := rest, verdicts := sl.verdicts ++ [⟨code, guilt, some x⟩] }
    | [] => sl

/-- The scheduler observes a write of VCODE in a slot's area as it takes effect at the home slice (R271), whoever makes it
(log 120). -/
def State.observeVerdict (s : State) (g : Nat) (bs : List (Nat × Byte × Byte)) (new : List Byte) : State :=
  match s.slotGranule? g with
  | some k =>
    if k % 8 = 1 && bs.any (fun w => w.1 == 16 * g) then
      s.modSlot (k / 8) (·.takeVerdict (new.getD 0 0) ((new.getD 1 0).getLsbD 0))
    else s
  | none => s

/-- A field of `n` bytes at an offset. -/
def fieldAt (bs : List Byte) (off n : Nat) : Nat := bytesNat ((bs.drop off).take n)

/-- The scheduler observes CLAIM and EXITS in the first granule of a slot's area as agents' writes take effect: the atomic that
finds the head's SEQ and a CLAIM below n is the claim of its core's agent, which then reads the kernel header of the PACKET there
(R276, R277); and EXITS of the saved launch whose head the area still holds counts on (R271, R288). -/
def State.observeClaim (s : State) (g : Nat) (old new : List Byte) (o : Origin) : State :=
  match o.who, s.slotGranule? g with
  | .core c, some off =>
    let k := off / 8
    if off % 8 ≠ 0 then s
    else match (s.slot k).grant, (s.slot k).areaOf with
      | some gr, _ =>
        if o.rmw && fieldAt old 4 4 = gr.seq.toNat && fieldAt old 0 4 < gr.n && !gr.claimants.contains c
            && fieldAt new 0 4 ≠ fieldAt old 0 4 then
          (s.modSlot k (fun sl => { sl with grant := some { gr with claimants := gr.claimants ++ [c] } })).modCore c (fun core =>
            { core with hdrOf := some (k, bytesNat (peeks s.mem (16 * g + 72) 8)) })
        else s
      | none, some q => s.modSched (fun sc => { sc with saved := mset none sc.saved q.toNat ((mget none sc.saved q.toNat).map (fun l =>
          if l.slot = k && fieldAt old 8 4 = l.exits.toNat && fieldAt new 8 4 = l.exits.toNat + 1 then { l with exits := l.exits + 1 } else l)) })
      | none, none => s
  | _, _ => s

/-- A write of IRIDX, in the first granule of an inbox: the message that is held on it is tried again (R333, R334). -/
def State.observeIridx (s : State) (g : Nat) (bs : List (Nat × Byte × Byte)) : State :=
  let due (m : Message) : Bool := m.held && CtxF.inbox (s.ctxRec (Msg.dstCtx m.bits)) / 16 == g
  if bs.any (fun w => 16 * g + 8 ≤ w.1 && w.1 < 16 * g + 12) && s.io.messages.any due then
    s.modIo (fun io => { io with messages := io.messages.map (fun m => if due m then { m with held := false } else m) })
  else s

/-- A write takes its place in a granule's coherence order: the next home instant (R194, R195). -/
def State.placeWrite (s : State) (g : Nat) (o : Origin) : State :=
  let l := s.log g
  let n := s.instant + 1
  { s with instant := n
           hist := mset {} s.hist g { cur := o.stamp n l.cur
                                      olds := ⟨l.cur, peeks s.mem (16 * g) 16, mget false s.memPoison g, mget 0 s.memKey g, n⟩ :: l.olds } }

/-- Write a granule of device memory at its home slice; in a peer range the write goes out as a PCIe memory write (R263). A write of
which no bit reaches a slot area's granule is ignored (R4). -/
def State.homeWriteGranule (s : State) (key g : Nat) (bs : List (Nat × Byte × Byte)) (poison : Bool) (o : Origin := {}) : State :=
  if isPeer (16 * g) then
    match s.peerWindow? (16 * g) with
    | some w =>
      let own := bs.filter (fun w => w.1 / 16 == g)
      s.emit (.peerWrite (w / 32) (s.peerBus w ((own.head?.map (·.1)).getD 0)) (own.map (·.2.1)) poison)
    | none => s
  else if s.subFailed (16 * g) || !touchesGranule (s.reaching g bs o) g then s
  else
    let bs := s.reaching g bs o
    let full := coversGranule bs g
    let (old, mark, s) := if full then (List.replicate 16 0, mget false s.memPoison g, s) else s.homeGranule key g
    let new := (List.range 16).map (fun i => applyBytes bs (16 * g + i) (old.getD i 0))
    let s := s.placeWrite g o
    ((({ s with
      mem := pokes s.mem (16 * g) new
      memPoison := mset false s.memPoison g (markAfter mark poison full)
      memKey := mset 0 s.memKey g (s.keyTag key) } : State).observeVerdict g bs new).observeClaim g old new o).observeIridx g bs

/-! ## Requests of the capacity tier (R262) -/

def isCxl (pa : Nat) : Bool := 0x100000000000 ≤ pa && pa < 0x200000000000

/-- The 64-byte lines of capacity-tier bytes that a write touches, in order. -/
def cxlLines (bs : List (Nat × Byte × Byte)) : List Nat := dedup ((bs.filter (fun w => isCxl w.1)).map (·.1 / 64))

/-- The CXL.mem writes that a write to the capacity tier becomes: MemWr of a whole line, else MemWrPtl with its byte
enables. -/
def State.cxlWrites (s : State) (bs : List (Nat × Byte × Byte)) (poison : Bool) : State :=
  (cxlLines bs).foldl (fun s line =>
    let enables : BitVec 64 := BitVec.ofNat 64 (((List.range 64).filter (fun i => bs.any (fun w => w.1 == 64 * line + i))).foldl
      (fun n i => n + 2 ^ i) 0)
    let data := (List.range 64).map (fun i => applyBytes bs (64 * line + i) 0)
    s.emit (if enables = BitVec.allOnes 64 then .cxlWrite (BitVec.ofNat 64 (64 * line)) data poison
      else .cxlWritePartial (BitVec.ofNat 64 (64 * line)) enables data poison)) s

/-- The MemRd of each 64-byte line that a read of the capacity tier covers. -/
def State.cxlReads (s : State) (pa n : Nat) : State :=
  if isCxl pa then
    (List.range ((pa + n - 1) / 64 - pa / 64 + 1)).foldl (fun s i => s.emit (.cxlRead (BitVec.ofNat 64 (64 * (pa / 64 + i))))) s
  else s

/-- A write to device memory takes effect at its home slices: its home instant (R194). -/
def State.putHome (s : State) (key : Nat) (bs : List (Nat × Byte × Byte)) (poison : Bool) (o : Origin := {}) : State :=
  (entGranules bs).foldl (fun s g => s.homeWriteGranule key g bs poison o) s

/-- Bytes with full masks. -/
def fullBytes (a : Nat) (bs : List Byte) : List (Nat × Byte × Byte) := (addrBytes a bs).map (fun p => (p.1, p.2, 0xFF))

/-! ## Request grain (R226) -/

/-- The requests for an aligned piece of `2 ^ k` granules: the piece itself where both halves hold a touched granule, else
those of the half that holds them. Each is (address, size). -/
def cover (touched : List Nat) : Nat → Nat → List (Nat × Nat)
  | 0, g => if touched.contains g then [(16 * g, 16)] else []
  | k + 1, g =>
    let lo := touched.any (fun t => g ≤ t && t < g + 2 ^ k)
    let hi := touched.any (fun t => g + 2 ^ k ≤ t && t < g + 2 ^ (k + 1))
    if lo && hi then [(16 * g, 16 * 2 ^ (k + 1))]
    else if lo then cover touched k g
    else if hi then cover touched k (g + 2 ^ k)
    else []

/-- The requests of a set of accesses: `cover` of each 128-byte block that holds a touched granule. -/
def requestsOf (touched : List Nat) : List (Nat × Nat) :=
  (dedup (touched.map (· / 8))).flatMap (fun b => cover touched 3 (8 * b))

end Sys2Proof.Machine
end

