-- ==== Sys2Proof/Machine/Dram.lean ====
section
/-! DEFINITION. Requests on their way to memory (10_memory_instructions R226, 11_translation_and_tiers R259, R260, R262, R263, 01_device
R10): what a core sends to the home slices, what L2 answers, and the sub-channels' write queues and command histories. -/

namespace Sys2Proof.Machine

/-! ## Sub-channels (R259, R260, R392, R393) -/

def State.sub (s : State) (u : Nat) : SubChannel := mget {} s.errors.subs u
def State.setSub (s : State) (u : Nat) (c : SubChannel) : State :=
  s.modErrors (fun e => { e with subs := mset {} e.subs u c })

/-- The bank-state model after a command on a block has opened its row. -/
def openRow (banks : List (Nat × Option Word)) (pa : Nat) : List (Nat × Option Word) :=
  mset none banks (Config.hbmBank (pa / 98304)) (some (Config.hbmRow (pa / 98304)))

/-- A burst enters its sub-channel's history with the next tag. -/
def SubChannel.accept (c : SubChannel) (pa beats : Nat) (data : Option (List Byte)) : SubChannel :=
  { c with history := c.history ++ [{ tag := c.nextTag, pa, beats, data, before := c.banks }], nextTag := c.nextTag + 1
           banks := openRow c.banks pa }

/-- Does the controller stall: do 64 commands wait in its history (R392)? -/
def SubChannel.full (c : SubChannel) : Bool := 64 ≤ c.history.length

/-- Does the write queue cover a read completely (R260)? -/
def SubChannel.covers (c : SubChannel) (pa n : Nat) : Bool :=
  (List.range n).all (fun i => c.writes.any (·.mask.contains (pa + i)))

/-- The beats of a burst of `n` bytes: four bytes to a beat (R259). -/
def beatsOf (n : Nat) : Nat := n / 4

/-! ## L2 (R14, R259) -/

/-- Does L2 hold every granule of a request? -/
def State.l2Holds (s : State) (pa n : Nat) : Bool := (granules pa n).all (fun g => mget false s.l2 g)

/-- Does a request miss in L2? A granule that L2 has held may have left it before its slice was full: no rule says when one does, a
free bit (log 97). -/
def State.l2Misses (s : State) (pa n : Nat) : Bool × State := if s.l2Holds pa n then s.freeBit else (true, s)

/-- The granules of a slice of L2: 4 MiB (R14). -/
def l2Slice : Nat := 262144

/-- The granules that L2 holds in the slice of a granule. -/
def State.l2In (s : State) (g : Nat) : List Nat := (s.l2.map (·.1)).filter (fun x => homeSlice (16 * x) == homeSlice (16 * g))

/-- A granule enters its home slice; from a full slice a free one leaves (log 97). -/
def State.l2Take (s : State) (g : Nat) : State :=
  let held := s.l2In g
  if mget false s.l2 g then s
  else if held.length < l2Slice then { s with l2 := mset false s.l2 g true }
  else
    let (x, s) := s.freePair
    { s with l2 := mset false (mset false s.l2 (held.getD (x.toNat % held.length) 0) false) g true }

/-- A miss fills the granules it fetched, and no others. -/
def State.l2Fill (s : State) (pa n : Nat) : State := (granules pa n).foldl (fun s g => s.l2Take g) s

/-! ## How a waiting request is served -/

/-- A read that has missed: the write queue answers one that it covers completely, with no command; any other becomes a burst on the
sub-channel, under whose bytes nothing older than a queued write is returned, and waits while the controller stalls (R259, R260). Both
fill the granules fetched. -/
def State.fetchBurst (s : State) (r : Burst) : Option State :=
  let u := subChannel r.pa
  let c := s.sub u
  if c.covers r.pa r.size then some (s.l2Fill r.pa r.size)
  else if c.full then none
  else some ((s.setSub u (c.accept r.pa (beatsOf r.size) none)).l2Fill r.pa r.size)

/-- A request that waits reaches L2: a failed sub-channel completes it with no command (R393), L2 answers a hit, a write that misses enters
the write queue with its byte mask, and a read that misses is fetched. `none`: it still waits. -/
def State.serveOne? (s : State) (r : Burst) : Option State :=
  let u := subChannel r.pa
  let t : State := { s with bursts := s.bursts.erase r }
  if (s.sub u).failed then some t
  else
    let (miss, t) := t.l2Misses r.pa r.size
    if !miss then some t
    else if r.write then some (t.setSub u { t.sub u with writes := (t.sub u).writes ++ [⟨r.pa, r.size, r.mask⟩] })
    else t.fetchBurst r

/-- Serve a request that waits: earlier writes to its bytes that still wait go first, so that none of those is passed over (R260). -/
def State.serveBurst? (s : State) (r : Burst) : Option State :=
  (((s.bursts.takeWhile (· ≠ r)).filter (fun w => w.write && decide (w.pa < r.pa + r.size) && decide (r.pa < w.pa + w.size))).foldl
    (fun s w => (s.serveOne? w).getD s) s).serveOne? r

/-- A queued write goes out as a burst, merged with the bytes of its granules that it does not write (R260). -/
def State.writeBurst (s : State) (w : QueuedWrite) : State :=
  let u := subChannel w.pa
  let c := s.sub u
  if c.full then s
  else s.setSub u ({ c with writes := c.writes.erase w }.accept w.pa (beatsOf w.size) (some (peeks s.mem w.pa w.size)))

/-- The oldest command of a sub-channel leaves its history (R392). -/
def SubChannel.retire (c : SubChannel) : SubChannel :=
  match c.history with
  | [] => c
  | e :: rest => { c with history := rest, replays := if e.tag = c.replayTag then 0 else c.replays }

/-! ## A core's requests (R10, R226) -/

/-- The most requests that a core has outstanding (R10). -/
def maxOutstanding : Nat := 4096

/-- The requests of a core that no answer has come back for: stores of its core order, loads that wait for a peer module, reads of the
fast tier, and the loads of this clk, whose requests have still to go out. -/
def State.outstanding (s : State) (c : Nat) : Nat :=
  (s.core c).coreOrder.length + (s.io.peers.filter (fun r => r.h.core? == some c)).length
    + (s.bursts.filter (fun r => r.core == c && !r.write)).length
    + ((s.core c).loads.filter (fun l => !isPeer (16 * l.2.2))).length

/-- Has a hart's core `n` more requests free (R10)? The management core, no compute core, has as many for its stores. -/
def State.requestsFree (s : State) (h : Hart) (n : Nat) : Bool :=
  match h.core? with
  | some c => s.outstanding c + n ≤ maxOutstanding
  | none => s.mgmt.order.length + n ≤ maxOutstanding

/-- Has it one? -/
def State.requestFree (s : State) (h : Hart) : Bool := s.requestsFree h 1

/-- A core sends a request to its address's home slice, where one of the fast tier waits for L2 or its burst (R259). -/
def State.postRequest (s : State) (core : Nat) (r : Nat × Nat) (write : Bool) (mask : List Nat) : State :=
  let s := s.emit (.request core (homeSlice r.1).1 (homeSlice r.1).2 (BitVec.ofNat 64 r.1) r.2 write)
  if isFast r.1 then { s with bursts := s.bursts ++ [⟨core, r.1, r.2, write, mask⟩] } else s

/-- A read request; one of the capacity tier goes on to its expander (R262), one of the peer tier to the peer module (R263). -/
def State.sendRead (s : State) (core : Nat) (r : Nat × Nat) : State :=
  let s := s.postRequest core r false []
  match if isPeer r.1 then s.peerWindow? r.1 else none with
  | some w => s.emit (.peerRead (w / 32) (s.peerBus w r.1) r.2)
  | none => s.cxlReads r.1 r.2

/-- A write request with the bytes that it writes, each with its mark; into the capacity tier it is MemWr or MemWrPtl (R262). -/
def State.sendWrite (s : State) (core : Nat) (r : Nat × Nat) (bytes : List (Nat × Byte × Bool)) : State :=
  let own := bytes.filter (fun b => r.1 ≤ b.1 && b.1 < r.1 + r.2)
  (s.postRequest core r true (own.map (·.1))).cxlWrites (own.map (fun b => (b.1, b.2.1, 0xFF))) (own.any (·.2.2))

/-- The read requests of a set of accesses. -/
def State.sendReads (s : State) (core : Nat) (touched : List Nat) : State :=
  (requestsOf touched).foldl (fun s r => s.sendRead core r) s

/-- The requests of the stores that entered a core's order in the clk before: one set (R226). -/
def State.flushStores (s : State) (c : Nat) : State :=
  let bytes := (s.core c).stored
  if bytes.isEmpty then s
  else (requestsOf (dedup (bytes.map (·.1 / 16)))).foldl (fun s r => s.sendWrite c r bytes) (s.modCore c (fun k => { k with stored := [] }))

/-- The MemRd of each 64-byte line of the capacity tier that holds one of some granules (R262). -/
def State.cxlReadGranules (s : State) (gs : List Nat) : State :=
  (dedup ((gs.filter (fun g => isCxl (16 * g))).map (· / 4))).foldl (fun s l => s.emit (.cxlRead (BitVec.ofNat 64 (64 * l)))) s

end Sys2Proof.Machine
end

