-- ==== Sys2Proof/Machine/Drain.lean ====
section
/-! DEFINITION. How stores reach memory (09_ordering_model R194–R201): the core order, home instants, and the writes of every agent and
unit at the home slices. -/

namespace Sys2Proof.Machine

/-! ## Byte memories with marks: scratchpad, supervisor scratch, SRAM -/

/-- Write an entry's bytes. -/
def pokeMasked (m : List Host.Cell) (bs : List (Nat × Byte × Byte)) : List Host.Cell :=
  bs.foldl (fun m w => poke m w.1 (maskPut (peek m w.1) w.2.1 w.2.2)) m

/-- Update the marks of the granules that an entry touches (R225). -/
def markMasked (p : List (Nat × Bool)) (bs : List (Nat × Byte × Byte)) (poison : Bool) : List (Nat × Bool) :=
  (entGranules bs).foldl (fun p g => mset false p g (markAfter (mget false p g) poison (coversGranule bs g))) p

/-- The floors of granules after a store with floor `v` to scratchpad or supervisor scratch. -/
def viewMasked (m : List (Nat × Nat)) (bs : List (Nat × Byte × Byte)) (v : Nat) : List (Nat × Nat) :=
  (entGranules bs).foldl (fun m g => mset 0 m g (Nat.max (mget 0 m g) v)) m

/-- The granule states that a scratchpad store leaves: Full with FILL (R232). -/
def fillStates (st : List (Nat × GState)) (e : StoreEnt) : List (Nat × GState) :=
  e.fill.foldl (fun st g => mset .empty st g .full) st

/-- What the granules of a write hold before it, with their marks: a fetch may still return it (R52). -/
def oldGranules (m : List Host.Cell) (p : List (Nat × Bool)) (bs : List (Nat × Byte × Byte)) : List (Nat × List Byte × Bool) :=
  (entGranules bs).map (fun g => (g, peeks m (16 * g) 16, mget false p g))

/-- A write to supervisor scratch. -/
def Core.putSup (k : Core) (bs : List (Nat × Byte × Byte)) (poison : Bool) (view : Nat) : Core :=
  { k with supScratch := pokeMasked k.supScratch bs
           supScratchPoison := markMasked k.supScratchPoison bs poison
           supView := viewMasked k.supView bs view
           supOld := oldGranules k.supScratch k.supScratchPoison bs ++ k.supOld }

/-- A write of the management core to SRAM. -/
def Mgmt.putSram (m : Mgmt) (bs : List (Nat × Byte × Byte)) (poison : Bool) : Mgmt :=
  { m with sram := pokeMasked m.sram bs
           sramPoison := markMasked m.sramPoison bs poison
           sramOld := oldGranules m.sram m.sramPoison bs ++ m.sramOld }

/-- A store to scratchpad. -/
def Core.putScratch (k : Core) (e : StoreEnt) : Core :=
  { k with sp := pokeMasked k.sp e.bytes, spPoison := markMasked k.spPoison e.bytes e.poison
           spState := fillStates k.spState e, spView := viewMasked k.spView e.bytes e.view }

/-! ## The core order (R198–R201) -/

/-- The core order that a hart's stores enter. -/
def State.order (s : State) : Hart → List StoreEnt
  | .user c _ => (s.core c).coreOrder
  | .sup c _ => (s.core c).coreOrder
  | .mgmt => s.mgmt.order

def State.setOrder (s : State) (h : Hart) (o : List StoreEnt) : State :=
  match h with
  | .user c _ => s.modCore c (fun k => { k with coreOrder := o })
  | .sup c _ => s.modCore c (fun k => { k with coreOrder := o })
  | .mgmt => s.modMgmt (fun m => { m with order := o })

/-- How many stores have joined the core order that a hart's stores enter. -/
def State.orderSeq (s : State) : Hart → Nat
  | .user c _ => (s.core c).seq
  | .sup c _ => (s.core c).seq
  | .mgmt => s.mgmt.orderSeq

/-- Must an entry `b` of the core order take effect before the release `e`: an earlier store of its thread, or another
thread's that had joined before (R201, R202, R204); an engine's only once a fence has made it a thread's (R211). -/
def releasesAfter (e b : StoreEnt) : Bool :=
  decide (b.tid < 2000) && (if b.tid = e.tid then decide (b.ord < e.relOrd) else decide (b.seq < e.relSeq))

/-- May the `i`-th entry of a core order take effect at its home slice: no earlier entry on a granule of its own
(R195), and, for a release wider than core, none of those it follows (R201, R204). -/
def mayGoHome (o : List StoreEnt) (i : Nat) : Bool :=
  match o[i]? with
  | none => false
  | some e =>
    let before := o.take i
    let wide := match e.rel with
      | some sc => sc ≠ .core
      | none => false
    before.all (fun b => !(b.space == e.space && (entGranules b.bytes).any (fun g => touchesGranule e.bytes g)))
      && !(wide && (o.eraseIdx i).any (releasesAfter e))

/-- What a hart's entry brings to its granules. -/
def StoreEnt.origin (e : StoreEnt) (h : Hart) : Origin := { who := h.observer, view := e.view, rel := e.rel }

/-! ## Loads that came from beneath pending stores (R195, R196, R199; log 107) -/

/-- Does an entry write a granule of device memory, and does it write all of byte `b`? -/
def StoreEnt.onGranule (e : StoreEnt) (g : Nat) : Bool := e.space == .global && touchesGranule e.bytes g
def StoreEnt.gives (e : StoreEnt) (b : Nat) : Bool := e.space == .global && e.bytes.any (fun w => w.1 == b && w.2.2 == 0xFF)

/-- The bytes that entries write. -/
def addrsOf (es : List StoreEnt) : List Nat := es.flatMap (fun e => e.bytes.map (·.1))

/-- The stores that lay over a load's bytes and are not home yet: still in its thread's queue, and in the core order. -/
def State.heldQueue (s : State) (r : ReadHold) : List StoreEnt :=
  (s.thread r.h).storeQ.filter (fun e => e.onGranule r.g && decide (e.ord < r.ord))
def ReadHold.inOrder (r : ReadHold) (e : StoreEnt) : Bool :=
  e.onGranule r.g && (decide (e.seq < r.seq) || (e.tid == r.h.key && decide (e.ord < r.ord)))
def State.heldOrder (s : State) (r : ReadHold) : List StoreEnt := (s.order r.h).filter r.inOrder

/-- Would a write of some bytes come between stores that lay over a load and what the load returned from beneath them? -/
def ReadHold.exposed (r : ReadHold) (es : List StoreEnt) (bytes : List Nat) : Bool :=
  !es.isEmpty && bytes.any (fun b => decide (r.lo ≤ b) && decide (b < r.lo + r.n) && !es.any (·.gives b))

/-- A write that is about to take its place: whose it is, the thread whose queue it leaves, its bytes, and whether it joins a core
order, reaches its home slice, or both. -/
structure Coming where
  who : Observer
  tid : Nat := 0
  bytes : List Nat
  joins : Bool := false
  home : Bool := true
  deriving DecidableEq, Repr

/-- Would a write that joins the core order of a load's own core come between, and one of another observer at the home slice? -/
def State.joinMeets (s : State) (w : Coming) (r : ReadHold) : Bool :=
  w.joins && r.h.observer == w.who && r.h.key ≠ w.tid && r.exposed (s.heldQueue r) w.bytes
def State.homeMeets (s : State) (w : Coming) (r : ReadHold) : Bool :=
  w.home && r.h.observer ≠ w.who && r.exposed (s.heldQueue r ++ s.heldOrder r) w.bytes

/-- Would a write come between a load and what lay beneath it? -/
def State.meetsHold (s : State) (w : Coming) : Bool := s.holds.any (fun r => s.joinMeets w r || s.homeMeets w r)

/-- The loads, oldest first, whose stores must take their places before some writes do, each with whether they must be home: a store
that must go first has its own place to take after others. -/
def State.toSettle (s : State) : List ReadHold → List Coming → List (ReadHold × Bool)
  | [], _ => []
  | r :: rest, ws =>
    let home := ws.any (fun w => s.homeMeets w r)
    if home || ws.any (fun w => s.joinMeets w r) then
      (r, home) :: s.toSettle rest (⟨r.h.observer, r.h.key, addrsOf (s.heldQueue r), true, home⟩
        :: ⟨r.h.observer, r.h.key, addrsOf (s.heldOrder r), false, home⟩ :: ws)
    else s.toSettle rest ws

/-- The loads whose stores are not all home yet. -/
def State.pruneHolds (s : State) : State :=
  { s with holds := s.holds.filter (fun r => !(s.heldQueue r).isEmpty || !(s.heldOrder r).isEmpty) }

/-! ## Stores leave their queues and take effect -/

/-- The requests of a hart's core go out before one of its stores takes effect. -/
def State.flushOf (s : State) (h : Hart) : State :=
  match h.core? with
  | some c => s.flushStores c
  | none => s

/-- The `i`-th entry of a hart's core order takes effect at its home slice. A store of the management core to the capacity tier is a request
of its own (R262). -/
def State.goHomeNow (s : State) (h : Hart) (i : Nat) : State :=
  match (s.order h)[i]? with
  | none => s
  | some e =>
    if mayGoHome (s.order h) i then
      let s := (s.flushOf h).setOrder h ((s.order h).eraseIdx i)
      match e.space with
      | .global => ((if h.core?.isNone then s.cxlWrites e.bytes e.poison else s).putHome e.key e.bytes e.poison (e.origin h)).pruneHolds
      | .sram => s.modMgmt (·.putSram e.bytes e.poison)
      | _ => s
    else s

/-- Serve the oldest read of a core that waits; from a full history the oldest command retires first. -/
def State.answerOldest (s : State) (r : Burst) : State :=
  match s.serveBurst? r with
  | some t => t
  | none => ((s.setSub (subChannel r.pa) (s.sub (subChannel r.pa)).retire).serveBurst? r).getD s

/-- Room for one more request of a hart's core: where it has the most outstanding, its oldest waiting read is answered first, or with
none its oldest store is home (R10, log 108). -/
def State.makeRoom (s : State) (h : Hart) : State :=
  if s.requestFree h then s
  else match s.bursts.find? (fun r => some r.core == h.core? && !r.write) with
    | some r => s.answerOldest r
    | none => s.goHomeNow h 0

/-- A store takes its place in the core order, and its bytes are among those that the requests of the clk will cover (R226). -/
def State.joinNow (s : State) (h : Hart) (e : StoreEnt) : State :=
  let s := if e.space = .global then s.makeRoom h else s
  let e := { e with seq := s.orderSeq h }
  match h.core? with
  | some c => s.modCore c (fun k => { k with
      coreOrder := k.coreOrder ++ [e], seq := k.seq + 1
      stored := if e.space = .global then k.stored ++ e.bytes.map (fun w => (w.1, w.2.1, e.poison)) else k.stored })
  | none => s.modMgmt (fun m => { m with order := m.order ++ [e], orderSeq := m.orderSeq + 1 })

/-- A store that has left its queue: scratchpad and supervisor scratch take effect at once (R194), others join the core order. -/
def State.enterNow (s : State) (h : Hart) (e : StoreEnt) : State :=
  match e.space, h.core? with
  | .scratch, some c => s.modCore c (·.putScratch e)
  | .supScratch, some c => s.modCore c (·.putSup e.bytes e.poison e.view)
  | _, _ => s.joinNow h e

/-- The oldest store of a hart leaves its queue. -/
def State.leaveNow (s : State) (h : Hart) : State :=
  match (s.thread h).storeQ with
  | [] => s
  | e :: rest => (s.modThread h (fun th => { th with storeQ := rest })).enterNow h e

/-- The first entry of a core order that `p` picks is home, with all before it where it has to follow them. -/
def State.homeFirst (s : State) (h : Hart) (p : StoreEnt → Bool) : State :=
  match (s.order h).findIdx? p with
  | none => s
  | some i => if mayGoHome (s.order h) i then s.goHomeNow h i else (List.range (i + 1)).foldl (fun s _ => s.goHomeNow h 0) s

/-- The stores that lay over a load leave their queue, and with `home` are home. -/
def State.settleHold (s : State) (p : ReadHold × Bool) : State :=
  let q := (s.thread p.1.h).storeQ
  let held (e : StoreEnt) : Bool := e.onGranule p.1.g && decide (e.ord < p.1.ord)
  let s := (List.range (q.length - q.reverse.findIdx held)).foldl (fun s _ => s.leaveNow p.1.h) s
  if p.2 then (s.heldOrder p.1).foldl (fun s _ => s.homeFirst p.1.h p.1.inOrder) s else s

/-- Some writes are about to take their places: the stores over earlier loads that must come first do (log 107). -/
def State.settle (s : State) (ws : List Coming) : State :=
  if ws.any s.meetsHold then (s.toSettle s.holds.reverse ws).reverse.foldl State.settleHold s else s

/-- The `i`-th entry of a hart's core order takes effect at its home slice. -/
def State.goHome (s : State) (h : Hart) (i : Nat) : State :=
  match (s.order h)[i]? with
  | none => s
  | some e =>
    if mayGoHome (s.order h) i then
      let s := s.settle [{ who := h.observer, bytes := addrsOf [e] }]
      match (s.order h).findIdx? (· == e) with
      | some j => s.goHomeNow h j
      | none => s
    else s

/-- A store joins the core order. -/
def State.joinOrder (s : State) (h : Hart) (e : StoreEnt) : State :=
  (s.settle [{ who := h.observer, tid := e.tid, bytes := addrsOf [e], joins := true, home := false }]).joinNow h e

/-- May the oldest queued store of a hart leave now? One to global memory needs a free request (R10). -/
def State.canLeave (s : State) (h : Hart) : Bool :=
  match (s.thread h).storeQ with
  | [] => false
  | e :: _ => e.space = .scratch || e.space = .supScratch || s.requestFree h

/-- The oldest store of a hart leaves its queue, after what must come first. -/
def State.leaveFirst (s : State) (h : Hart) : State :=
  match (s.thread h).storeQ with
  | [] => s
  | e :: _ => (s.settle [{ who := h.observer, tid := h.key, bytes := addrsOf [e], joins := true, home := false }]).leaveNow h

/-- The oldest store of a hart leaves its queue, when it can. -/
def State.leaveQueue (s : State) (h : Hart) : State := if s.canLeave h then s.leaveFirst h else s

/-- Every store of a hart leaves its queue: they drain whatever becomes of the thread (R198). -/
def State.leaveAll (s : State) (h : Hart) : State := (s.thread h).storeQ.foldl (fun s _ => s.leaveFirst h) s

/-- Every store of a core's order up to the last that touches a granule is home (R195, R196). -/
def State.homeThrough (s : State) (h : Hart) (g : Nat) : State :=
  let o := s.order h
  let n := o.length - (o.reverse.findIdx (·.onGranule g))
  (List.range n).foldl (fun s _ => s.goHome h 0) s

/-! ## Writes at home -/

/-- A write to device memory takes effect at its home slices, once what must come first has. -/
def State.homeWrite (s : State) (key : Nat) (bs : List (Nat × Byte × Byte)) (poison : Bool) (o : Origin := {}) : State :=
  (s.settle [{ who := o.who, bytes := bs.map (·.1) }]).putHome key bs poison o

/-- An access that is a write of its own: its CXL.mem requests, one for each line (R262), and its effect. -/
def State.homeAccess (s : State) (key : Nat) (bs : List (Nat × Byte × Byte)) (poison : Bool) (o : Origin := {}) : State :=
  (s.cxlWrites bs poison).homeWrite key bs poison o

/-! ## Accesses of units, under key slot 0 (R254) -/

/-- A byte of device memory as a unit reads it: of a granule written under other material, of an address outside every
installed range (R253), of a peer module, which no unit reaches (R263), and of a failed sub-channel (R393), a free value (log 50). -/
def State.unitByte (s : State) (pa : Nat) : Byte :=
  if s.installed pa && !isPeer pa && mget 0 s.memKey (granule pa) = s.keyTag 0 && !s.subFailed pa then peek s.mem pa else Config.foreignByte pa

/-- Does a range lie in the module's own installed memory that works and holds bytes under slot 0? -/
def State.unitClear (s : State) (pa n : Nat) : Bool :=
  s.installed pa && s.installed (pa + n - 1) && !isPeer pa && (granules pa n).all (fun g => mget 0 s.memKey g == s.keyTag 0 && !s.subFailed (16 * g))

/-- A little-endian value as a unit reads it. -/
def State.peekMem (s : State) (pa n w : Nat) : BitVec w :=
  if s.unitClear pa n then peekBv s.mem pa n w
  else BitVec.ofNat w (bytesNat ((List.range n).map (fun i => s.unitByte (pa + i))))

/-- May a unit write at an address: no address outside every installed range is ever accessed (R253), and no unit reaches a peer
(R263). -/
def State.unitReaches (s : State) (pa : Nat) : Bool := s.installed pa && !isPeer pa

/-- A unit writes bytes under slot 0. -/
def State.pokeMem {w : Nat} (s : State) (pa n : Nat) (v : BitVec w) : State :=
  if s.unitReaches pa then s.homeAccess 0 (fullBytes pa (natBytes n v.toNat)) false else s

/-! ## Queue descriptors (Table 12-1) -/

/-- The physical address of a valid queue's descriptor (R264). -/
def State.qDesc? (s : State) (q : Nat) : Option Nat :=
  let e := mget 0 s.sched.queueTable q
  if e.getLsbD 0 then some (bget e 6 42 * 64) else none

namespace QD
def ring (s : State) (d : Nat) : Nat := (s.peekMem d 8 64).toNat
def sizelog (s : State) (d : Nat) : Nat := (s.peekMem (d + 8) 1 8).toNat % 16
def ctx (s : State) (d : Nat) : Nat := (s.peekMem (d + 10) 2 16).toNat
def widx (s : State) (d : Nat) : Nat := (s.peekMem (d + 12) 4 32).toNat
def ridx (s : State) (d : Nat) : Nat := (s.peekMem (d + 16) 4 32).toNat
def err (s : State) (d : Nat) : Bool := (s.peekMem (d + 20) 1 8).getLsbD 0
def hstate (s : State) (d : Nat) : Nat := (s.peekMem (d + 20) 1 8).toNat / 2 % 4
def setWidx (s : State) (d v : Nat) : State := s.pokeMem (d + 12) 4 (BitVec.ofNat 32 v)
def setRidx (s : State) (d v : Nat) : State := s.pokeMem (d + 16) 4 (BitVec.ofNat 32 v)
/-- ERR is bit 160 and HSTATE bits 162:161. -/
def setStatus (s : State) (d : Nat) (err : Bool) (hst : Nat) : State :=
  s.pokeMem (d + 20) 1 (BitVec.ofNat 8 (2 * (hst % 4) + (if err then 1 else 0)))
/-- ECODE (bits 175:168) and ESEQ (bits 207:176). -/
def setError (s : State) (d : Nat) (code : Nat) (seq : Nat) : State :=
  (s.pokeMem (d + 21) 1 (BitVec.ofNat 8 code)).pokeMem (d + 22) 4 (BitVec.ofNat 32 seq)
/-- ECODE alone. -/
def setEcode (s : State) (d : Nat) (code : Nat) : State := s.pokeMem (d + 21) 1 (BitVec.ofNat 8 code)
end QD


end Sys2Proof.Machine
end

