-- ==== Sys2Proof/Machine/Wake.lean ====
section
/-! DEFINITION. The registers and latches of a thread, how a thread or a supervisor group parks and wakes (R24, R31–R36, R297), and
the wakes of EWAIT (R243), which a kill needs too. -/

namespace Sys2Proof.Machine

/-! ## Registers and latches (R31–R36) -/

def Thread.reg (th : Thread) (n : Nat) : Word := mget 0 th.regs n
def Thread.regPoison (th : Thread) (n : Nat) : Bool := mget false th.poison n
def Thread.writeReg (th : Thread) (n : Nat) (v : Word) (p : Bool) : Thread :=
  { th with regs := mset 0 th.regs n v, poison := mset false th.poison n p }
def Thread.latch (th : Thread) (k : Nat) : Option Latch := (th.latches[k]?).join

/-- Push a result: L8 leaves, each Lk moves to Lk+1, the new result is L1 (R34). -/
def Thread.push (th : Thread) (l : Latch) : Thread := { th with latches := some l :: th.latches.take 7 }

/-- The empty window (R36). -/
def noLatches : List (Option Latch) := [none, none, none, none, none, none, none, none]
def Thread.clearWindow (th : Thread) : Thread := { th with latches := noLatches }

/-- A 32-bit result. -/
def Thread.put32 (th : Thread) (d : Dest) (v : Word) (p : Bool) : Thread :=
  let th := if d.n then th else th.writeReg d.d.toNat v p
  th.push ⟨v.setWidth 64, false, p⟩

/-! ## Parking and waking (R297) -/

def Thread.park (th : Thread) (w : Wait) (npc : BitVec 64) : Thread :=
  { th.clearWindow with run := .parked w, npc }

/-- A lane that waits for the others of its group, its own part done. -/
def Thread.withGroup (th : Thread) : Thread := { th with run := .parked .group }

/-- A supervisor group wakes once no lane of it waits for anything but the group: all 64 at once (R24). -/
def Core.wakeGroup (k : Core) : Core :=
  if allLanes.all (fun l => (k.thread (supKey l)).run == .parked .group || (k.thread (supKey l)).run == .ready) then
    allLanes.foldl (fun k l => k.modThread (supKey l) (fun th => { th with run := .ready })) k
  else k

/-- The wake of a parked thread: Ready at the next instruction. Its result, if any, is put in `f`. A lane of a supervisor
group goes on with its group. -/
def State.wake (s : State) (h : Hart) (f : Thread → Thread) : State :=
  match h with
  | .sup c _ => (s.modThread h (fun th => (f th).withGroup)).modCore c (·.wakeGroup)
  | _ => s.modThread h (fun th => { f th with run := .ready, pc := th.npc, age := 0 })

/-- Is the supervisor group parked at its EXIT (R315)? -/
def Core.supIdle (k : Core) : Bool := (k.thread (supKey 0)).run == .parked .supIdle

/-- An item of R290 arrived: a parked group wakes, all its lanes at once (R24). -/
def Core.wakeSup (k : Core) : Core :=
  if k.supIdle then allLanes.foldl (fun k l => k.modThread (supKey l) (fun th => { th with run := .ready })) k else k

/-! ## EWAIT (R243) -/

/-- Is an operation live that an EWAIT of a thread waits for (R243)? -/
def Core.ewaits (k : Core) (tid : Nat) (token : BitVec 16) : Bool :=
  if token = 0 then k.ops.any (fun o => o.tid == tid) else k.ops.any (fun o => o.token == token)

/-- The failure word, and the thread after EWAIT has read it. -/
def Thread.failWord (th : Thread) : Word :=
  if th.fail then bputs 0 [(31, 1, 1), (8, 16, th.failToken.toNat), (0, 8, th.failCode.toNat)] else 0
def Thread.takeFailure (th : Thread) (dst : Dest) : Thread :=
  { th with fail := false, failToken := 0, failCode := 0 }.put32 dst th.failWord false

/-- Raise the floor of a thread's view. -/
def MemView.raise (v : MemView) (n : Nat) : MemView := { v with floor := Nat.max v.floor n }

/-- A thread observes the completion of the operation with a token (R210), whose writes a later FENCE.eng covers (R211). -/
def Thread.seeOp (th : Thread) (token : BitVec 16) (view : Nat) : Thread :=
  if token = 0 || th.mv.seenOps.contains (false, token) then { th with mv := th.mv.raise view }
  else { th with mv := { th.mv.raise view with seenOps := th.mv.seenOps ++ [(false, token)] } }

/-- Wake the EWAITs that have nothing left to wait for. -/
def State.wakeOps (s : State) (c : Nat) : State :=
  (s.core c).threads.foldl (fun s p =>
    match p.2.run with
    | .parked (.ewait token dst) =>
      if (s.core c).ewaits p.1 token then s
      else s.wake (hartOf c p.1) (fun th => (th.takeFailure dst).seeOp token (mget 0 (s.core c).engView token.toNat))
    | _ => s) s

end Sys2Proof.Machine
end

