-- ==== Sys2Proof/Machine/Kill.lean ====
section
/-! DEFINITION. The error log (R394–R398), barring and killing a context (R332, R401, R402), and core retirement
(R399): what an exception of a supervisor group reaches. -/

namespace Sys2Proof.Machine

/-! ## The error log (Tables 22-3 to 22-5) -/

/-- Fields of a record, but for SEQ. LOC is KIND 15, none, unless given. -/
structure LogRec where
  ev : Nat
  code : BitVec 8 := 0
  cls : Nat := 0
  act : Nat := 0
  ctx : Nat := 0
  ref : Nat := 0
  locx : Word := 0
  loc : Word := 0xF0000000
  value : BitVec 64 := 0
  deriving DecidableEq, Repr

/-- The 256-bit record (Table 22-3). -/
def LogRec.bits (r : LogRec) (seq : Nat) : BitVec 256 :=
  bputs 0 [(224, 32, seq), (216, 8, r.ev), (208, 8, r.code.toNat), (204, 4, r.cls), (200, 4, r.act), (176, 16, r.ctx),
    (160, 16, r.ref), (128, 32, r.locx.toNat), (96, 32, r.loc.toNat), (0, 64, r.value.toNat)]

/-- Write one record whole, then advance ELP (R395). -/
def State.logRaw (s : State) (r : LogRec) : State :=
  s.modErrors (fun e =>
    { e with log := mset 0 e.log (e.elp.toNat % 256) (r.bits e.elp.toNat), elp := e.elp + 1 })

/-- The LOC word of a location (R343, Table 22-3). -/
def locWord (l : Loc) : Word := l.kind ++ l.core ++ l.index

/-- The location of a core control structure (KIND 13). -/
def coreLoc (c structure_ : Nat) : Loc := { kind := 13, core := BitVec.ofNat 8 c, index := BitVec.ofNat 20 structure_ }

/-! ## Barring (R332) -/

/-- Slots of a context record CTX_BARRED in ECODE (R278, R332). -/
def State.recordBarred (s : State) (x : Nat) : State :=
  allSlots.foldl (fun s k =>
    let r := (s.slot k).bindRec
    if BR.v r then
      match s.qDesc? (BR.qid r) with
      | some d => if QD.ctx s d = x && !(QD.err s d) then QD.setEcode s d Cause.ctxBarred.code.toNat else s
      | none => s
    else s) s

/-- A context becomes barred: one notice to the management core; nothing if it already was. -/
def State.bar (s : State) (x : Nat) : State :=
  if CtxF.barred (s.ctxRec x) then s
  else ((s.setCtxRec x (bput (s.ctxRec x) 107 1 1)).emit (.barNotice (BitVec.ofNat 16 x))).recordBarred x

/-- Raise the guilt count by one, saturating, and bar at the limit (R332). -/
def State.raiseGuilt (s : State) (x : Nat) : State :=
  let g := Nat.min 255 (CtxF.guilt (s.ctxRec x) + 1)
  let s := s.setCtxRec x (bput (s.ctxRec x) 108 8 g)
  if s.mgmt.glim.toNat ≤ g then s.bar x else s

/-! ## Pending slots and rewritten records (R272, R273, R275) -/

/-- Is a queue's head in progress under some slot's grant? -/
def State.queueGranted (s : State) (q : Nat) : Bool :=
  allSlots.any (fun k => match (s.slot k).grant with
    | some g => g.qid.toNat == q
    | none => false)

/-- Is a slot pending (R272)? -/
def State.slotPending (s : State) (k : Nat) : Bool :=
  let sl := s.slot k
  BR.v sl.bindRec && BR.act sl.bindRec = 0 && sl.grant.isNone && !s.queueGranted (BR.qid sl.bindRec) && !sl.fetchFault
    && match s.qDesc? (BR.qid sl.bindRec) with
      | some d => !CtxF.barred (s.ctxRec (QD.ctx s d)) && !QD.err s d && (QD.widx s d ≠ QD.ridx s d || QD.hstate s d = 2)
      | none => false

/-- A slot counts as pending from now (R273: "pending longest"). -/
def State.stampSlot (s : State) (k : Nat) : State :=
  (s.modSlot k (fun sl => { sl with since := s.sched.tick })).modSched (fun sc => { sc with tick := sc.tick + 1 })

/-- Every slot that has become pending since `was` counts from now. -/
def State.stampPending (s : State) (was : State) : State :=
  allSlots.foldl (fun s k => if s.slotPending k && !was.slotPending k then s.stampSlot k else s) s

/-- A slot's record no longer names its queue: the events it held wait for the BIND that next does (R278). -/
def State.unbindErrors (s : State) (k : Nat) : State :=
  let sl := s.slot k
  let q := BR.qid sl.bindRec
  if sl.qerrHeld.isEmpty then s
  else (s.modSlot k (fun sl => { sl with qerrHeld := [] })).modSched (fun sc => { sc with
    qerrUnbound := mset 0 sc.qerrUnbound q (mget 0 sc.qerrUnbound q + sl.qerrHeld.length) })

/-- HOLD or RELEASE: a running launch is to be pre-empted; RELEASE with nothing running clears V at once (R275). A record takes effect
from the Summer stage on (R422). A request that is not yet delivered stays when the record is rewritten to RUN (log 121). -/
def State.actOnRecord (s : State) (k : Nat) : State :=
  let sl := s.slot k
  if BR.act sl.bindRec = 0 || s.mgmt.stage ≠ .summer then s
  else match sl.grant with
    | some g => if g.launch then s.modSlot k (fun sl => { sl with grant := some { g with preemptReq := true } }) else s
    | none => if BR.act sl.bindRec = 2 then
        (s.unbindErrors k).modSlot k (fun sl => { sl with bindRec := bput sl.bindRec 63 1 0 }) else s

/-- A migration no longer has a slot's refusal word to wait for it. -/
def State.dropRefusal (s : State) (k : Nat) : State :=
  s.modIo (fun io => { io with migs := io.migs.map (fun m => { m with waiters := m.waiters.filter (· ≠ .refusal k) }) })

/-- A slot's grant ends, with any verdict on its head not yet carried out and any refusal word of it that still waits (R278), and the
slot acts on its record. -/
def State.endGrant (s : State) (k : Nat) : State :=
  ((s.modSlot k (fun sl => { sl with grant := none, expired := false, refusal := none
                                     verdicts := sl.verdicts.filter (·.event.isSome) })).dropRefusal k).actOnRecord k

/-! ## Fetches that wait for a page (R52) -/

/-- Harts that go no further with a fetch no longer wait for its page. -/
def State.dropFetches (s : State) (p : Hart → Bool) : State :=
  s.modIo (fun io => { io with migs := io.migs.map (fun m => { m with waiters := m.waiters.filter (fun w => match w with
    | .fetch h => !p h
    | _ => true) }) })

/-- The answers that harts which are gone wait for from peer modules are dropped (R263). -/
def State.dropPeers (s : State) (p : Hart → Bool) : State :=
  s.modIo (fun io => { io with peers := io.peers.filter (fun r => !p r.h) })

/-- Is a hart a user thread of a core? -/
def Hart.userOf (c : Nat) : Hart → Bool
  | .user c' _ => c' == c
  | _ => false

/-! ## Entries held for a saved workgroup (R355) -/

/-- An entry is held for no workgroup any more. -/
def dropHeldEntry (n : Nat) (l : List (Nat × List Nat)) : List (Nat × List Nat) := l.map (fun p => (p.1, p.2.filter (· ≠ n)))

def State.dropHeld (s : State) (n : Nat) : State :=
  s.modSched (fun sc => { sc with
    slots := sc.slots.map (fun p => (p.1, { p.2 with grant := p.2.grant.map (fun g =>
      { g with heldIrqs := dropHeldEntry n g.heldIrqs }) }))
    saved := sc.saved.map (fun p => (p.1, p.2.map (fun l => { l with heldIrqs := dropHeldEntry n l.heldIrqs }))) })

/-! ## Killing a context (R401, R402) -/

/-- Mark every thread below `n` that has not exited as stopped (R402, R47). -/
def stopThreads (n : Nat) (m : List (Nat × Thread)) : List (Nat × Thread) :=
  (List.range n).foldl (fun m t =>
    let th : Thread := mget {} m t
    if th.run = Run.exited then m else mset {} m t { th with stopped := true }) m

/-- Stop every thread of a core's workgroup and drop its requests; its seals are abandoned, and with them what they held (R402,
R416). -/
def Core.killWg (k : Core) (w : Workgroup) : Core :=
  let dead := (k.ops.filter (fun o => match o.kind with | .sealImg .. => true | _ => false)).map (·.token)
  { k with
    threads := stopThreads w.nth k.threads
    wg := some { w with killed := true, preempt := .none }
    trq := [], mbox := [], mboxRead := [], claims := k.claims.filter (960 ≤ ·)
    ops := k.ops.filter (fun o => !dead.contains o.token)
    locks := k.locks.filter (fun l => l.matrix || !dead.contains l.token)
    groups := k.groups.filter (fun g => g.row = 0) }

def allCores : List Nat := List.range 256

/-- Cores that hold a workgroup, as the table of cores lists them. -/
def State.wgCores (s : State) : List Nat := (s.cores.filter (fun p => p.2.wg.isSome)).map (·.1)

/-- The address of a slot's area (R271), and EXITS there (Table 12-4). -/
def State.slotArea (s : State) (k : Nat) : Nat := s.io.slotb.toNat + 128 * k
def State.slotExits (s : State) (k : Nat) : Nat := (s.peekMem (s.slotArea k + 8) 4 32).toNat

/-- One queue of a killed context (R402, R403, R408): a running or saved head launch ends with ERR. -/
def State.killQueue (s : State) (q : Nat) (code : BitVec 8) : State :=
  match s.qDesc? q with
  | none => s
  | some d =>
    let running := (s.slotOfQueue? q).bind (fun k => (s.slot k).grant.map (fun g => (k, g)))
    let finished := match running with
      | some (k, g) => g.launch && g.verdictDone && decide (g.n ≤ s.slotExits k)
      | none => false
    if QD.hstate s d = 0 || finished then s
    else
      let saving := match running with
        | some (_, g) => g.preemptReq && !g.delivered.isEmpty
        | none => false
      let advance := saving || QD.hstate s d = 2
      let s := if advance then
          s.modKeys (fun ks => { ks with saveCtr := mset 0 ks.saveCtr q (mget 0 ks.saveCtr q + 1) }) else s
      let seq := QD.ridx s d
      let s := QD.setError (QD.setStatus s d true 0) d code.toNat seq
      let s := s.modSched (fun sc => { sc with saved := mset none sc.saved q none })
      match running with
      | some (k, g) =>
        let held := g.held.filter (fun c => match (s.core c).wg with
          | some w => w.killed && w.slot == k
          | none => false)
        if held.isEmpty then s.endGrant k
        else s.modSlot k (fun sl => { sl with grant := some { g with killed := true, held } })
      | none => s

/-- The codes of Table 2-8; every other is reserved and never written (R50). -/
def assignedCode (c : BitVec 8) : Bool :=
  let n := c.toNat
  n ≤ 0x09 || (0x20 ≤ n && n ≤ 0x29) || (0x40 ≤ n && n ≤ 0x46) || n = 0x60 || (0x80 ≤ n && n ≤ 0x85)
    || (0xA0 ≤ n && n ≤ 0xA5) || (0xC0 ≤ n && n ≤ 0xC4) || (0xE0 ≤ n && n ≤ 0xE5)

/-- Kill a context (R402). -/
def State.killContext (s : State) (x : Nat) (code : BitVec 8) (value : BitVec 64) : State :=
  if x = 0 then s.logRaw { ev := 0x04 }
  else
    let s := s.bar x
    let s := s.wgCores.foldl (fun s c => match (s.core c).wg with
      | some w => if w.ctx.toNat = x then (s.modCore c (·.killWg w)).wakeOps c else s
      | none => s) s
    let s := s.modIo (fun io => { io with irqs := io.irqs.foldl (fun m (p : Nat × BitVec 64) =>
      if IrqF.ctx p.2 = x && IrqF.state p.2 ≠ 0 then mset 0 m p.1 (IrqF.unbind p.2) else m) io.irqs })
    let qs := (s.sched.queueTable.map (·.1)).filter (fun q => match s.qDesc? q with
      | some d => QD.ctx s d = x
      | none => false)
    let s := qs.foldl (fun s q => s.killQueue q code) s
    let busy := s.wgCores.any (fun c => match (s.core c).wg with
      | some w => w.killed && w.ctx.toNat == x
      | none => false)
    let s := s.modMgmt (fun m => { m with ctxkId := BitVec.ofNat 16 x, ctxkGo := busy })
    s.logRaw { ev := 0x0A, code, ctx := x, value }

/-! ## Retiring a core (R399) -/

/-- Stop a core where it stands: its group and every user thread. -/
def State.haltCore (s : State) (c : Nat) (st : CoreStatus) : State :=
  s.modCore c (fun k =>
    let k := match k.wg with
      | some w => { k with threads := stopThreads w.nth k.threads }
      | none => k
    { k with status := st })

/-- The context of the workgroup resident on a core is killed; one of context 0 leaves its record of R401. -/
def State.killResident (s : State) (c : Nat) (code : BitVec 8) : State :=
  match (s.core c).wg with
  | some w => s.killContext w.ctx.toNat code (BitVec.ofNat 64 c)
  | none => s

/-- The classification record of an untested event (R396: CLASS 3). -/
def State.logClass3 (s : State) (seq : Nat) (r : LogRec) (act : Nat) : State :=
  s.logRaw { ev := 0x03, cls := 3, act, ref := seq, loc := r.loc, locx := r.locx }

/-- Retire a core; no effect on one already retired (R399, R400). -/
def State.retireCore (s : State) (c : Nat) : State :=
  if (s.core c).status = .retired then s
  else
    let s := (s.haltCore c .retired).killResident c Cause.coreRetired.code
    let r : LogRec := { ev := 0x01, code := Cause.coreRetired.code, value := BitVec.ofNat 64 c }
    let seq := s.errors.elp.toNat
    (s.logRaw r).logClass3 seq r 0

/-! ## Logging an event, with its test or classification (R396, R397) -/

/-- Other events at the same place within the 64 records that end at `seq`, classified transient (or CLASS 3). -/
def Errors.recent (e : Errors) (seq : Nat) (l : Loc) : Nat :=
  (e.history.filter (fun h => h.transient && h.seq < seq && seq < h.seq + 64 && h.kind == l.kind && h.core == l.core
    && h.index == l.index && h.ext == l.ext)).length

/-- Keep a classification as long as it can lie within the 64 records of an event still to be classified: one of those in `rest`, one
that a running test covers, or one to come. -/
def Errors.remember (e : Errors) (rest : List Nat) (seq : Nat) (l : Loc) (transient : Bool) : Errors :=
  let open_ := e.elp.toNat :: (rest ++ e.tests.flatMap (·.events))
  let all := e.history ++ [⟨seq, l.kind, l.core, l.index, l.ext, transient⟩]
  { e with history := all.filter (fun h => open_.any (fun ev => ev < h.seq + 64)) }

/-- How many spare rows the place of a location has (Table 22-6), keyed by the bank, slot or sub-channel; a die-to-die link has
two spare lanes, keyed by its number. -/
def spareKey (l : Loc) : Nat × Nat :=
  let k := l.kind.toNat
  let idx := l.index.toNat
  let c := l.core.toNat
  if k = 0 then (k * 2 ^ 40 + c * 2 ^ 20 + idx / 2 ^ 12, 8)
  else if k = 1 then (k * 2 ^ 40 + c * 2 ^ 20 + idx / 2 ^ 12, 4)
  else if k = 2 then (k * 2 ^ 40 + c * 2 ^ 20 + idx / 2 ^ 12, 2)
  else if k = 5 then (k * 2 ^ 40 + idx / 2 ^ 8, 2)
  else if k = 9 then (k * 2 ^ 40 + idx, 1)
  else if k = 11 then (k * 2 ^ 40, 64)
  else (k * 2 ^ 40 + idx / 2 ^ 10, 16)

/-- Take a spare row; false when none is left. For an HBM row the identifier does not name the bank, so once 16 rows of
the sub-channel have moved it is a free bit whether the bank has one left (log 9). -/
def State.takeSpare (s : State) (l : Loc) : Bool × State :=
  let (key, cap) := spareKey l
  let used := mget 0 s.errors.spares key
  let take := s.modErrors (fun e => { e with spares := mset 0 e.spares key (used + 1) })
  if used < cap then (true, take)
  else if l.kind = 4 then
    let (b, s') := s.freeBit
    if b then (true, s'.modErrors (fun e => { e with spares := mset 0 e.spares key (used + 1) })) else (false, s')
  else (false, s)

/-- A PCIe or CXL link retrains without a lane, at the next lower width. -/
def State.narrowLink (s : State) (port : Nat) : State :=
  s.modErrors (fun e => { e with narrowed := mset 0 e.narrowed port (mget 0 e.narrowed port + 1) })

/-- The action of a lasting fault (Table 22-6), carried out; its ACT code with the state. -/
def State.actLasting (s : State) (l : Loc) : Nat × State :=
  let k := l.kind.toNat
  if k = 0 || k = 1 || k = 2 then
    let (ok, s) := s.takeSpare l
    if ok then (1, s) else (6, s.retireCore l.core.toNat)
  else if k = 3 || k = 10 || k = 12 || k = 13 then (6, s.retireCore l.core.toNat)
  else if k = 4 then
    let (ok, s) := s.takeSpare l
    if ok then (3, s) else (4, s.emit (.retiredFrames l.index l.ext))
  else if k = 5 then (5, if l.index.toNat / 2 ^ 8 < 32 then s.narrowLink (l.index.toNat / 2 ^ 8) else (s.takeSpare l).2)
  else if k = 9 || k = 11 then (2, (s.takeSpare l).2)
  else (0, s)

/-- Start a targeted self-test of a place, or join the one that runs there (R396). -/
def Errors.startTest (e : Errors) (l : Loc) (seq : Nat) : Errors :=
  if e.tests.any (fun t => t.kind == l.kind && t.core == l.core && t.index == l.index && t.ext == l.ext) then
    { e with tests := e.tests.map (fun t =>
        if t.kind == l.kind && t.core == l.core && t.index == l.index && t.ext == l.ext
        then { t with events := t.events ++ [seq] } else t) }
  else { e with tests := e.tests ++ [⟨l.kind, l.core, l.index, l.ext, [seq]⟩] }

/-- Log an event of kind 0x01, 0x02 or 0x0C at a place, and start its test or classify it at once (R396, R397). -/
def State.logAt (s : State) (ev : Nat) (code : BitVec 8) (ctx : Nat) (l : Loc) (value : BitVec 64) : State :=
  let seq := s.errors.elp.toNat
  let r : LogRec := { ev, code, ctx, loc := (locWord l), locx := l.ext, value }
  let s := s.logRaw r
  if ev = 0x0C || l.kind.toNat ≤ 5 then s.modErrors (·.startTest l seq)
  else
    let lasting := decide (2 ≤ s.errors.recent seq l)
    let (act, s) := if lasting then s.actLasting l else (0, s)
    (s.logClass3 seq r act).modErrors (·.remember [] seq l true)

/-- Log an event whose place is none. -/
def State.logEvent (s : State) (ev : Nat) (code : BitVec 8) (value : BitVec 64) : State :=
  if ev = 0x01 || ev = 0x02 then s.logAt ev code 0 { kind := 15, core := 0, index := 0 } value
  else s.logRaw { ev, code, value }

/-- A core stops under R47 or R391: logged as kind 0x0C with its structure, the resident context killed. A retired core stays
retired (R399). -/
def State.stopCore (s : State) (c structure_ : Nat) : State :=
  let s := if (s.core c).status = .retired then s else s.haltCore c .stopped
  let ctx := match (s.core c).wg with
    | some w => w.ctx.toNat
    | none => 0
  (s.logAt 0x0C Cause.supFault.code ctx (coreLoc c structure_) (BitVec.ofNat 64 c)).killResident c Cause.supFault.code

end Sys2Proof.Machine
end

