-- ==== Sys2Proof/Machine/Ops.lean ====
section
/-! DEFINITION. Registers, latches, operand checks, taking an exception and returning from one, parking and waking, and
`issue`, which runs the meaning of an instruction for the current agent (02_threads_and_state, 03_encoding). -/

namespace Sys2Proof

/-! ## Resolved operands (R56–R58) -/

/-- A source operand after its code has been read. `lit` is a 32-bit pattern: the L form's literal or an entry of the
float table (Table 3-7). -/
inductive Opd where
  | reg (n : Nat)
  | latch (k : Nat)
  | special (s : Special)
  | imm (v : Int)
  | lit (w : Word)
  deriving DecidableEq, Repr

/-- The fields of any form, as those of the one D instruction it executes as (R54, R55). -/
structure Fields where
  d : Nat
  n : Bool := false
  a : Opd := .imm 0
  b : Opd := .imm 0
  c : Opd := .imm 0
  deriving DecidableEq, Repr

def Src.opd (lit : Option Word) : Src → Opd
  | .reg n => .reg n.toNat
  | .latch k => .latch k.toNat
  | .special s => .special s
  | .imm v => .imm v.toInt
  | .lit => .lit (lit.getD 0)

def DF.fields (f : DF) : Fields :=
  { d := f.d.toNat, n := f.n, a := f.a.opd f.lit, b := f.b.opd f.lit, c := f.c.opd f.lit }

def SrcW.opd : SrcW → Opd
  | .reg n => .reg n.toNat
  | .latch k => .latch k.toNat
  | .special s => .special s
  | .imm v => .imm v.toInt

def WF.fields (f : WF) : Fields := { d := f.d.toNat, a := .reg f.a.toNat, b := f.b.opd }
def WB.fields (f : WB) : Fields := { d := f.d.toNat, b := f.b.opd }

/-- Table 3-7: the FP32 patterns of C-form codes 40–55. -/
def floatTable : Nat → Word
  | 0 => 0x00000000 | 1 => 0x3F000000 | 2 => 0x3F800000 | 3 => 0x40000000
  | 4 => 0x40400000 | 5 => 0x40800000 | 6 => 0x41000000 | 7 => 0xBF800000
  | 8 => 0xBF000000 | 9 => 0xC0000000 | 10 => 0x3E800000 | 11 => 0x3FC00000
  | 12 => 0x41800000 | 13 => 0x3E000000 | 14 => 0x42800000 | _ => 0x3EAAAAAB

/-- A C-form source through the integer table (OP 0–11) or the float table (OP 12–15). -/
def SrcC.opd (float : Bool) : SrcC → Opd
  | .reg n => .reg n.toNat
  | .latch k => .latch k.toNat
  | .imm k => if float then .lit (floatTable k.toNat) else .imm (k.toNat - 1)
  | .special s => .special s

def CF.fields (f : CF) : Fields := { d := f.d.toNat, a := .reg f.d.toNat, b := f.s.opd false }
def CF.floatFields (f : CF) : Fields := { d := f.d.toNat, a := .reg f.d.toNat, b := f.s.opd true }

/-- The width of a register operand: one register, an even pair, a group of four. -/
inductive OpW where
  | w32 | pair | quad
  deriving DecidableEq, Repr

def OpW.count : OpW → Nat
  | .w32 => 1 | .pair => 2 | .quad => 4

abbrev OpUse := Opd × OpW

/-- The destination as a checked field: only with N = 0 (R133, R221). -/
def Fields.dst (f : Fields) (w : OpW) : List OpUse := if f.n then [] else [(.reg f.d, w)]

def Fields.dest (f : Fields) : Machine.Dest := ⟨BitVec.ofNat 8 f.d, f.n⟩

end Sys2Proof

namespace Sys2Proof.Machine

/-! ## Thread specials (R24, R38) -/

def State.special (s : State) (h : Hart) (sp : Special) : Word :=
  match h with
  | .user c t =>
    let w := (s.core c).wg
    let of (f : Workgroup → Nat) : Word := BitVec.ofNat 32 ((w.map f).getD 0)
    match sp with
    | .tid => BitVec.ofNat 32 t
    | .lane => BitVec.ofNat 32 (t % 64)
    | .slot => BitVec.ofNat 32 (1 + t / 64)
    | .cx => of (·.cx)
    | .cy => of (·.cy)
    | .rw => of (·.rw)
    | .rh => of (·.rh)
    | .nth => of (·.nth)
  | .sup c l =>
    match sp with
    | .tid => BitVec.ofNat 32 l
    | .lane => BitVec.ofNat 32 l
    | .slot => 0
    | .cx => BitVec.ofNat 32 (c % 16)
    | .cy => BitVec.ofNat 32 (c / 16)
    | .rw => 16
    | .rh => 16
    | .nth => 64
  | .mgmt =>
    match sp with
    | .rw => 1
    | .rh => 1
    | .nth => 1
    | _ => 0

/-! ## Registers and latches (R31–R36) -/

/-- The program counter of a hart; the supervisor group shares one (R24). -/
def State.pc (s : State) : Hart → BitVec 64
  | .sup c _ => (s.core c).supPc
  | h => (s.thread h).pc

/-! ## Operand checks (R31, R33, R34, R45, R221) -/

/-- The first register at or above the thread's count that a field names (R31, R45). -/
def opdOutOfRange (lim : Nat) (o : Opd) (w : OpW) : Option Nat :=
  match o with
  | .reg n => if lim < n + w.count then some (Nat.max n lim) else none
  | _ => none

/-- The register that does not start a pair or a group (R33, R221). -/
def opdMisaligned (o : Opd) (w : OpW) : Option Nat :=
  match o with
  | .reg n => if n % w.count = 0 then none else some n
  | _ => none

/-- The empty latch that a field reads, as a latch number 1–8. -/
def opdEmptyLatch (th : Thread) (o : Opd) : Option Nat :=
  match o with
  | .latch k => if (th.latch k).isNone then some (k + 1) else none
  | _ => none

/-- The trap that naming these fields raises, lowest code first, then in the order given: a, b, c, D (R45). -/
def opCheck (s : State) (h : Hart) (us : List OpUse) : Option (Cause × Pair) :=
  match us.findSome? (fun u => opdOutOfRange (s.regCount h) u.1 u.2) with
  | some r => some (.regRange, BitVec.ofNat 64 r)
  | none => match us.findSome? (fun u => opdMisaligned u.1 u.2) with
    | some r => some (.regPair, BitVec.ofNat 64 r)
    | none => match us.findSome? (fun u => opdEmptyLatch (s.thread h) u.1) with
      | some k => some (.latchEmpty, BitVec.ofNat 64 k)
      | none => none

/-! ## Reading operands -/

/-- Is a source poisoned (R32, R33)? Immediates, literals and specials never are. -/
def State.opPoison (s : State) (h : Hart) (o : Opd) (w : OpW) : Bool :=
  let th := s.thread h
  match o with
  | .reg n => (List.range w.count).any (fun i => th.regPoison (n + i))
  | .latch k => match th.latch k with
    | some l => l.poison
    | none => false
  | _ => false

/-- A 32-bit integer operand (R35, R59). -/
def State.op32 (s : State) (h : Hart) (o : Opd) : Word :=
  match o with
  | .reg n => (s.thread h).reg n
  | .latch k => match (s.thread h).latch k with
    | some l => l.val.setWidth 32
    | none => 0
  | .special sp => s.special h sp
  | .imm v => BitVec.ofInt 32 v
  | .lit w => w

/-- A latch read as a pair: one that holds a 32-bit result gives zero in bits 63:32 (R35). -/
def Latch.pair (l : Latch) : Pair := if l.wide then l.val else (l.val.setWidth 32).setWidth 64

/-- A pair operand (R33, R35, R59). -/
def State.opPair (s : State) (h : Hart) (o : Opd) : Pair :=
  match o with
  | .reg n => pairOf ((s.thread h).reg n) ((s.thread h).reg (n + 1))
  | .latch k => match (s.thread h).latch k with
    | some l => l.pair
    | none => 0
  | .special sp => (s.special h sp).setWidth 64
  | .imm v => BitVec.ofInt 64 v
  | .lit w => w.signExtend 64

/-- A group of four registers (R221). -/
def State.opQuad (s : State) (h : Hart) (o : Opd) : BitVec 128 :=
  match o with
  | .reg n =>
    let th := s.thread h
    th.reg (n + 3) ++ th.reg (n + 2) ++ th.reg (n + 1) ++ th.reg n
  | o => (s.opPair h o).setWidth 128

/-! ## Writing results (R34, R135, R221) -/

/-- A pair result: one poison value on both registers. -/
def Thread.putPair (th : Thread) (d : Dest) (v : Pair) (p : Bool) : Thread :=
  let th := if d.n then th else (th.writeReg d.d.toNat v.lo p).writeReg (d.d.toNat + 1) v.hi p
  th.push ⟨v, true, p⟩

/-- A 16-byte result: bytes 7:0 are pushed first, then bytes 15:8. -/
def Thread.putQuad (th : Thread) (d : Dest) (v : BitVec 128) (p : Bool) : Thread :=
  let lo : Pair := v.setWidth 64
  let hi : Pair := (v >>> 64).setWidth 64
  let n := d.d.toNat
  let th := if d.n then th else
    (((th.writeReg n lo.lo p).writeReg (n + 1) lo.hi p).writeReg (n + 2) hi.lo p).writeReg (n + 3) hi.hi p
  (th.push ⟨lo, true, p⟩).push ⟨hi, true, p⟩

def State.put32 (s : State) (h : Hart) (d : Dest) (v : Word) (p : Bool) : State := s.modThread h (·.put32 d v p)
def State.putPair (s : State) (h : Hart) (d : Dest) (v : Pair) (p : Bool) : State := s.modThread h (·.putPair d v p)
def State.putQuad (s : State) (h : Hart) (d : Dest) (v : BitVec 128) (p : Bool) : State :=
  s.modThread h (·.putQuad d v p)

/-! ## Taking an exception (R45–R48) and returning from one -/

/-- CODE, EPC, TVAL and ACTIVE, and the empty window (R46). The instruction has issued, so the thread's wait for issue starts anew
(R284). -/
def Thread.enterTrap (th : Thread) (c : Cause) (v : Pair) (epc : BitVec 64) : Thread :=
  { th.clearWindow with causeActive := true, causeCode := c.code, tval := v, epc, age := 0 }

/-- A number takes its place in an ascending list. -/
def insertAsc (t : Nat) : List Nat → List Nat
  | [] => [t]
  | x :: xs => if t < x then t :: x :: xs else x :: insertAsc t xs

/-- A thread that traps joins TRQ: those of one clk stand in ascending slot order, and by ascending lane within a slot (R42). A clk of a
core runs from one ISSUE_SELECT to the next (log 129). -/
def Core.enqueue (k : Core) (t : Nat) : Core := { k with trq := k.trq.take k.trqOld ++ insertAsc t (k.trq.drop k.trqOld) }

/-- Threads leave TRQ. -/
def Core.unqueue (k : Core) (gone : Nat → Bool) : Core :=
  { k with trq := k.trq.filter (!gone ·), trqOld := ((k.trq.take k.trqOld).filter (!gone ·)).length }

/-- Trap entry of a user thread (R46): Trapped, queued in TRQ, and a parked supervisor group woken. -/
def State.trapUser (s : State) (c t : Nat) (cause : Cause) (v : Pair) (epc : BitVec 64) : State :=
  s.modCore c (fun k =>
    let k := k.modThread t (fun th => { th.enterTrap cause v epc with run := .trapped })
    (k.enqueue t).wakeSup)

/-- A trap of the supervisor group: its own CAUSE, EPC and TVAL, then the core stops (R47). It acts on all 64 lanes at once
(R24), so a condition that several parked lanes meet is one trap. -/
def State.trapSup (s : State) (c : Nat) (cause : Cause) (v : Pair) (epc : BitVec 64) : State :=
  if (s.core c).status ≠ .running then s
  else (s.modCore c (fun k => allLanes.foldl (fun k l => k.modThread (supKey l) (·.enterTrap cause v epc)) k)).stopCore c 0xFF

/-- A trap of the management core (R48): at MTVEC, or halted when ACTIVE is already set. What a security instruction has loaded so far is
dropped with it. -/
def State.trapMgmt (s : State) (cause : Cause) (v : Pair) (epc : BitVec 64) : State :=
  if s.mgmt.thread.causeActive then
    (s.modMgmt (fun m => { m with halted := true })).logRaw { ev := 0x08, code := cause.code, value := epc }
  else s.modMgmt (fun m => { m with loaded := [], thread := { m.thread.enterTrap cause v epc with pc := m.mtvec, run := .ready } })

/-- Taking an exception: what every trapping instruction and wake goes through (R45). -/
def State.takeTrap (s : State) (h : Hart) (cause : Cause) (v : Pair) (epc : BitVec 64) : State :=
  match h with
  | .user c t => s.trapUser c t cause v epc
  | .sup c _ => s.trapSup c cause v epc
  | .mgmt => s.trapMgmt cause v epc

/-- The return of the management core from a trap (R337): PC ← EPC, ACTIVE cleared. -/
def State.returnMgmt (s : State) : State :=
  s.modMgmt (fun m => { m with thread := { m.thread with pc := m.thread.epc, causeActive := false } })

/-! ## What the meaning of an instruction answers for one hart -/

inductive Res where
  | ok (s : State)                      -- done, on to the next instruction
  | jump (s : State) (pc : BitVec 64)   -- done, control goes to `pc`
  | trap (c : Cause) (v : Pair)         -- no effect but the trap (R45)
  | trapIn (s : State) (c : Cause) (v : Pair) -- the same, after free choices or a translation kept in `s`
  | park (s : State) (w : Wait)         -- parked; the wake completes it (R297)
  | stall (s : State)                   -- not done; the thread tries again after some unit has moved (R284)
  deriving DecidableEq, Repr

/-- What follows an instruction that is done. -/
def Res.andThen (r : Res) (f : State → State) : Res :=
  match r with
  | .ok s => .ok (f s)
  | r => r

/-- Run `k` where the named fields raise no trap. -/
def guardOps (s : State) (h : Hart) (us : List OpUse) (k : Res) : Res :=
  match opCheck s h us with
  | some (c, v) => .trap c v
  | none => k

/-- The first condition that holds, of a list in ascending order of codes; else `k` (R45). -/
def firstTrap (cs : List (Bool × Cause × Pair)) (k : Res) : Res :=
  match cs.find? (·.1) with
  | some (_, c, v) => .trap c v
  | none => k

/-- The field number of the first poisoned operand, if any: TVAL of POISON_USE (R390). -/
def poisonField (ps : List (Bool × Nat)) : Option Pair :=
  (ps.find? (·.1)).map (fun p => BitVec.ofNat 64 p.2)

/-- A POISON_USE condition for `firstTrap`. -/
def poisonTrap (ps : List (Bool × Nat)) : Bool × Cause × Pair :=
  ((poisonField ps).isSome, .poisonUse, (poisonField ps).getD 0)

/-! ## Running an instruction for the current agent -/

inductive Presence where
  | all | compute | mgmt
  deriving DecidableEq, Repr

def Presence.on : Presence → Agent → Bool
  | .all, _ => true
  | .compute, .mgmt => false
  | .compute, _ => true
  | .mgmt, .mgmt => true
  | .mgmt, _ => false

/-- UND where the opcode is not present on the core, PRIV below its level (R63, R65). -/
def gate (lvl : Nat) (p : Presence) (a : Agent) : Option Cause :=
  if !p.on a then some .und else if a.level < lvl then some .priv else none

/-- EPC of a trap: the next instruction for SVC and TRAP, else the trapping one (R46). -/
def trapEpc (c : Cause) (pc npc : BitVec 64) : BitVec 64 :=
  if c = .svcCall || c = .trapInsn then npc else pc

/-- The end of an instruction of a user thread or of the management core. A transfer to the same or a lower address hands
the turn on, so that units and other agents move while a thread loops (log 2). -/
def finish (h : Hart) (s : State) (pc npc : BitVec 64) (r : Res) : State :=
  match r with
  | .ok s' => s'.modThread h (fun th => { th with pc := npc, age := 0 })
  | .jump s' p => { s'.modThread h (fun th => { th with pc := p, age := 0 }) with stalled := decide (p.toNat ≤ pc.toNat) }
  | .trap c v => s.takeTrap h c v (trapEpc c pc npc)
  | .trapIn s' c v => s'.takeTrap h c v (trapEpc c pc npc)
  | .park s' w => s'.modThread h (fun th => { th.park w npc with age := 0 })
  | .stall s' => { s' with stalled := true }

/-- What the lanes of a supervisor group have done so far: the state, the next pc of each lane, the trap to raise
(lowest code, then lowest lane), the lanes that are done, and whether a lane stalls. -/
structure GroupRun where
  s : State
  pcs : List (BitVec 64)
  trap : Option (Cause × Pair)
  ended : List Nat
  stalled : Bool
  parked : Bool := false

/-- The trap with the lower code; the earlier lane's among equals (R45). -/
def lowerTrap (old : Option (Cause × Pair)) (c : Cause) (v : Pair) : Option (Cause × Pair) :=
  match old with
  | some (c0, v0) => if c.code.toNat < c0.code.toNat then some (c, v) else some (c0, v0)
  | none => some (c, v)

/-- One lane of a supervisor group's instruction. -/
def groupLane (lane : Hart → State → Res) (c : Nat) (pc npc : BitVec 64) (g : GroupRun) (l : Nat) : GroupRun :=
  let h : Hart := .sup c l
  match lane h g.s with
  | .ok s' => { g with s := s', pcs := g.pcs ++ [npc], ended := g.ended ++ [l] }
  | .jump s' p => { g with s := s', pcs := g.pcs ++ [p], ended := g.ended ++ [l] }
  | .park s' w =>
    { g with s := s'.modThread h (fun th => { th.park w npc with pc := pc }), pcs := g.pcs ++ [npc], ended := g.ended ++ [l]
             parked := true }
  | .trap cause v => { g with trap := lowerTrap g.trap cause v }
  | .trapIn s' cause v => { g with s := { g.s with free := s'.free }, trap := lowerTrap g.trap cause v }
  | .stall s' => { g with s := s', stalled := true }

/-- The pc of a group whose lanes ask for several: the lanes share one PC (R24) and the spec states no choice, so it is
that of a free lane (log 10). -/
def groupPc (s : State) (pcs : List (BitVec 64)) (npc : BitVec 64) : BitVec 64 × State :=
  match pcs with
  | [] => (npc, s)
  | p :: rest =>
    if rest.all (· == p) then (p, s)
    else
      let (v, s') := s.freePair
      ((p :: rest).getD (v.toNat % (p :: rest).length) p, s')

/-- The lanes of a group that have still to do its instruction, in ascending order. -/
def Core.lanesLeft (k : Core) : List Nat := allLanes.filter (fun l => !k.lanesDone.contains l)

/-- A park of some lanes is the group's: every other lane parks with it, its window emptied (R24, log 82). -/
def Core.parkOthers (k : Core) : Core :=
  let ready := allLanes.filter (fun l => (k.thread (supKey l)).run == .ready)
  if ready.length = 64 then k else ready.foldl (fun k l => k.modThread (supKey l) (·.clearWindow.withGroup)) k

/-- The instruction of a supervisor group: its lanes in ascending order (R24, R341). A trap of one lane is the group's, and
nothing else of this try takes effect; a lane that stalls tries again alone with the other lanes that stalled (R235, log 35). -/
def issueGroup (lane : Hart → State → Res) (c : Nat) (len : Nat) (s : State) : State :=
  let pc := (s.core c).supPc
  let npc := pc + BitVec.ofNat 64 len
  let g := (s.core c).lanesLeft.foldl (groupLane lane c pc npc) { s, pcs := [], trap := none, ended := [], stalled := false }
  match g.trap with
  | some (cause, v) =>
    ({ s with free := g.s.free }.modCore c (fun k => { k with lanesDone := [] })).trapSup c cause v (trapEpc cause pc npc)
  | none =>
    if g.stalled then { g.s.modCore c (fun k => { k with lanesDone := k.lanesDone ++ g.ended }) with stalled := true }
    else
      let parks := g.parked || (s.core c).lanesDone.any (fun l => (s.thread (.sup c l)).run ≠ .ready)
      let (p, s') := groupPc (if parks then g.s.modCore c (·.parkOthers) else g.s) (g.pcs ++ (s.core c).lanesDone.map (fun _ => npc)) npc
      { s'.modCore c (fun k => { k with supPc := p, lanesDone := [] }) with stalled := decide (p.toNat ≤ pc.toNat) }

/-- Run instruction `i`, whose meaning for one hart is `lane`, for the current agent. -/
def issueState (lvl : Nat) (p : Presence) (i : Instr) (lane : Hart → State → Res) (s : State) : State :=
  match gate lvl p s.cur with
  | some cause =>
    let v : Pair := i.first32.setWidth 64
    match s.cur with
    | .user c t => s.trapUser c t cause v (s.pc (.user c t))
    | .sup c => s.trapSup c cause v (s.core c).supPc
    | .mgmt => s.trapMgmt cause v s.mgmt.thread.pc
  | none =>
    match s.cur with
    | .user c t =>
      let pc := s.pc (.user c t)
      finish (.user c t) s pc (pc + BitVec.ofNat 64 i.len) (lane (.user c t) s)
    | .sup c => issueGroup lane c i.len s
    | .mgmt =>
      let pc := s.mgmt.thread.pc
      finish .mgmt s pc (pc + BitVec.ofNat 64 i.len) (lane .mgmt s)

/-- The same as the outcome of a step. -/
def issue (lvl : Nat) (p : Presence) (i : Instr) (lane : Hart → State → Res) (s : State) :
    Host.Outcome State Fault Refusal := .next (issueState lvl p i lane s)

end Sys2Proof.Machine
end

