-- ==== Sys2Proof/Machine/Operands.lean ====
section
/-! DEFINITION. Packed integer elements (R82, R132), their exact readings, clamping and narrowing, and the widening of an
immediate to packed elements (R59). -/

namespace Sys2Proof.Machine

/-- Element width in bits (R132). -/
def ewWidth : EW → Nat
  | .w32 => 32 | .h2 => 16 | .q4 => 8

/-- Element `i` of width `w`. -/
def elem (w : Nat) (x : Word) (i : Nat) : Nat := x.toNat / 2 ^ (w * i) % 2 ^ w

/-- A word from its elements of width `w`, element 0 first. -/
def pack (w : Nat) (l : List Nat) : Word := BitVec.ofNat 32 (l.foldr (fun e acc => e % 2 ^ w + 2 ^ w * acc) 0)

/-- The reading of an element: signed, or unsigned with U (R136). -/
def readEl (u : Bool) (w e : Nat) : Int := if u || e < 2 ^ (w - 1) then (e : Int) else (e : Int) - 2 ^ w

/-- The bounds of a reading (R136). -/
def loBound (u : Bool) (w : Nat) : Int := if u then 0 else -(2 ^ (w - 1))
def hiBound (u : Bool) (w : Nat) : Int := if u then 2 ^ w - 1 else 2 ^ (w - 1) - 1

/-- Reduce modulo 2^w. -/
def narrow (w : Nat) (t : Int) : Nat := (t % 2 ^ w).toNat

/-- Clamp to the nearest bound when saturating; the flag says whether it clamped (R138). -/
def clampIf (sat u : Bool) (w : Nat) (t : Int) : Int × Bool :=
  if sat && t < loBound u w then (loBound u w, true)
  else if sat && hiBound u w < t then (hiBound u w, true)
  else (t, false)

/-- Combine two words element by element; each element gives an exact value and whether it clamped. -/
def zipEl (w : Nat) (g : Nat → Nat → Int × Bool) (a b : Word) : Word × FlagSet :=
  let rs := (List.range (32 / w)).map (fun i => g (elem w a i) (elem w b i))
  (pack w (rs.map (fun r => narrow w r.1)), satIf (rs.any (·.2)))

/-- An integer immediate in every element of a packed operand; every other source as a 32-bit one (R59). -/
def State.opInt (s : State) (h : Hart) (ew : EW) (o : Opd) : Word :=
  match o with
  | .imm v =>
    let w := ewWidth ew
    pack w (List.replicate (32 / w) (narrow w v))
  | o => s.op32 h o

/-- The poison of a result: that of any register or latch source read (R32, R134). -/
def State.opsPoison (s : State) (h : Hart) (us : List OpUse) : Bool := us.any (fun u => s.opPoison h u.1 u.2)

end Sys2Proof.Machine
end

