-- ==== Sys2Proof/Machine/Numbers.lean ====
section
/-! DEFINITION. Number formats and rounding (04_number_formats R80–R101): decoding codes, `RoundToFormat`, arithmetic on
decoded values, comparison, conversion, and sum cells. Every finite value is an exact dyadic number; a rounding happens
once, at the end. -/

namespace Sys2Proof.Machine

/-! ## Formats (Table 4-1) -/

/-- Mantissa bits, bias, and the magnitude codes of the largest finite value. -/
structure FloatFmt where
  ebits : Nat
  mbits : Nat
  bias : Int
  maxCode : Nat
  hasInf : Bool
  /-- The magnitude code of the canonical NaN, in a format that holds one (Table 4-4). -/
  nan : Option Nat
  /-- FTZ applies (R88, R89). -/
  flushes : Bool
  deriving DecidableEq, Repr

def fF32 : FloatFmt := ⟨8, 23, 127, 0x7F7FFFFF, true, some 0x7FC00000, true⟩
def fF16 : FloatFmt := ⟨5, 10, 15, 0x7BFF, true, some 0x7E00, true⟩
def fBF16 : FloatFmt := ⟨8, 7, 127, 0x7F7F, true, some 0x7FC0, true⟩
def fE4M3 : FloatFmt := ⟨4, 3, 7, 0x7E, false, some 0x7F, false⟩
def fE5M2 : FloatFmt := ⟨5, 2, 15, 0x7B, true, some 0x7E, false⟩
def fE3M2 : FloatFmt := ⟨3, 2, 3, 0x1F, false, none, false⟩
def fE2M3 : FloatFmt := ⟨2, 3, 1, 0x1F, false, none, false⟩
def fE2M1 : FloatFmt := ⟨2, 1, 1, 0x7, false, none, false⟩

/-- A format of Table 3-10: floating, or an integer of some width. -/
inductive NumFmt where
  | float (f : FloatFmt)
  | int (unsigned : Bool) (w : Nat)
  deriving DecidableEq, Repr

def numFmt : Fmt → NumFmt
  | .f32 => .float fF32 | .f16 => .float fF16 | .bf16 => .float fBF16 | .e4m3 => .float fE4M3 | .e5m2 => .float fE5M2
  | .e3m2 => .float fE3M2 | .e2m3 => .float fE2M3 | .e2m1 => .float fE2M1
  | .i8 => .int false 8 | .i4 => .int false 4 | .i32 => .int false 32 | .ui32 => .int true 32

/-- Width of a code in bits. -/
def FloatFmt.width (f : FloatFmt) : Nat := 1 + f.ebits + f.mbits
def NumFmt.width : NumFmt → Nat
  | .float f => f.width
  | .int _ w => w

/-- The exponent of the least significant bit of a subnormal. -/
def FloatFmt.qmin (f : FloatFmt) : Int := 1 - f.bias - f.mbits

/-! ## Values -/

/-- A decoded value: `fin neg m e` is (−1)^neg × m × 2^e, and `m = 0` is a signed zero. -/
inductive FVal where
  | nan (signalling : Bool)
  | inf (neg : Bool)
  | fin (neg : Bool) (m : Nat) (e : Int)
  deriving DecidableEq, Repr

/-- The sign bit of a code. -/
def FloatFmt.sign (f : FloatFmt) (code : Nat) : Bool := code / 2 ^ (f.ebits + f.mbits) % 2 = 1

/-- Decode a code exactly (R80). -/
def FloatFmt.decode (f : FloatFmt) (code : Nat) : FVal :=
  let neg := f.sign code
  let mag := code % 2 ^ (f.ebits + f.mbits)
  let m := mag % 2 ^ f.mbits
  let e := mag / 2 ^ f.mbits
  if mag ≤ f.maxCode then
    if e = 0 then .fin neg m f.qmin else .fin neg (2 ^ f.mbits + m) (f.qmin + (e - 1 : Nat))
  else if f.hasInf && m = 0 then .inf neg
  else .nan (f.hasInf && m < 2 ^ (f.mbits - 1))

/-- Decode under FTZ (R89): a subnormal FP32, FP16 or BF16 input reads as a zero of its sign. -/
def FloatFmt.read (f : FloatFmt) (ftz : Bool) (code : Nat) : FVal :=
  match f.decode code with
  | .fin neg m e => if ftz && f.flushes && m < 2 ^ f.mbits then .fin neg 0 e else .fin neg m e
  | v => v

/-- The code with a sign and a magnitude. -/
def FloatFmt.put (f : FloatFmt) (neg : Bool) (mag : Nat) : Nat := (if neg then 2 ^ (f.ebits + f.mbits) else 0) + mag

/-- The code of an infinity. -/
def FloatFmt.infCode (f : FloatFmt) (neg : Bool) : Nat := f.put neg ((2 ^ f.ebits - 1) * 2 ^ f.mbits)

/-- The canonical NaN (R90). -/
def FloatFmt.nanCode (f : FloatFmt) : Nat := f.nan.getD 0

/-! ## Rounding (R87, R88) -/

/-- Rounding directions. -/
inductive Dir where
  | rne | rtz | rup | rdn
  deriving DecidableEq, Repr

def dirOf : Nat → Dir
  | 0 => .rne | 1 => .rtz | 2 => .rup | _ => .rdn

/-- The direction of an instruction (R96): its RM modifier, or FMODE.RM (bits 1:0). -/
def rmDir (m : RMod) (fmode : BitVec 3) : Dir :=
  match m with
  | .fmode => dirOf (fmode.toNat % 4)
  | .rne => .rne
  | .rtz => .rtz
  | .rup => .rup
  | .rdn => .rdn

/-- FMODE.FTZ is bit 2. -/
def ftzOf (fmode : BitVec 3) : Bool := fmode.getLsbD 2

/-- Round the magnitude m × 2^−k to an integer. -/
def roundShift (d : Dir) (neg : Bool) (m k : Nat) : Nat :=
  let q := m / 2 ^ k
  let r := m % 2 ^ k
  let up := match d with
    | .rne => decide (2 ^ k < 2 * r) || (decide (2 * r = 2 ^ k) && q % 2 = 1)
    | .rtz => false
    | .rup => !neg && r ≠ 0
    | .rdn => neg && r ≠ 0
  if up then q + 1 else q

/-- Round m × 2^e to a multiple of 2^qe: the multiple, and whether it is exact. -/
def roundAt (d : Dir) (neg : Bool) (m : Nat) (e qe : Int) : Nat × Bool :=
  if qe ≤ e then (m * 2 ^ (e - qe).toNat, true)
  else
    let k := (qe - e).toNat
    (roundShift d neg m k, m % 2 ^ k = 0)

/-- Does an overflow of this sign go to the infinity (R88)? -/
def toInf (d : Dir) (neg : Bool) : Bool :=
  match d with
  | .rne => true
  | .rtz => false
  | .rup => !neg
  | .rdn => neg

/-- `RoundToFormat` (R88) of (−1)^neg × m × 2^e, m ≠ 0: the code and the flags. -/
def FloatFmt.round (f : FloatFmt) (d : Dir) (ftz sat neg : Bool) (m : Nat) (e : Int) : Nat × FlagSet :=
  let te : Int := e + (m.log2 : Int) - f.mbits
  let t := (roundAt d neg m e te).1
  if f.qmin ≤ te && f.maxCode < (te - f.qmin).toNat * 2 ^ f.mbits + t then
    if f.hasInf && !sat && toInf d neg then (f.infCode neg, flOF ||| flNX)
    else (f.put neg f.maxCode, flOF ||| flNX ||| (if !f.hasInf || sat then flSAT else 0))
  else
    let ze := max te f.qmin
    let (z, exact) := roundAt d neg m e ze
    let tiny := te < f.qmin && !(te = f.qmin - 1 && t = 2 ^ (f.mbits + 1))
    if tiny && ftz && f.flushes then (f.put neg 0, flUF ||| flNX)
    else
      let mag := (ze - f.qmin).toNat * 2 ^ f.mbits + z
      (f.put neg mag, if exact then 0 else if tiny then flUF ||| flNX else flNX)

/-! ## Exact arithmetic on finite values -/

/-- The signed integer of a finite value at quantum 2^q, q no greater than its exponent. -/
def signedAt (neg : Bool) (m : Nat) (e q : Int) : Int :=
  let n : Int := (m * 2 ^ (e - q).toNat : Nat)
  if neg then -n else n

/-- The exact sum of two finite values. A zero sum is signed per R87: the common sign of two zeros, else + except − under
RDN. -/
def addExact (d : Dir) (an : Bool) (am : Nat) (ae : Int) (bn : Bool) (bm : Nat) (be : Int) : FVal :=
  if am = 0 && bm = 0 then .fin (if an = bn then an else decide (d = .rdn)) 0 0
  else if am = 0 then .fin bn bm be
  else if bm = 0 then .fin an am ae
  else
    let q := min ae be
    let t := signedAt an am ae q + signedAt bn bm be q
    if t = 0 then .fin (decide (d = .rdn)) 0 0 else .fin (t < 0) t.natAbs q

/-- A result: a value still to be rounded, and the flags raised so far. -/
abbrev ExactRes := FVal × FlagSet

/-- IV when an input is a signalling NaN (R91). -/
def ivIf (b : Bool) : FlagSet := if b then flIV else 0
def FVal.sNaN : FVal → Bool
  | .nan s => s
  | _ => false
def FVal.isNaN : FVal → Bool
  | .nan _ => true
  | _ => false

/-- The negated value. -/
def FVal.negate : FVal → FVal
  | .nan s => .nan s
  | .inf n => .inf (!n)
  | .fin n m e => .fin (!n) m e

/-- A + B (R155). -/
def addVal (d : Dir) (a b : FVal) : ExactRes :=
  match a, b with
  | .nan s, b => (.nan false, ivIf (s || b.sNaN))
  | _, .nan s => (.nan false, ivIf s)
  | .inf n, .inf n' => if n = n' then (.inf n, 0) else (.nan false, flIV)
  | .inf n, .fin .. => (.inf n, 0)
  | .fin .., .inf n => (.inf n, 0)
  | .fin an am ae, .fin bn bm be => (addExact d an am ae bn bm be, 0)

/-- A × B (R155). -/
def mulVal (a b : FVal) : ExactRes :=
  match a, b with
  | .nan s, b => (.nan false, ivIf (s || b.sNaN))
  | _, .nan s => (.nan false, ivIf s)
  | .inf n, .inf n' => (.inf (n ^^ n'), 0)
  | .inf n, .fin n' m _ => if m = 0 then (.nan false, flIV) else (.inf (n ^^ n'), 0)
  | .fin n m _, .inf n' => if m = 0 then (.nan false, flIV) else (.inf (n ^^ n'), 0)
  | .fin n m e, .fin n' m' e' => (.fin (n ^^ n') (m * m') (e + e'), 0)

/-- A × B + C, rounded once (R155): 0 × ∞ raises IV even beside a quiet NaN C. -/
def fmaVal (d : Dir) (a b c : FVal) : ExactRes :=
  let p := mulVal a b
  let r := addVal d p.1 c
  (r.1, p.2 ||| r.2)

/-- Round a value into a format: R88 for a finite non-zero value, the canonical NaN and infinities as they are. -/
def FloatFmt.finish (f : FloatFmt) (d : Dir) (ftz : Bool) (r : ExactRes) : Nat × FlagSet :=
  match r.1 with
  | .nan _ => (f.nanCode, r.2)
  | .inf n => (f.infCode n, r.2)
  | .fin n m e =>
    if m = 0 then (f.put n 0, r.2)
    else
      let (c, fl) := f.round d ftz false n m e
      (c, r.2 ||| fl)

/-! ## Order (R156, R157) -/

/-- Compare two values that are not NaNs; zeros are equal. -/
def cmpVal (a b : FVal) : Ordering :=
  match a, b with
  | .inf n, .inf n' => if n = n' then .eq else if n then .lt else .gt
  | .inf n, _ => if n then .lt else .gt
  | _, .inf n => if n then .gt else .lt
  | .fin an am ae, .fin bn bm be =>
    let q := min ae be
    compare (signedAt an am ae q) (signedAt bn bm be q)
  | _, _ => .eq

/-- The sign of a value that is not a NaN. -/
def FVal.neg : FVal → Bool
  | .nan _ => false
  | .inf n => n
  | .fin n _ _ => n

/-- a < b with −0 below +0 (R156). -/
def ltVal (a b : FVal) : Bool :=
  match cmpVal a b with
  | .lt => true
  | .eq => a.neg && !b.neg
  | .gt => false

/-- Is a code a zero or a subnormal that FTZ flushes? The code as R89 reads it. -/
def FloatFmt.flushCode (f : FloatFmt) (ftz : Bool) (code : Nat) : Nat :=
  if ftz && f.flushes && code % 2 ^ (f.ebits + f.mbits) < 2 ^ f.mbits then f.put (f.sign code) 0 else code

/-- FMIN, FMAX, FMINP, FMAXP (Table 7-2): `prop` propagates NaNs. -/
def FloatFmt.minMax (f : FloatFmt) (ftz isMax prop : Bool) (a b : Nat) : Nat × FlagSet :=
  let va := f.read ftz a
  let vb := f.read ftz b
  let fl := ivIf (va.sNaN || vb.sNaN)
  let ca := f.flushCode ftz a
  let cb := f.flushCode ftz b
  let r :=
    if va.isNaN && vb.isNaN then f.nanCode
    else if va.isNaN then (if prop then f.nanCode else cb)
    else if vb.isNaN then (if prop then f.nanCode else ca)
    else if isMax then (if ltVal va vb then cb else ca)
    else (if ltVal vb va then cb else ca)
  (r, fl)

/-- FCMP (Table 7-3). -/
def FloatFmt.compare (f : FloatFmt) (ftz : Bool) (c : Cond) (a b : Nat) : Bool × FlagSet :=
  let va := f.read ftz a
  let vb := f.read ftz b
  let unord := va.isNaN || vb.isNaN
  let o := cmpVal va vb
  let holds := match c with
    | .eq => !unord && o == .eq
    | .ne => unord || o != .eq
    | .lt => !unord && o == .lt
    | .le => !unord && o != .gt
    | .gt => !unord && o == .gt
    | .ge => !unord && o != .lt
    | .un => unord
    | .od => !unord
  let quietIv := match c with
    | .lt | .le | .gt | .ge => true
    | _ => false
  (holds, ivIf (va.sNaN || vb.sNaN || (unord && quietIv)))

/-- FCLASS (Table 7-4): the number of the bit set. -/
def FloatFmt.classBit (f : FloatFmt) (code : Nat) : Nat :=
  match f.decode code with
  | .nan s => if s then 8 else 9
  | .inf n => if n then 0 else 7
  | .fin n m _ =>
    if m = 0 then (if n then 3 else 4)
    else if m < 2 ^ f.mbits then (if n then 2 else 5)
    else if n then 1 else 6

/-- FRND (R159). -/
def FloatFmt.roundIntegral (f : FloatFmt) (d : Dir) (ftz : Bool) (code : Nat) : Nat × FlagSet :=
  match f.read ftz code with
  | .nan s => (f.nanCode, ivIf s)
  | .inf n => (f.infCode n, 0)
  | .fin n m e =>
    let (q, exact) := roundAt d n m e 0
    if 0 ≤ e || exact then (f.flushCode ftz code, 0)
    else if q = 0 then (f.put n 0, flNX)
    else ((f.round .rtz false false n q 0).1, flNX)

/-! ## Conversion (R92, R93, Table 4-5) -/

/-- An integer to a float format; zero gives +0. -/
def FloatFmt.ofInt (f : FloatFmt) (d : Dir) (ftz sat : Bool) (v : Int) : Nat × FlagSet :=
  if v = 0 then (0, 0) else f.round d ftz sat (v < 0) v.natAbs 0

/-- A float value to a float format. -/
def FloatFmt.ofVal (f : FloatFmt) (d : Dir) (ftz sat : Bool) (v : FVal) : Nat × FlagSet :=
  match v with
  | .nan s => match f.nan with
    | some c => (c, ivIf s)
    | none => (f.put true f.maxCode, flIV ||| flNL)
  | .inf n => if f.hasInf then (f.infCode n, 0) else (f.put n f.maxCode, flSAT)
  | .fin n m e => if m = 0 then (f.put n 0, 0) else f.round d ftz sat n m e

/-- A float value to an integer of `w` bits. -/
def intOfVal (d : Dir) (u : Bool) (w : Nat) (v : FVal) : Nat × FlagSet :=
  match v with
  | .nan _ => (0, flIV ||| flNL)
  | .inf n => (narrow w (if n then loBound u w else hiBound u w), flIV)
  | .fin n m e =>
    let (q, exact) := roundAt d n m e 0
    let t : Int := if n then -(q : Int) else q
    if t < loBound u w then (narrow w (loBound u w), flIV)
    else if hiBound u w < t then (narrow w (hiBound u w), flIV)
    else (narrow w t, if exact then 0 else flNX)

/-- Convert one code (Table 4-5). -/
def convert (d : Dir) (ftz sat : Bool) (src dst : NumFmt) (code : Nat) : Nat × FlagSet :=
  match src, dst with
  | .float f, .float g => g.ofVal d ftz sat (f.read ftz code)
  | .float f, .int u w => intOfVal d u w (f.read ftz code)
  | .int u w, .float g => g.ofInt d ftz sat (readEl u w code)
  | .int u w, .int u' w' =>
    let (t, clamped) := clampIf sat u' w' (readEl u w code)
    (narrow w' t, satIf clamped)

/-! ## Immediates in floating operands (R59) -/

/-- An integer in a float format: rounded by RNE, or the maximum finite value of its sign beyond the format. -/
def FloatFmt.imm (f : FloatFmt) (v : Int) : Nat := (f.ofInt .rne false true v).1

/-- Elements of `w` bits, `n` of them, from element 0 up. -/
def replicateCode (w n code : Nat) : Word := pack w (List.replicate n code)

/-- An operand in a number format: an immediate in each of the elements of Table 7-5, everything else as 32 bits. -/
def State.opNum (s : State) (h : Hart) (nf : NumFmt) (cap : Nat) (o : Opd) : Word :=
  match o with
  | .imm v => match nf with
    | .float f => replicateCode f.width cap (f.imm v)
    | .int _ w => replicateCode w cap (narrow w v)
  | o => s.op32 h o

/-! ## Block and band scales (R83–R85) -/

/-- E8M0: 2^(c−127); code 0xFF is NaN. -/
def e8m0 (c : Nat) : FVal := if c = 255 then .nan false else .fin false 1 ((c : Int) - 127)

/-- E3M5. -/
def e3m5 (c : Nat) : FVal :=
  let e := c / 32 % 8
  let m := c % 32
  if e = 0 then .fin false m (-7) else .fin false (32 + m) ((e : Int) - 8)

/-- A band scale is a BF16 value, never flushed. -/
def bandScale (c : Nat) : FVal := fBF16.decode c

/-! ## Sum cells (R99–R101) -/

/-- The exponent S of a cell: bits 126:120, two's complement. -/
def cellScale (cell : BitVec 128) : Int := readEl false 7 (bget cell 120 7)

/-- The integer I of a cell: bits 119:0. -/
def cellInt (cell : BitVec 128) : Int := readEl false 120 (bget cell 0 120)

/-- The cell after one addend: I + RoundRNE(x × 2^−S) modulo 2^120 (R100). A NaN or an infinity changes nothing. -/
def cellAdd (cell : BitVec 128) (x : Word) : BitVec 128 :=
  match fF32.decode x.toNat with
  | .fin n m e =>
    let q := (roundAt .rne n m e (cellScale cell)).1
    let t : Int := if n then -(q : Int) else q
    bput cell 0 120 (narrow 120 (cellInt cell + t))
  | _ => cell

/-- The value that LD.sc returns, with its flags (R101). -/
def cellRead (cell : BitVec 128) : Word × FlagSet :=
  let i := cellInt cell
  if i = 0 then (0, 0)
  else
    let (c, fl) := fF32.round .rne false false (i < 0) i.natAbs (cellScale cell)
    (BitVec.ofNat 32 c, fl)

end Sys2Proof.Machine
end

