-- ==== Sys2Proof/Machine/Float.lean ====
section
/-! DEFINITION. The floating-point instructions (07_float_and_crosslane R152–R160): class 001, with their C and W short
forms. -/

namespace Sys2Proof.Machine

/-! ## Packing (R153, R154) -/

def pkFmt : PK → FloatFmt
  | .f32 => fF32 | .bf16x2 => fBF16 | .f16x2 => fF16
def pkCap : PK → Nat
  | .f32 => 1 | _ => 2
def State.fmode (s : State) (h : Hart) : BitVec 3 := (s.thread h).fmode

/-- Apply an operation to each of `n` elements of `w` bits; the flags of all elements are ORed (R94). -/
def mapEl (w n : Nat) (g : Nat → Nat × FlagSet) : Word × FlagSet :=
  let rs := (List.range n).map g
  (pack w (rs.map (·.1)), rs.foldl (fun fl r => fl ||| r.2) 0)

/-- A packed float operand. -/
def State.opFloat (s : State) (h : Hart) (pk : PK) (o : Opd) : Word := s.opNum h (.float (pkFmt pk)) (pkCap pk) o

/-- d, a, b of one packing; `g` gets the format, the FTZ mode and the direction. -/
def laneF2 (f : Fields) (m : FMod) (g : FloatFmt → Dir → Bool → Nat → Nat → Nat × FlagSet) (h : Hart) (s : State) : Res :=
  let us : List OpUse := [(f.a, .w32), (f.b, .w32)]
  guardOps s h (us ++ f.dst .w32) <|
    let ft := pkFmt m.pk
    let w := ft.width
    let a := s.opFloat h m.pk f.a
    let b := s.opFloat h m.pk f.b
    let r := mapEl w (pkCap m.pk) (fun i => g ft (rmDir m.rm (s.fmode h)) (ftzOf (s.fmode h)) (elem w a i) (elem w b i))
    .ok ((s.raise h r.2).put32 h f.dest r.1 (s.opsPoison h us))

/-! ## Arithmetic (R155) -/

def faddEl (ft : FloatFmt) (d : Dir) (ftz : Bool) (a b : Nat) : Nat × FlagSet :=
  ft.finish d ftz (addVal d (ft.read ftz a) (ft.read ftz b))
def fsubEl (ft : FloatFmt) (d : Dir) (ftz : Bool) (a b : Nat) : Nat × FlagSet :=
  ft.finish d ftz (addVal d (ft.read ftz a) (ft.read ftz b).negate)
def fmulEl (ft : FloatFmt) (d : Dir) (ftz : Bool) (a b : Nat) : Nat × FlagSet :=
  ft.finish d ftz (mulVal (ft.read ftz a) (ft.read ftz b))
def ffmaEl (ft : FloatFmt) (d : Dir) (ftz : Bool) (a b c : Nat) : Nat × FlagSet :=
  ft.finish d ftz (fmaVal d (ft.read ftz a) (ft.read ftz b) (ft.read ftz c))

def laneFadd (f : Fields) (m : FMod) : Hart → State → Res := laneF2 f m faddEl
def laneFsub (f : Fields) (m : FMod) : Hart → State → Res := laneF2 f m fsubEl
def laneFmul (f : Fields) (m : FMod) : Hart → State → Res := laneF2 f m fmulEl
def laneFfma (f : Fields) (m : FMod) (h : Hart) (s : State) : Res :=
  let us : List OpUse := [(f.a, .w32), (f.b, .w32), (f.c, .w32)]
  guardOps s h (us ++ f.dst .w32) <|
    let ft := pkFmt m.pk
    let w := ft.width
    let a := s.opFloat h m.pk f.a
    let b := s.opFloat h m.pk f.b
    let c := s.opFloat h m.pk f.c
    let r := mapEl w (pkCap m.pk) (fun i =>
      ffmaEl ft (rmDir m.rm (s.fmode h)) (ftzOf (s.fmode h)) (elem w a i) (elem w b i) (elem w c i))
    .ok ((s.raise h r.2).put32 h f.dest r.1 (s.opsPoison h us))

/-! ## Minimum and maximum (R156) -/

def laneFmin (f : Fields) (m : FMod) : Hart → State → Res := laneF2 f m (fun ft _ ftz => ft.minMax ftz false false)
def laneFmax (f : Fields) (m : FMod) : Hart → State → Res := laneF2 f m (fun ft _ ftz => ft.minMax ftz true false)
def laneFminp (f : Fields) (m : FMod) : Hart → State → Res := laneF2 f m (fun ft _ ftz => ft.minMax ftz false true)
def laneFmaxp (f : Fields) (m : FMod) : Hart → State → Res := laneF2 f m (fun ft _ ftz => ft.minMax ftz true true)

/-! ## Compare and classify (R157, R158) -/

def laneFcmp (f : Fields) (m : FMod) : Hart → State → Res := laneF2 f m (fun ft _ ftz a b =>
  let (t, fl) := ft.compare ftz m.cond a b
  (if t then (if m.ones then 2 ^ ft.width - 1 else 1) else 0, fl))

def laneFclass (f : Fields) (m : FMod) (h : Hart) (s : State) : Res :=
  let us : List OpUse := [(f.b, .w32)]
  guardOps s h (us ++ f.dst .w32) <|
    let ft := pkFmt m.pk
    let b := s.opFloat h m.pk f.b
    let r := mapEl ft.width (pkCap m.pk) (fun i => (2 ^ ft.classBit (elem ft.width b i), 0))
    .ok (s.put32 h f.dest r.1 (s.opsPoison h us))

/-! ## Rounding to integral and conversion (R159, R160) -/

/-- Elements that a register holds of a format (Table 7-5). -/
def fmtCap : Fmt → Nat
  | .f32 | .i32 | .ui32 => 1
  | .f16 | .bf16 => 2
  | .e4m3 | .e5m2 | .i8 | .e3m2 | .e2m3 => 4
  | .e2m1 | .i4 => 8

def laneFrnd (f : Fields) (m : CvtMod) (h : Hart) (s : State) : Res :=
  let us : List OpUse := [(f.b, .w32)]
  guardOps s h (us ++ f.dst .w32) <|
    let nf := numFmt m.df
    let n := fmtCap m.df
    let b := s.opNum h nf n f.b
    let r := mapEl nf.width n (fun i => match nf with
      | .float ft => ft.roundIntegral (rmDir m.rm (s.fmode h)) (ftzOf (s.fmode h)) (elem nf.width b i)
      | .int .. => (elem nf.width b i, 0))
    .ok ((s.raise h r.2).put32 h f.dest r.1 (s.opsPoison h us))

def laneCvt (f : Fields) (m : CvtMod) (h : Hart) (s : State) : Res :=
  let us : List OpUse := [(f.b, .w32)]
  guardOps s h (us ++ f.dst .w32) <|
    let src := numFmt m.sf
    let dst := numFmt m.df
    let b := s.opNum h src (fmtCap m.sf) f.b
    let r := mapEl dst.width (Nat.min (fmtCap m.df) (fmtCap m.sf)) (fun i =>
      convert (rmDir m.rm (s.fmode h)) (ftzOf (s.fmode h)) m.sat src dst (elem src.width b i))
    .ok ((s.raise h r.2).put32 h f.dest r.1 (s.opsPoison h us))

/-! ## The instructions -/

def execFadd (f : DF) (m : FMod) (s : State) : Host.Outcome State Fault Refusal :=
  issue 0 .all (.fadd f m) (laneFadd f.fields m) s
def execFsub (f : DF) (m : FMod) (s : State) : Host.Outcome State Fault Refusal :=
  issue 0 .all (.fsub f m) (laneFsub f.fields m) s
def execFmul (f : DF) (m : FMod) (s : State) : Host.Outcome State Fault Refusal :=
  issue 0 .all (.fmul f m) (laneFmul f.fields m) s
def execFfma (f : DF) (m : FMod) (s : State) : Host.Outcome State Fault Refusal :=
  issue 0 .all (.ffma f m) (laneFfma f.fields m) s
def execFmin (f : DF) (m : FMod) (s : State) : Host.Outcome State Fault Refusal :=
  issue 0 .all (.fmin f m) (laneFmin f.fields m) s
def execFmax (f : DF) (m : FMod) (s : State) : Host.Outcome State Fault Refusal :=
  issue 0 .all (.fmax f m) (laneFmax f.fields m) s
def execFminp (f : DF) (m : FMod) (s : State) : Host.Outcome State Fault Refusal :=
  issue 0 .all (.fminp f m) (laneFminp f.fields m) s
def execFmaxp (f : DF) (m : FMod) (s : State) : Host.Outcome State Fault Refusal :=
  issue 0 .all (.fmaxp f m) (laneFmaxp f.fields m) s
def execFcmp (f : DF) (m : FMod) (s : State) : Host.Outcome State Fault Refusal :=
  issue 0 .all (.fcmp f m) (laneFcmp f.fields m) s
def execFclass (f : DF) (m : FMod) (s : State) : Host.Outcome State Fault Refusal :=
  issue 0 .all (.fclass f m) (laneFclass f.fields m) s
def execFrnd (f : DF) (m : CvtMod) (s : State) : Host.Outcome State Fault Refusal :=
  issue 0 .all (.frnd f m) (laneFrnd f.fields m) s
def execCvt (f : DF) (m : CvtMod) (s : State) : Host.Outcome State Fault Refusal :=
  issue 0 .all (.cvt f m) (laneCvt f.fields m) s
def execFaddC (f : CF) (s : State) : Host.Outcome State Fault Refusal :=
  issue 0 .all (.faddC f) (laneFadd f.floatFields {}) s
def execFsubC (f : CF) (s : State) : Host.Outcome State Fault Refusal :=
  issue 0 .all (.fsubC f) (laneFsub f.floatFields {}) s
def execFmulC (f : CF) (s : State) : Host.Outcome State Fault Refusal :=
  issue 0 .all (.fmulC f) (laneFmul f.floatFields {}) s
def execFmaxC (f : CF) (s : State) : Host.Outcome State Fault Refusal :=
  issue 0 .all (.fmaxC f) (laneFmax f.floatFields {}) s
def execFaddW (f : WF) (s : State) : Host.Outcome State Fault Refusal :=
  issue 0 .all (.faddW f) (laneFadd f.fields {}) s
def execFsubW (f : WF) (s : State) : Host.Outcome State Fault Refusal :=
  issue 0 .all (.fsubW f) (laneFsub f.fields {}) s
def execFmulW (f : WF) (s : State) : Host.Outcome State Fault Refusal :=
  issue 0 .all (.fmulW f) (laneFmul f.fields {}) s
def execFminW (f : WF) (s : State) : Host.Outcome State Fault Refusal :=
  issue 0 .all (.fminW f) (laneFmin f.fields {}) s
def execFmaxW (f : WF) (s : State) : Host.Outcome State Fault Refusal :=
  issue 0 .all (.fmaxW f) (laneFmax f.fields {}) s
def execFaddBf16x2W (f : WF) (s : State) : Host.Outcome State Fault Refusal :=
  issue 0 .all (.faddBf16x2W f) (laneFadd f.fields { pk := .bf16x2 }) s
def execFaddF16x2W (f : WF) (s : State) : Host.Outcome State Fault Refusal :=
  issue 0 .all (.faddF16x2W f) (laneFadd f.fields { pk := .f16x2 }) s
def execFmulBf16x2W (f : WF) (s : State) : Host.Outcome State Fault Refusal :=
  issue 0 .all (.fmulBf16x2W f) (laneFmul f.fields { pk := .bf16x2 }) s
def execFmulF16x2W (f : WF) (s : State) : Host.Outcome State Fault Refusal :=
  issue 0 .all (.fmulF16x2W f) (laneFmul f.fields { pk := .f16x2 }) s
def execFcmpLtW (f : WF) (s : State) : Host.Outcome State Fault Refusal :=
  issue 0 .all (.fcmpLtW f) (laneFcmp f.fields { cond := .lt }) s
def execFcmpLeW (f : WF) (s : State) : Host.Outcome State Fault Refusal :=
  issue 0 .all (.fcmpLeW f) (laneFcmp f.fields { cond := .le }) s
def execFcmpEqW (f : WF) (s : State) : Host.Outcome State Fault Refusal :=
  issue 0 .all (.fcmpEqW f) (laneFcmp f.fields { cond := .eq }) s
def execCvtF32I32W (f : WB) (s : State) : Host.Outcome State Fault Refusal :=
  issue 0 .all (.cvtF32I32W f) (laneCvt f.fields { df := .f32, sf := .i32 }) s
def execCvtI32F32W (f : WB) (s : State) : Host.Outcome State Fault Refusal :=
  issue 0 .all (.cvtI32F32W f) (laneCvt f.fields { df := .i32, sf := .f32 }) s

end Sys2Proof.Machine
end

