-- ==== Sys2Proof/Machine/CrossLane.lean ====
section
/-! DEFINITION. The cross-lane instructions (07_float_and_crosslane R163–R170): arrival, groups and their results. -/

namespace Sys2Proof.Machine

/-! ## Rows (R23) -/

/-- The row and the lane of a hart; the supervisor group is row 0. -/
def rowLane : Hart → Nat × Nat
  | .user _ t => (1 + t / 64, t % 64)
  | .sup _ l => (0, l)
  | .mgmt => (0, 0)

/-- The hart of a core on a lane of a row. -/
def hartAt (c row lane : Nat) : Hart := if row = 0 then .sup c lane else .user c (64 * (row - 1) + lane)

/-- Does a lane of a row hold a thread? -/
def Core.laneHeld (k : Core) (row lane : Nat) : Bool := row = 0 || k.hasThread (64 * (row - 1) + lane)

/-- The lanes of a mask, ascending. -/
def maskLanes (m : BitVec 64) : List Nat := allLanes.filter (fun l => m.getLsbD l)

/-- Has the thread on a lane exited? -/
def Core.laneExited (k : Core) (c row lane : Nat) : Bool :=
  k.laneHeld row lane && (k.thread (hartAt c row lane).key).run == .exited

/-! ## Results of a member (R169, R170) -/

/-- A result: a 32-bit or a pair value, its poison and its flags. -/
structure XOut where
  val : Pair
  wide : Bool
  poison : Bool
  flags : FlagSet := 0
  deriving DecidableEq, Repr

def sumLanes (ls : List Nat) : Pair := ls.foldl (fun v l => v ||| BitVec.ofNat 64 (2 ^ l)) 0

/-- The first value of a floating-point chain, read under R89 and R91. -/
def firstFloat (ftz : Bool) (v : Word) : Nat × FlagSet :=
  let x := fF32.read ftz v.toNat
  if x.isNaN then (fF32.nanCode, ivIf x.sNaN) else (fF32.flushCode ftz v.toNat, 0)

/-- One step of a chain. -/
def chainOp (opc : Opc) (u : Bool) (fmode : BitVec 3) (a b : Word) : Word × FlagSet :=
  let ftz := ftzOf fmode
  let fl (r : Nat × FlagSet) : Word × FlagSet := (BitVec.ofNat 32 r.1, r.2)
  match opc with
  | .add => (a + b, 0)
  | .min => (if readEl u 32 b.toNat < readEl u 32 a.toNat then b else a, 0)
  | .max => (if readEl u 32 a.toNat < readEl u 32 b.toNat then b else a, 0)
  | .and => (a &&& b, 0)
  | .or => (a ||| b, 0)
  | .xor => (a ^^^ b, 0)
  | .exch => (b, 0)
  | .fadd => fl (faddEl fF32 (dirOf (fmode.toNat % 4)) ftz a.toNat b.toNat)
  | .fmin => fl (fF32.minMax ftz false false a.toNat b.toNat)
  | .fmax => fl (fF32.minMax ftz true false a.toNat b.toNat)

/-- The identity of an empty exclusive chain (R170). -/
def chainId (opc : Opc) (u : Bool) : Word :=
  match opc with
  | .add | .or | .xor | .exch => 0
  | .and => 0xFFFFFFFF
  | .min => if u then 0xFFFFFFFF else 0x7FFFFFFF
  | .max => if u then 0 else 0x80000000
  | .fadd => 0x80000000
  | .fmin => 0x7F800000
  | .fmax => 0xFF800000

def isFloatOpc : Opc → Bool
  | .fadd | .fmin | .fmax => true
  | _ => false

/-- The chain over a list of values (R170). -/
def chain (opc : Opc) (u : Bool) (fmode : BitVec 3) : List Word → Word × FlagSet
  | [] => (chainId opc u, 0)
  | v :: vs =>
    let first : Word × FlagSet :=
      if isFloatOpc opc then let r := firstFloat (ftzOf fmode) v; (BitVec.ofNat 32 r.1, r.2) else (v, 0)
    vs.foldl (fun s v => let r := chainOp opc u fmode s.1 v; (r.1, s.2 ||| r.2)) first

/-- The members whose lanes a predicate picks, in ascending lane order. -/
def chainOver (ms : List XMember) (opc : Opc) (u : Bool) (fmode : BitVec 3) (p : Nat → Bool) : XOut :=
  let xs := ms.filter (fun m => p m.lane)
  let r := chain opc u fmode (xs.map (fun m => m.x.lo))
  ⟨r.1.setWidth 64, false, xs.any (·.xp), r.2⟩

/-- The selector of SHFL: a lane, or none below lane 0. -/
def shflFrom (mode : ShflMode) (lane y : Nat) : Option Nat :=
  match mode with
  | .idx => some y
  | .up => if y ≤ lane then some (lane - y) else none
  | .down => some (lane + y)
  | .bxor => some (lane ^^^ y)

/-- The result of one member over the group `ms`, in ascending lane order. A value of the other width is read as R35
reads a latch (log 16); the b of an operation that has none is a free value (log 16). -/
def xResult (ms : List XMember) (me : XMember) (s : State) : XOut × State :=
  let at_ (l : Nat) : Option XMember := ms.find? (fun m => m.lane == l)
  let anyP := ms.any (·.xp)
  let preds := (ms.filter (fun m => m.x.lo ≠ 0)).map (·.lane)
  match me.op with
  | .shfl mode =>
    match (shflFrom mode me.lane (me.y.getD 0).toNat).bind at_ with
    | some m => (⟨m.x.lo.setWidth 64, false, m.xp || me.yp, 0⟩, s)
    | none => (⟨me.x.lo.setWidth 64, false, me.xp || me.yp, 0⟩, s)
  | .bcst =>
    match ms with
    | [] => (⟨me.x, true, me.xp, 0⟩, s)
    | g0 :: _ =>
      let (y, s) : Nat × State := match g0.y with
        | some y => (y.toNat, s)
        | none => let (v, s) := s.freePair; (v.lo.toNat, s)
      match at_ y with
      | some m => (⟨m.x, true, m.xp || g0.yp, 0⟩, s)
      | none => (⟨me.x, true, me.xp || g0.yp, 0⟩, s)
  | .vote .any => (⟨if preds.isEmpty then 0 else 1, false, anyP, 0⟩, s)
  | .vote .all => (⟨if preds.length = ms.length then 1 else 0, false, anyP, 0⟩, s)
  | .vote .ballot => (⟨sumLanes preds, true, anyP, 0⟩, s)
  | .match_ => (⟨sumLanes ((ms.filter (fun m => m.x.lo == me.x.lo)).map (·.lane)), true, anyP, 0⟩, s)
  | .elect => (⟨if preds.head? = some me.lane then 1 else 0, false, anyP, 0⟩, s)
  | .lred opc u => (chainOver ms opc u me.fmode (fun _ => true), s)
  | .lscan opc u excl => (chainOver ms opc u me.fmode (fun l => if excl then l < me.lane else l ≤ me.lane), s)

/-- A member takes its result: pushed into the empty window (R166). -/
def Thread.takeX (th : Thread) (d : Dest) (r : XOut) : Thread :=
  let th := (th.clearWindow).raise r.flags
  if r.wide then th.putPair d r.val r.poison else th.put32 d r.val.lo r.poison

/-! ## Arrival (R164, R165) -/

/-- Put a member into its place in ascending lane order. -/
def insertMember (m : XMember) : List XMember → List XMember
  | [] => [m]
  | x :: xs => if m.lane < x.lane then m :: x :: xs else x :: insertMember m xs

/-- Join the oldest open group of the row that names the lane, or open one. -/
def joinGroup (row : Nat) (mask : BitVec 64) (m : XMember) : List XGroup → List XGroup
  | [] => [⟨row, mask, [m]⟩]
  | g :: gs =>
    if g.row = row && g.mask.getLsbD m.lane then { g with members := insertMember m g.members } :: gs
    else g :: joinGroup row mask m gs

def XGroup.complete (g : XGroup) : Bool := (maskLanes g.mask).all (fun l => g.members.any (fun m => m.lane == l))

/-- The other members of a completed group take their results and become Ready; then the arriving one. -/
def finishGroup (c : Nat) (g : XGroup) (self : XMember) (s : State) : State :=
  let s := (g.members.filter (fun m => m.lane ≠ self.lane)).foldl (fun s m =>
    let (r, s) := xResult g.members m s
    s.wake (hartAt c g.row m.lane) (·.takeX m.dst r)) s
  let (r, s) := xResult g.members self s
  s.modThread (hartAt c g.row self.lane) (·.takeX self.dst r)

/-- A thread that passes the checks arrives. It parks, or, as the last of its group, completes it. -/
def arriveGroup (c row : Nat) (mask : BitVec 64) (m : XMember) (s : State) : Res :=
  let gs := joinGroup row mask m (s.core c).groups
  match gs.find? (fun g => g.row == row && g.members.any (fun x => x.lane == m.lane)) with
  | some g =>
    if g.complete then
      .ok (finishGroup c g m (s.modCore c (fun k => { k with groups := gs.filter (fun x => x ≠ g) })))
    else .park (s.modCore c (fun k => { k with groups := gs })) .xlane
  | none => .park (s.modCore c (fun k => { k with groups := gs })) .xlane

/-- The traps of R164, lowest code first. -/
def maskTraps (k : Core) (c row lane : Nat) (mask : BitVec 64) (poisoned : Bool) : List (Bool × Cause × Pair) :=
  let exited := (maskLanes mask).filter (k.laneExited c row)
  [(poisoned, .poisonUse, 2), (!exited.isEmpty, .xlaneExited, BitVec.ofNat 64 (exited.headD 0)),
   (!mask.getLsbD lane || !(maskLanes mask).all (k.laneHeld row), .xlaneMask, mask)]

/-- A cross-lane instruction of one hart: `aw` and `dw` are the widths of a and d, `hasB` whether it has a b. -/
def laneX (f : Fields) (op : XOp) (aw dw : OpW) (hasB : Bool) (h : Hart) (s : State) : Res :=
  let us : List OpUse := [(f.a, aw)] ++ (if hasB then [(f.b, .w32)] else []) ++ [(f.c, .pair)] ++ f.dst dw
  guardOps s h us <|
    match h.core? with
    | none => .ok s
    | some c =>
      let (row, lane) := rowLane h
      let mask := s.opPair h f.c
      let x : Pair := if aw = .pair then s.opPair h f.a else (s.op32 h f.a).setWidth 64
      let m : XMember := {
        lane, op, x, xp := s.opPoison h f.a aw,
        y := if hasB then some (s.op32 h f.b) else none, yp := hasB && s.opPoison h f.b .w32,
        fmode := s.fmode h, dst := f.dest }
      firstTrap (maskTraps (s.core c) c row lane mask (s.opPoison h f.c .pair)) (arriveGroup c row mask m s)

/-! ## Dissolving (R167) -/

/-- A thread has exited: every open group that waits for its lane dissolves, and its members trap. -/
def State.dissolveFor (s : State) (c row lane : Nat) : State :=
  let broken := (s.core c).groups.filter (fun g => g.row == row && g.mask.getLsbD lane && !g.members.any (fun m => m.lane == lane))
  let s := s.modCore c (fun k => { k with groups := k.groups.filter (fun g => !broken.contains g) })
  broken.foldl (fun s g =>
    let low := ((maskLanes g.mask).filter ((s.core c).laneExited c row)).headD lane
    g.members.foldl (fun s m =>
      let h := hartAt c row m.lane
      s.takeTrap h .xlaneExited (BitVec.ofNat 64 low) (s.thread h).pc) s) s

/-! ## The instructions -/

def execShfl (f : DF) (m : ShflMode) (s : State) : Host.Outcome State Fault Refusal :=
  issue 0 .compute (.shfl f m) (laneX f.fields (.shfl m) .w32 .w32 true) s
def execBcst (f : DF) (s : State) : Host.Outcome State Fault Refusal :=
  issue 0 .compute (.bcst f) (laneX f.fields .bcst .pair .pair true) s
def execVote (f : DF) (m : VoteMode) (s : State) : Host.Outcome State Fault Refusal :=
  issue 0 .compute (.vote f m) (laneX f.fields (.vote m) .w32 (if m = .ballot then .pair else .w32) false) s
def execLred (f : DF) (m : RedMod) (s : State) : Host.Outcome State Fault Refusal :=
  issue 0 .compute (.lred f m) (laneX f.fields (.lred m.opc m.u) .w32 .w32 false) s
def execLscan (f : DF) (m : RedMod) (s : State) : Host.Outcome State Fault Refusal :=
  issue 0 .compute (.lscan f m) (laneX f.fields (.lscan m.opc m.u m.excl) .w32 .w32 false) s
def execMatch (f : DF) (s : State) : Host.Outcome State Fault Refusal :=
  issue 0 .compute (.match f) (laneX f.fields .match_ .w32 .pair false) s
def execElect (f : DF) (s : State) : Host.Outcome State Fault Refusal :=
  issue 0 .compute (.elect f) (laneX f.fields .elect .w32 .w32 false) s

end Sys2Proof.Machine
end

