-- ==== Sys2Proof/Machine/Xlate.lean ====
section
/-! DEFINITION. Translation (11_translation_and_tiers R250–R256), the supervisor window (R329), the management core's
address map (R368), and the start of a page migration (R256). -/

namespace Sys2Proof.Machine

/-- What an access needs of a leaf (R252); a unit of the module reads or writes for itself. -/
inductive AccNeed where
  | load | store | atomic | waitv | fetch | unitLoad | unitStore
  deriving DecidableEq, Repr

namespace Pte
def v (e : BitVec 64) : Bool := e.getLsbD 0
def leaf (e : BitVec 64) : Bool := e.getLsbD 1
def rd (e : BitVec 64) : Bool := e.getLsbD 2
def w (e : BitVec 64) : Bool := e.getLsbD 3
def x (e : BitVec 64) : Bool := e.getLsbD 4
def u (e : BitVec 64) : Bool := e.getLsbD 5
def tier (e : BitVec 64) : Nat := bget e 6 2
def res (e : BitVec 64) : Bool := e.getLsbD 8
def mig (e : BitVec 64) : Bool := e.getLsbD 9
def pin (e : BitVec 64) : Bool := e.getLsbD 10
def addr (e : BitVec 64) : Nat := bget e 14 34 * 2 ^ 14
def key (e : BitVec 64) : Nat := bget e 48 12
end Pte

/-- The bytes that a leaf at a level maps (R250). -/
def pageSize (level : Nat) : Nat := 2 ^ (16 + 11 * level)

/-- Malformed entries (R252). A leaf or table of which only the end lies above its tier's top is malformed too (log 11). -/
def State.pteBad (s : State) (e : BitVec 64) (level : Nat) : Bool :=
  let leaf := Pte.leaf e
  let size := if leaf then pageSize level else 2 ^ 14
  bget e 60 4 ≠ 0 || bget e 11 3 ≠ 0
    || (leaf && level = 3) || (!leaf && level = 0)
    || Pte.tier e = 3
    || (Pte.w e && !Pte.rd e)
    || (leaf && Pte.addr e % size ≠ 0)
    || (!Pte.res e && ((leaf && level ≠ 0) || (Pte.tier e = 0 && !Pte.mig e)))
    || !(s.inTier (Pte.tier e) (Pte.addr e) && s.inTier (Pte.tier e) (Pte.addr e + size - 1))

/-- How a walk ends: a well-formed leaf with its level and the address of its entry, or the cause. -/
inductive Walk where
  | leaf (e : BitVec 64) (level : Nat) (pteAddr : Nat)
  | fault (c : Cause)
  deriving DecidableEq, Repr

/-- Read entries from a level downward (R252). An entry outside every installed range is never read: it ends the walk as an
invalid one does (log 11). -/
def State.walkFrom (s : State) (va : Nat) : Nat → Nat → Walk
  | level, table =>
    let ea := table + 8 * (va / 2 ^ (16 + 11 * level) % 2048)
    let e := s.peekMem ea 8 64
    if !(s.installed ea) || !(Pte.v e) then .fault .pageNotPresent
    else if s.pteBad e level then .fault .tableFormat
    else if Pte.leaf e then .leaf e level ea
    else match level with
      | 0 => .fault .tableFormat
      | l + 1 => s.walkFrom va l (Pte.addr e)

def State.walk (s : State) (root va : Nat) : Walk := s.walkFrom va 3 root

/-- The pointer entries on the way of a walk, with their levels. -/
def State.walkPath (s : State) (va : Nat) : Nat → Nat → List (Nat × BitVec 64)
  | level, table =>
    let e := s.peekMem (table + 8 * (va / 2 ^ (16 + 11 * level) % 2048)) 8 64
    match level with
    | 0 => []
    | l + 1 => if Pte.leaf e then [] else (l + 1, e) :: s.walkPath va l (Pte.addr e)

/-- Permissions and key of a leaf, in that order (R252). ATOM, CAS and RED to a TIER 10 page are refused. Only loads, stores, copies and
gathers reach the peer tier (R263): any other need of a resident TIER 10 page is refused as its protection (log 83); one that is not
resident migrates. -/
def State.leafFault (s : State) (ctx : Nat) (user : Bool) (need : AccNeed) (e : BitVec 64) : Option Cause :=
  let peer := Pte.tier e = 2
  let allowed := match need with
    | .load => Pte.rd e
    | .store => Pte.w e
    | .atomic => Pte.rd e && Pte.w e && !peer
    | .waitv | .unitLoad => Pte.rd e && !(peer && Pte.res e)
    | .unitStore => Pte.w e && !(peer && Pte.res e)
    | .fetch => Pte.x e && !(peer && Pte.res e)
  if !allowed || (user && !Pte.u e) then some .pageProt
  else if !(s.keyUsable (Pte.key e) ctx) then some .keyInvalid
  else none

/-- How a translation ends. -/
inductive XRes where
  | pa (p : Nat) (key : Nat)
  | absent (pteAddr : Nat)
  | fault (c : Cause)
  deriving DecidableEq, Repr

/-- The structures that serve an access (R255): a core's own caches and its die's last-level TLB, or the IOMMU's caches. -/
def serving : TlbOwner → List TlbOwner
  | .core c => [.core c, .die (dieOf c)]
  | .die d => [.die d]
  | .iommu => [.iommu]

/-- How many leaves a die's last-level TLB holds (R255). -/
def tlbSize : Nat := 2048

/-- Fill a structure with a translation; a full last-level TLB drops its oldest (log 12). -/
def fillTlb (tlb : List TlbEnt) (e : TlbEnt) : List TlbEnt :=
  if tlb.contains e then tlb
  else match e.owner with
    | .die _ =>
      let own := tlb.filter (fun t => t.owner == e.owner)
      if own.length < tlbSize then tlb ++ [e]
      else tlb.filter (fun t => some t ≠ own.head?) ++ [e]
    | _ => tlb ++ [e]

/-- The resident leaves, with their sizes, to which a walk leads that starts at a table entry still held (R255). -/
def State.heldWalks (s : State) (ts : List TlbEnt) (va : Nat) : List (BitVec 64 × Nat) :=
  ts.filterMap (fun t => match t.ptr with
    | some (l + 1) => match s.walkFrom va l (Pte.addr t.pte) with
      | .leaf e level _ => if Pte.res e then some (e, pageSize level) else none
      | .fault _ => none
    | _ => none)

/-- What a structure keeps of a walk: the leaf, and, but for a die's last-level TLB, the table entries on its way (R255). -/
def State.fillFor (s : State) (w : TlbOwner) (ctx va : Nat) (e : BitVec 64) (size : Nat) (tlb : List TlbEnt) : List TlbEnt :=
  let leaf : TlbEnt := ⟨w, BitVec.ofNat 16 ctx, va / size * size, size, e, none⟩
  let path : List TlbEnt := match w with
    | .die _ => []
    | _ => (s.walkPath va 3 (CtxF.root (s.ctxRec ctx))).map (fun p =>
        ⟨w, BitVec.ofNat 16 ctx, va / pageSize p.1 * pageSize p.1, pageSize p.1, p.2, some p.1⟩)
  (leaf :: path).foldl fillTlb tlb

/-- Translate through a context's tables for the structures that serve `owner`, with the leaf used and its level's page size. A new
walk to a resident leaf fills them; an access that uses what they hold fills nothing, though a held table entry led it to a leaf that is
not held (log 12). Any leaf that is still held, or to which a table entry still held leads, may be used until a TLBI removes it where it differs from a
new walk's: a free choice (R255, log 12). -/
def State.xlate (s : State) (owner : TlbOwner) (ctx : Nat) (user : Bool) (need : AccNeed) (va : Nat) :
    XRes × (BitVec 64 × Nat) × State :=
  let fresh := s.walk (CtxF.root (s.ctxRec ctx)) va
  let mine := s.io.tlb.filter (fun t => (serving owner).contains t.owner && t.ctx.toNat == ctx && decide (t.va ≤ va)
    && decide (va < t.va + t.size))
  let held := ((mine.filter (·.ptr.isNone)).map (fun t => (t.pte, t.size)) ++ s.heldWalks mine va).filter (fun t => match fresh with
    | .leaf e level _ => t.1 ≠ e || t.2 ≠ pageSize level
    | .fault _ => true)
  let (x, s) := if held.isEmpty then (0, s) else s.freePair
  match held[x.toNat % (held.length + 1)]?, fresh with
  | some t, _ =>
    match s.leafFault ctx user need t.1 with
    | some c => (.fault c, t, s)
    | none => (.pa (Pte.addr t.1 + va % t.2) (Pte.key t.1), t, s)
  | none, .fault c => (.fault c, (0, 0), s)
  | none, .leaf e level ea =>
    let size := pageSize level
    match s.leafFault ctx user need e with
    | some c => (.fault c, (e, size), s)
    | none =>
      if !(Pte.res e) then (.absent ea, (e, size), s)
      else
        (.pa (Pte.addr e + va % size) (Pte.key e), (e, size),
          s.modIo (fun io => { io with tlb := (serving owner).foldl (fun l w => s.fillFor w ctx va e size l) io.tlb }))

/-- Translate an address (R252, R255). -/
def State.translate (s : State) (owner : TlbOwner) (ctx : Nat) (user : Bool) (need : AccNeed) (va : Nat) : XRes × State :=
  let (r, _, s) := s.xlate owner ctx user need va
  (r, s)

/-! ## Places that an address can name -/

/-- A byte's home: device memory, a core's supervisor scratch, or a region of the management core's map. -/
inductive Place where
  | dev (pa : Nat)
  | supScratch (k : Nat)
  | rom (k : Nat)
  | sram (k : Nat)
  | flash (k : Nat)
  | ctl (off : Nat)
  deriving DecidableEq, Repr

/-- How the address of an access resolves. -/
inductive PlaceRes where
  | at (p : Place) (key : Nat)
  | absent (pteAddr : Nat)
  | fault (c : Cause)
  deriving DecidableEq, Repr

/-- A physical address that no table translates: only loads, stores, copies and gathers reach the peer tier (R263), any other
need of a peer address is refused as its protection (log 83). -/
def State.physPlace (s : State) (need : AccNeed) (pa : Nat) : PlaceRes :=
  if !s.installed pa then .fault .pageNotPresent
  else if isPeer pa && need ≠ .load && need ≠ .store then .fault .pageProt
  else .at (.dev pa) 0

/-- The supervisor window (R329), for an S-level access. -/
def State.supWindow (s : State) (need : AccNeed) (va : Nat) : PlaceRes :=
  if va / 2 ^ 48 % 4096 = 0xFFF then s.physPlace need (va % 2 ^ 48)
  else if va % 2 ^ 48 < 65536 then .at (.supScratch (va % 2 ^ 48)) 0 else .fault .pageNotPresent

/-- The management core's map (Table 20-1). -/
def State.mgmtPlace (s : State) (need : AccNeed) (va : Nat) : PlaceRes :=
  let writes := need = .store || need = .atomic
  if va < 0x40000 then if writes then .fault .pageProt else .at (.rom va) 0
  else if 0x100000 ≤ va && va < 0x200000 then .at (.sram (va - 0x100000)) 0
  else if 0x1000000 ≤ va && va < 0x2000000 then if writes then .fault .pageProt else .at (.flash (va - 0x1000000)) 0
  else if 0x400000000000000 ≤ va && va < 0x400000040000000 then .at (.ctl (va - 0x400000000000000)) 0
  else if 0x800000000000000 ≤ va then s.physPlace need (va - 0x800000000000000)
  else .fault .pageNotPresent

/-- Resolve the address of a hart's access (R328, R329, R368). -/
def State.place (s : State) (h : Hart) (need : AccNeed) (va : Nat) : PlaceRes × State :=
  match h with
  | .mgmt => (s.mgmtPlace need va, s)
  | .user c _ =>
    if 0xFFE ≤ va / 2 ^ 48 % 4096 then (.fault .pageProt, s)
    else match s.translate (.core c) (s.core c).ctxid.toNat true need va with
      | (.pa p k, s') => (.at (.dev p) k, s')
      | (.absent e, s') => (.absent e, s')
      | (.fault f, s') => (.fault f, s')
  | .sup c _ =>
    if 0xFFE ≤ va / 2 ^ 48 % 4096 then (s.supWindow need va, s)
    else match s.translate (.core c) (s.core c).ctxid.toNat false need va with
      | (.pa p k, s') => (.at (.dev p) k, s')
      | (.absent e, s') => (.absent e, s')
      | (.fault f, s') => (.fault f, s')

/-! ## The fault unit (R256) -/

/-- Start a promotion of the page whose level-0 leaf is at `pteAddr`, or join the migration in progress. -/
def State.startPromotion (s : State) (ctx : Nat) (va : BitVec 64) (pteAddr : Nat) (w : Option MigWaiter) : State :=
  let ws := w.toList
  match s.io.migs.findIdx? (fun m => m.pteAddr == pteAddr) with
  | some i => s.modIo (fun io => { io with migs := io.migs.modify i (fun m =>
      { m with waiters := m.waiters ++ ws.filter (fun w => !m.waiters.contains w), promoteAfter := m.promoteAfter || !m.promote }) })
  | none =>
    let e := s.peekMem pteAddr 8 64
    let e' := bput e 9 1 1
    (s.pokeMem pteAddr 8 e').modIo (fun io => { io with migs := io.migs ++
      [{ ctx := BitVec.ofNat 16 ctx, va := va &&& ~~~(0xFFFF : BitVec 64), pteAddr, promote := true, waiters := ws, entry := e' }] })

/-- The tier of a frame's address (Table 11-2). -/
def tierOf (pa : Nat) : Nat := if pa < 0x100000000000 then 0 else if pa < 0x800000000000 then 1 else 2

/-- Is the link or window to the page's present frame gone, or has it been? The port of a capacity-tier address is free
(log 72). -/
def State.sourceLost (s : State) (m : Migration) : Bool :=
  let src := Pte.addr m.entry
  m.lost || (if tierOf src = 2 then (s.peerWindow? src).isNone
  else if tierOf src = 1 then s.io.links.any (fun p => p.1 == Config.cxlPort src && (match p.2 with
    | some l => l.cxl && !l.up
    | none => false))
  else false)

/-- A link or window has gone: the promotions whose source lies behind it have lost it for good (R357). -/
def State.markLost (s : State) : State :=
  s.modIo (fun io => { io with migs := io.migs.map (fun m => { m with lost := m.promote && s.sourceLost m }) })

/-- Is a hart's fetch held by a migration (R52)? -/
def State.fetchHeld (s : State) (h : Hart) : Bool := s.io.migs.any (fun m => m.waiters.contains (.fetch h))

/-- The context that a hart's accesses translate through. -/
def State.ctxOf (s : State) : Hart → BitVec 16
  | .user c _ => (s.core c).ctxid
  | .sup c _ => (s.core c).ctxid
  | .mgmt => 0

end Sys2Proof.Machine
end

