-- ==== Sys2Proof/Machine/Mem.lean ====
section
/-! DEFINITION. The memory model (09_ordering_model): store queues, the core order, home instants, what a thread knows of
global memory, and what a load may return. -/

namespace Sys2Proof.Machine

/-! ## Store queues, the core order and loads (R198, R199) -/

/-- A byte as the entries of one space leave it, oldest first. -/
def overlayByte (es : List StoreEnt) (sp : Space) (a : Nat) (b : Byte) : Byte :=
  es.foldl (fun b e => if e.space = sp then applyBytes e.bytes a b else b) b

/-- A granule's mark as the entries of one space leave it. -/
def overlayMark (es : List StoreEnt) (sp : Space) (g : Nat) (mark : Bool) : Bool :=
  es.foldl (fun m e => if e.space = sp && touchesGranule e.bytes g
    then markAfter m e.poison (coversGranule e.bytes g) else m) mark

/-- What a place is to the store queue, with the address in that space. -/
def Place.space : Place → Space × Nat
  | .dev pa => (.global, pa)
  | .supScratch k => (.supScratch, k)
  | .sram k => (.sram, k)
  | .rom k => (.sram, k)
  | .flash k => (.sram, k)
  | .ctl k => (.sram, k)

/-- The floor that an acquire fence of a scope would give a thread (R202). -/
def MemView.acq (v : MemView) : Scope → Nat
  | .core => 0
  | .die => v.acqDie
  | .dev => v.acqDev
  | .clu => v.acqClu
  | .sys => v.acqSys

/-- A thread's view after it has read a write: a write of its own core, or a release of one that the write carries, brings what its thread
knew (R199, R203), an acquire what it synchronises with (R203, R205), and a later acquire fence would bring as much (R202). -/
def MemView.learn (v : MemView) (y : Observer) (acq : Option Scope) (t : Stamp) : MemView :=
  let own := t.coreView y
  let gain := match acq with
    | some sc => t.acquired y sc
    | none => 0
  { v.raise (Nat.max own gain) with
    acqDie := Nat.max v.acqDie (t.acquired y .die)
    acqDev := Nat.max v.acqDev (t.acquired y .dev)
    acqClu := Nat.max v.acqClu (t.acquired y .clu)
    acqSys := Nat.max v.acqSys (t.acquired y .sys) }

/-- A thread's view after a read of a granule returned the write `t`; `old` when a later write had replaced it. -/
def MemView.saw (v : MemView) (y : Observer) (acq : Option Scope) (g : Nat) (t : Stamp) (old : Bool) : MemView :=
  let v := v.learn y acq t
  { v with readAt := mset 0 v.readAt g t.instant
           stale := mset 0 v.stale g (if old then mget 0 v.stale g + 1 else 0) }

/-- The older contents of a granule that a thread's read may still return, newest first: not replaced by its floor, nor by
what it has read there, and no older than its own core's last write (R194, R195). -/
def State.olderReads (s : State) (h : Hart) (g : Nat) : List OldCopy :=
  let v := (s.thread h).mv
  let l := s.log g
  let from_ := Nat.max v.floor (mget 0 v.readAt g)
  if l.cur.who = h.observer then []
  else upToOwn h.observer (l.olds.takeWhile (fun o => decide (from_ < o.stop)))
where
  upToOwn (y : Observer) : List OldCopy → List OldCopy
    | [] => []
    | o :: rest => if o.stamp.who = y then [o] else o :: upToOwn y rest

/-- The contents of a granule for a hart's load: the home slice's, or older contents that it may still return, a free choice
(R195, R200, log 14) made at most `Config.staleReads` times in a row (R197). `home` asks for the home slice's. -/
def State.readGranule (s : State) (h : Hart) (key g : Nat) (home : Bool) : List Byte × Bool × Stamp × Bool × State :=
  let olds := if home then [] else s.olderReads h g
  if olds.isEmpty || Config.staleReads ≤ mget 0 (s.thread h).mv.stale g then
    let (bs, mark, s) := s.homeGranule key g
    (bs, mark, (s.log g).cur, false, s)
  else
    let (x, s) := s.freePair
    match olds[x.toNat % (olds.length + 1)]? with
    | none =>
      let (bs, mark, s) := s.homeGranule key g
      (bs, mark, (s.log g).cur, false, s)
    | some o =>
      if o.tag = s.keyTag key then (o.bytes, o.mark, o.stamp, true, s)
      else
        let (bs, s) := s.freeBytes16
        (bs, o.mark, o.stamp, true, s)

/-- The base contents of a place's granule for a hart's load, and the view that the load leaves the thread. Where a store of
the core still waits for its home instant on the granule, the base is the home slice's, so that a load returns one position
of the coherence order (R196). -/
def State.baseGranule (s : State) (h : Hart) (p : Place) (key : Nat) (acq : Option Scope) (home : Bool) :
    List Byte × Bool × State :=
  match p with
  | .dev pa =>
    let g := granule pa
    let (bs, mark, t, old, s) := s.readGranule h key g home
    (bs, mark, s.modThread h (fun th => { th with mv := th.mv.saw h.observer acq g t old }))
  | .supScratch k =>
    let core := match h.core? with
      | some c => s.core c
      | none => {}
    (peeks core.supScratch (k / 16 * 16) 16, mget false core.supScratchPoison (k / 16),
      s.modThread h (fun th => { th with mv := th.mv.raise (mget 0 core.supView (k / 16)) }))
  | .sram k => (peeks s.mgmt.sram (k / 16 * 16) 16, mget false s.mgmt.sramPoison (k / 16), s)
  | .rom k => (peeks s.mgmt.rom (k / 16 * 16) 16, false, s)
  | .flash k => (peeks s.mgmt.flash (k / 16 * 16) 16, false, s)
  | .ctl _ => (List.replicate 16 0, false, s)

/-- Does an entry write any of the bytes from `a`? -/
def StoreEnt.writes (e : StoreEnt) (sp : Space) (a n : Nat) : Bool :=
  e.space == sp && e.bytes.any (fun w => a ≤ w.1 && w.1 < a + n)

/-- The floors of the core's other threads whose stores a load returns from the core order (R199). -/
def orderView (es : List StoreEnt) (sp : Space) (a n : Nat) : Nat :=
  (es.filter (fun e => e.writes sp a n)).foldl (fun m e => Nat.max m e.view) 0

/-- The pending stores that lie over a load of `n` bytes at `pa`, of its thread and of its core's order. -/
def State.pendingOn (s : State) (h : Hart) (pa : Nat) : List StoreEnt × List StoreEnt :=
  ((s.thread h).storeQ.filter (·.onGranule (granule pa)), (s.order h).filter (·.onGranule (granule pa)))

/-- Does a load return bytes from beneath the youngest store that lies over its granule? -/
def State.readsBeneath (s : State) (h : Hart) (pa n : Nat) : Bool :=
  let (q, o) := s.pendingOn h pa
  match (o ++ q).getLast? with
  | none => false
  | some e => !(List.range n).all (fun i => e.gives (pa + i))

/-- Must a load wait: it would return bytes from beneath stores of which some must themselves follow the stores over another core's
load (R195; log 107)? -/
def State.loadWaits (s : State) (h : Hart) (p : Place) (n : Nat) : Bool :=
  match p with
  | .dev pa => s.readsBeneath h pa n
      && (s.meetsHold { who := h.observer, tid := h.key, bytes := addrsOf (s.pendingOn h pa).1, joins := true }
        || s.meetsHold { who := h.observer, bytes := addrsOf (s.pendingOn h pa).2 })
  | _ => false

/-- A load that returned bytes from beneath pending stores of its core holds their places in the granule's order (R195, R196). -/
def State.holdRead (s : State) (h : Hart) (p : Place) (n : Nat) : State :=
  match p with
  | .dev pa =>
    if s.readsBeneath h pa n then
      { s with holds := ⟨h, granule pa, pa, n, (s.thread h).stores, s.orderSeq h⟩ :: s.holds }
    else s
  | _ => s

/-- A load of `n` bytes within one granule: per byte, the youngest own queued store, else the core order, else the base
contents (R199, R228). -/
def State.loadBytes (s : State) (h : Hart) (p : Place) (key n : Nat) (acq : Option Scope) (home : Bool := false) :
    List Byte × Bool × State :=
  let (sp, a) := p.space
  let es := s.order h ++ (s.thread h).storeQ
  let s := s.holdRead h p n
  let (base, mark, s) := s.baseGranule h p key acq (home || es.any (fun e => e.space == sp && touchesGranule e.bytes (a / 16)))
  match p with
  | .rom _ | .flash _ | .ctl _ => ((base.drop (a % 16)).take n, mark, s)
  | _ =>
    let bs := (List.range n).map (fun i => overlayByte es sp (a + i) (base.getD (a % 16 + i) 0))
    (bs, overlayMark es sp (a / 16) mark,
      s.modThread h (fun th => { th with mv := th.mv.raise (orderView (s.order h) sp a n) }))

/-- Is the store queue full (R198)? -/
def State.queueFull (s : State) (h : Hart) : Bool := 16 ≤ (s.thread h).storeQ.length

/-- The scope at which a plain store of the thread releases: that of its widest release fence (R202). -/
def relScope (th : Thread) (own : Option Scope) : Option Scope :=
  match own, th.mv.fencedRel with
  | some a, some b => if a.code < b.code then some b else some a
  | some a, none => some a
  | none, b => b

/-- The entry of a checked store. A release waits for every earlier store of its thread and all that had joined the core
order; a store after a release fence, for those before the fence (R201, R202). -/
def State.storeEnt (s : State) (h : Hart) (sp : Space) (bytes : List (Nat × Byte × Byte)) (key : Nat) (poison : Bool)
    (fill : List Nat) (rel : Option Scope) : StoreEnt :=
  let th := s.thread h
  { tid := h.key, space := sp, bytes, key, poison, fill, rel := relScope th rel, ord := th.stores
    relOrd := if rel.isSome then th.stores else th.mv.fenceOrd
    relSeq := if rel.isSome then s.orderSeq h else th.mv.fenceSeq
    view := th.mv.floor }

/-- Enter a checked store into the thread's queue (R198, R229). -/
def State.enqueue (s : State) (h : Hart) (p : Place) (key : Nat) (bs : List Byte) (poison : Bool) (rel : Option Scope) : State :=
  let (sp, a) := p.space
  s.modThread h (fun th => { th with
    storeQ := th.storeQ ++ [s.storeEnt h sp (fullBytes a bs) key poison [] rel]
    stores := th.stores + 1 })

/-! ## Draining (R194, R198) -/

/-- The next drain move a stalled hart waits for: its own queue first, then the oldest entry of the core order. -/
def State.nextDrain (s : State) (h : Hart) : Option Instr :=
  if s.canLeave h then some (.storeDrain h .leave)
  else if !(s.order h).isEmpty then some (.storeDrain h (.home 0))
  else none

/-- Has every store of the hart reached its home slice? -/
def State.storesHome (s : State) (h : Hart) : Bool :=
  (s.thread h).storeQ.isEmpty && (s.order h).all (fun e => e.tid ≠ h.key)

/-- Are the stores that a release of a thread follows home: its own before `ord`, the core's that joined before `seq`? -/
def State.releaseReady (s : State) (h : Hart) (ord seq : Nat) : Bool :=
  !(s.thread h).storeQ.any (fun e => e.ord < ord)
    && (s.order h).all (fun e => !(decide (e.tid < 2000) && (if e.tid = h.key then decide (e.ord < ord) else decide (e.seq < seq))))

/-- Has every store of the hart, and every thread's entry before the end of its core order, reached home (R204)? -/
def State.orderHome (s : State) (h : Hart) : Bool :=
  (s.thread h).storeQ.isEmpty && (s.order h).all (fun e => 2000 ≤ e.tid)

/-! ## The range-lock table (R208, R209) -/

/-- Does a byte range of named memory meet a registered range? (source hit, destination hit) -/
def Core.memLock (k : Core) (lo n : Nat) : Bool × Bool :=
  let hit (dest : Bool) := k.locks.any (fun l => l.dest == dest && match l.range with
    | .mem a b => decide (lo < b) && decide (a < lo + n)
    | .banks .. => false)
  (hit false, hit true)

/-- Does a scratchpad bank span meet a registered range? -/
def Core.bankLock (k : Core) (lo hi : Nat) : Bool × Bool :=
  let hit (dest : Bool) := k.locks.any (fun l => l.dest == dest && match l.range with
    | .mem .. => false
    | .banks a b => decide (lo < b) && decide (a < hi))
  (hit false, hit true)

/-- The core whose table checks a hart's accesses. -/
def State.coreOf (s : State) (h : Hart) : Core :=
  match h.core? with
  | some c => s.core c
  | none => {}

/-- A memory range rounded out to whole granules (R208). -/
def memRange (a n : Nat) : Range := .mem (a / 16 * 16) ((a + n + 15) / 16 * 16)

end Sys2Proof.Machine
end

