-- ==== Sys2Proof/Machine/Tiles.lean ====
section
/-! DEFINITION. Self-describing tiles (05_tiles R102–R124): headers and their checks, the layouts in memory, scratchpad,
operand slots and accumulators, and the tile table. -/

namespace Sys2Proof.Machine

/-! ## The header (Table 5-1, R103) -/

/-- One bit of CRC-16/CCITT. -/
def crcBit (c : Nat) : Nat := if 32768 ≤ c then (c * 2 ^^^ 0x1021) % 65536 else c * 2

/-- One byte of CRC-16/CCITT, most significant bit first. -/
def crcByte (c : Nat) (b : Byte) : Nat :=
  crcBit (crcBit (crcBit (crcBit (crcBit (crcBit (crcBit (crcBit (c ^^^ b.toNat * 256))))))))

def crc16 (bs : List Byte) : Nat := bs.foldl crcByte 0xFFFF

abbrev Header := BitVec 512

namespace Hd
def version (m : Header) : Nat := bget m 0 16
def fmt (m : Header) : Nat := bget m 16 4
def scale (m : Header) : Nat := bget m 20 2
def sparse (m : Header) : Bool := m.getLsbD 22
def order (m : Header) : Bool := m.getLsbD 23
/-- NL, SAT and PROW, bits 26:24. -/
def marks (m : Header) : Nat := bget m 24 3
def rows (m : Header) : Nat := bget m 32 16
def cols (m : Header) : Nat := bget m 48 16
def pitch (m : Header) : Nat := bget m 64 32
def soff (m : Header) : Nat := bget m 96 32
def boff (m : Header) : Nat := bget m 128 32
def moff (m : Header) : Nat := bget m 160 32
def check (m : Header) : Nat := bget m 496 16
/-- The check of bytes 0–61 (R103). -/
def crc (m : Header) : Nat := crc16 (natBytes 62 m.toNat)
def ok (m : Header) : Bool := check m == crc m
/-- The header with CHECK recomputed. -/
def rehash (m : Header) : Header := bput m 496 16 (crc m)
/-- The header with NL (1), SAT (2) and PROW (4) ORed in, CHECK recomputed (R172). -/
def mark (m : Header) (v : Nat) : Header := rehash (bput m 24 3 (marks m ||| v))
end Hd

/-! ## Shapes (R104, R116) -/

/-- Element width of a format code; reserved codes as 32 bits. -/
def elemBits (fmt : Nat) : Nat :=
  if fmt = 1 || fmt = 2 then 16 else if fmt = 3 || fmt = 4 || fmt = 8 then 8 else if fmt = 5 || fmt = 6 then 6
  else if fmt = 7 || fmt = 9 then 4 else 32

/-- Table 3-10. -/
def fmtOfCode (c : Nat) : Fmt :=
  match c with
  | 0 => .f32 | 1 => .f16 | 2 => .bf16 | 3 => .e4m3 | 4 => .e5m2 | 5 => .e3m2 | 6 => .e2m3 | 7 => .e2m1
  | 8 => .i8 | 9 => .i4 | 10 => .i32 | _ => .ui32

def ceilDiv (a b : Nat) : Nat := (a + b - 1) / b

/-- RowBytes(n) of R104. -/
def rowBytes (w n : Nat) : Nat := if w = 4 then ceilDiv n 2 else if w = 6 then 3 * ceilDiv n 4 else n * w / 8

/-- The quantities of a header that its layouts rest on. -/
structure Geo where
  fmt : Nat
  scale : Nat
  sparse : Bool
  rows : Nat
  cols : Nat
  deriving DecidableEq, Repr

def geoOf (m : Header) : Geo := ⟨Hd.fmt m, Hd.scale m, Hd.sparse m, Hd.rows m, Hd.cols m⟩

namespace Geo
def w (g : Geo) : Nat := elemBits g.fmt
/-- Stored elements per row. -/
def stored (g : Geo) : Nat := if g.sparse then g.cols / 2 else g.cols
def rb (g : Geo) : Nat := rowBytes g.w g.stored
/-- Block size. -/
def bs (g : Geo) : Nat := if g.scale = 1 then 32 else 8
/-- Blocks per row. -/
def nb (g : Geo) : Nat := if g.scale = 0 then 0 else ceilDiv g.cols g.bs
def bands (g : Geo) : Nat := if g.scale = 3 then ceilDiv g.rows 64 else 0
/-- Metadata bytes per row. -/
def mb (g : Geo) : Nat := if g.sparse then g.cols / 8 else 0
def nbc (g : Geo) : Nat := max 1 (ceilDiv g.rb 16)
def nbr (g : Geo) : Nat := ceilDiv g.rows 16
/-- Side bytes: block scales, band scales, metadata. -/
def sb (g : Geo) : Nat := g.rows * g.nb + 2 * g.bands + g.rows * g.mb
/-- Block rows in all. -/
def t (g : Geo) : Nat := g.nbr + ceilDiv g.sb (256 * g.nbc)
/-- Block positions per block row in a bank. -/
def wide (g : Geo) (span : Nat) : Nat := ceilDiv g.nbc span
def fits (g : Geo) (span : Nat) : Bool := g.t * g.wide span ≤ 64
end Geo

/-! ## Supported combinations and valid headers (R106, R107, R110, R124) -/

/-- Table 5-2. -/
def combo (fmt scale : Nat) (sparse : Bool) : Bool :=
  match fmt with
  | 0 => scale = 0 && !sparse
  | 1 => scale = 0
  | 2 => scale = 0
  | 3 => scale ≤ 2
  | 4 => scale ≤ 1
  | 5 => true
  | 6 => true
  | 7 => true
  | 8 => scale ≤ 1
  | 9 => scale ≠ 1
  | 10 => scale = 0 && !sparse
  | _ => false

/-- The WILD bits of a tile: XSHAPE, XSPARSE, XSCALE, XFMT. -/
structure Wild where
  shape : Bool := false
  sparse : Bool := false
  scale : Bool := false
  fmt : Bool := false
  deriving DecidableEq, Repr

def Wild.any (w : Wild) : Bool := w.shape || w.sparse || w.scale || w.fmt

/-- The values a field may take: its own, or any where it is wildcard. -/
def fieldValues (wild : Bool) (v n : Nat) : List Nat := if wild then List.range n else [v]

/-- Kmax of Table 5-3. -/
def kmax (fmt : Nat) : Nat :=
  if fmt = 7 || fmt = 9 then 256 else if fmt = 5 || fmt = 6 then 160 else if fmt = 3 || fmt = 4 || fmt = 8 then 128
  else if fmt = 1 || fmt = 2 then 64 else 32

/-- A header's shape with SCALE and SPARSE as a write leaves them where they are wildcard: none and dense (R123). -/
def wildGeo (m : Header) (w : Wild) : Geo :=
  let g := geoOf m
  { g with scale := if w.scale then 0 else g.scale, sparse := !w.sparse && g.sparse }

/-- Table 5-3; conditions on wildcard fields are not checked. -/
def levelAccepts (lv : Level) (m : Header) (w : Wild) : Bool :=
  let g := wildGeo m w
  match lv with
  | .sp => w.fmt || w.shape || g.fits 64
  | .om => (w.fmt || (g.fmt ≤ 9 && (w.shape || g.stored ≤ kmax g.fmt))) && (w.shape || g.rows ≤ 64)
  | .acc => (w.fmt || g.fmt = 0 || g.fmt = 10) && g.scale = 0 && !g.sparse && (w.shape || (g.rows ≤ 64 && g.cols ≤ 64))

/-- The descriptive fields of R107 hold at a level; the value of a wildcard field is ignored (R124). -/
def descOk (lv : Option Level) (m : Header) (w : Wild) : Bool :=
  Hd.version m = 1 && bget m 27 5 = 0 && bget m 192 304 = 0
    && (fieldValues w.fmt (Hd.fmt m) 16).any (fun f => (fieldValues w.scale (Hd.scale m) 4).any (fun sc =>
        (if w.sparse then [false, true] else [Hd.sparse m]).any (fun sp => combo f sc sp)))
    && (w.shape || (Hd.rows m ≠ 0 && Hd.cols m ≠ 0))
    && (w.sparse || !Hd.sparse m || (!Hd.order m && (w.shape || Hd.cols m % 8 = 0)))
    && (match lv with
      | some l => levelAccepts l m w
      | none => true)

/-- The regions of a memory tile that are present (R104), as (offset, length): data, block scales, bands, metadata. -/
def memRegions (m : Header) : List (Nat × Nat) :=
  let g := geoOf m
  let lines := if Hd.order m then g.cols else g.rows
  let len := if Hd.order m then rowBytes g.w g.rows else g.rb
  [(64, (lines - 1) * Hd.pitch m + len)] ++ (if g.scale = 0 then [] else [(Hd.soff m, g.rows * g.nb)])
    ++ (if g.scale = 3 then [(Hd.boff m, 2 * g.bands)] else []) ++ (if g.sparse then [(Hd.moff m, g.rows * g.mb)] else [])

/-- Do two regions overlap? -/
def overlap (a b : Nat × Nat) : Bool := a.1 < b.1 + b.2 && b.1 < a.1 + a.2

def anyOverlap : List (Nat × Nat) → Bool
  | [] => false
  | r :: rs => rs.any (overlap r) || anyOverlap rs

/-- The layout fields of R107 hold. -/
def layoutOk (m : Header) : Bool :=
  let g := geoOf m
  let len := if Hd.order m then rowBytes g.w g.rows else g.rb
  let off (present : Bool) (o : Nat) : Bool := if present then 64 ≤ o && o % 16 = 0 else o = 0
  Hd.pitch m % 16 = 0 && len ≤ Hd.pitch m && off (g.scale ≠ 0) (Hd.soff m) && off (g.scale = 3) (Hd.boff m)
    && off g.sparse (Hd.moff m) && !anyOverlap (memRegions m)

/-- Bytes from the header to the end of the furthest region (R240). -/
def memSpan (m : Header) : Nat := (memRegions m).foldl (fun n r => max n (r.1 + r.2)) 64

/-! ## Places of bytes (R110, R116, R129) -/

def bankBytes : Nat := 16384

/-- The raw scratchpad offset of byte `o` of row `i`; side rows follow the 16 × NBR data rows. -/
def spOffset (g : Geo) (base span i o : Nat) : Nat :=
  let bi := i / 16
  let bj := o / 16
  (base + (bi + bj) % span) * bankBytes + (bi * g.wide span + bj / span) * 256 + i % 16 * 16 + o % 16

/-- The raw scratchpad offset of side byte `k`. -/
def spSide (g : Geo) (base span k : Nat) : Nat := spOffset g base span (16 * g.nbr + k / (16 * g.nbc)) (k % (16 * g.nbc))

/-- Byte `o` of row `i` of an operand slot, and of an accumulator. -/
def omOffset (slot i o : Nat) : Nat := slot * 8192 + i * 128 + o
def accOffset (n i o : Nat) : Nat := bankBytes * n + i * 256 + o

/-- The parts of a slot's side store: block scales, metadata, band scales. -/
def sideScale (slot k : Nat) : Nat := slot * 65536 + k
def sideMeta (slot k : Nat) : Nat := slot * 65536 + 0x4000 + k
def sideBand (slot k : Nat) : Nat := slot * 65536 + 0x8000 + k

/-- The row-poison unit of a level 1 or 2 tile: slots 0–127, accumulators 128–143. -/
def poisonUnit (t : Tile) : Nat := if t.lv = .acc then 128 + t.base else t.base

/-- The places of a row's parts in the side array: its block scales and metadata, and its band scale. -/
def Geo.sideParts (g : Geo) (i : Nat) : List Nat :=
  (List.range g.nb).map (· + i * g.nb)
    ++ (if g.scale = 3 then [g.rows * g.nb + 2 * (i / 64), g.rows * g.nb + 2 * (i / 64) + 1] else [])
    ++ (List.range g.mb).map (· + (g.rows * g.nb + 2 * g.bands + i * g.mb))

/-! ## Tile values -/

/-- What a tile holds, by row and position. -/
structure TileVal where
  geo : Geo
  code : Nat → Nat → Nat
  scale : Nat → Nat → Nat
  band : Nat → Nat
  metaB : Nat → Nat → Nat
  rowP : Nat → Bool

/-- Element `j` of a packed row of bytes (R82). -/
def codeAt (row : Nat → Byte) (w j : Nat) : Nat :=
  bytesNat ((List.range 5).map (fun k => row (j * w / 8 + k))) / 2 ^ (j * w % 8) % 2 ^ w

/-- Byte `o` of a row of `n` packed elements; padding is zero (R82). -/
def packByte (code : Nat → Nat) (w n o : Nat) : Byte :=
  BitVec.ofNat 8 ((List.range 8).foldl (fun acc t =>
    let b := 8 * o + t
    if b / w < n && code (b / w) / 2 ^ (b % w) % 2 = 1 then acc + 2 ^ t else acc) 0)

/-- A tile value from its rows of bytes and its side regions. -/
def tileFrom (g : Geo) (row : Nat → Nat → Byte) (sc : Nat → Byte) (bd : Nat → Byte) (md : Nat → Byte)
    (rowP : Nat → Bool) : TileVal :=
  { geo := g
    code := fun i j => codeAt (row i) g.w j
    scale := fun i b => (sc (i * g.nb + b)).toNat
    band := fun q => (bd (2 * q)).toNat + 256 * (bd (2 * q + 1)).toNat
    metaB := fun i k => (md (i * g.mb + k)).toNat
    rowP }

/-- The tile a handle names, as its storage holds it. -/
def Core.tileVal (k : Core) (t : Tile) : TileVal :=
  let g := geoOf t.hdr
  match t.lv with
  | .sp =>
    let side (n : Nat) : Byte := peek k.sp (spSide g t.base t.span n)
    let mark (a : Nat) : Bool := mget false k.spPoison (a / 16)
    tileFrom g (fun i o => peek k.sp (spOffset g t.base t.span i o)) side
      (fun n => side (g.rows * g.nb + n)) (fun n => side (g.rows * g.nb + 2 * g.bands + n))
      (fun i => (List.range g.nbc).any (fun j => mark (spOffset g t.base t.span i (16 * j)))
        || (g.sideParts i).any (fun n => mark (spSide g t.base t.span n)))
  | .om => tileFrom g (fun i o => peek k.om (omOffset t.base i o)) (fun n => peek k.omSide (sideScale t.base n))
      (fun n => peek k.omSide (sideBand t.base n)) (fun n => peek k.omSide (sideMeta t.base n))
      (fun i => mget false k.rowPoison (64 * t.base + i))
  | .acc => tileFrom g (fun i o => peek k.acc (accOffset t.base i o)) (fun _ => 0) (fun _ => 0) (fun _ => 0)
      (fun i => mget false k.rowPoison (64 * (128 + t.base) + i))

/-- The side array of a value: block scales, band scales, metadata (R116). -/
def TileVal.sideByte (v : TileVal) (n : Nat) : Byte :=
  let g := v.geo
  let a := g.rows * g.nb
  let b := a + 2 * g.bands
  if n < a then BitVec.ofNat 8 (v.scale (n / g.nb) (n % g.nb))
  else if n < b then BitVec.ofNat 8 (v.band ((n - a) / 2) / 256 ^ ((n - a) % 2))
  else if n < g.sb then BitVec.ofNat 8 (v.metaB ((n - b) / g.mb) ((n - b) % g.mb))
  else 0

/-- Is a row poisoned that a side byte belongs to? A granule of side bytes of several rows takes the poison of each (log 87). -/
def TileVal.sideP (v : TileVal) (n : Nat) : Bool :=
  let g := v.geo
  let a := g.rows * g.nb
  let b := a + 2 * g.bands
  if n < a then v.rowP (n / g.nb)
  else if n < b then ((List.range 64).map (· + 64 * ((n - a) / 2))).any (fun i => i < g.rows && v.rowP i)
  else if n < g.sb then v.rowP ((n - b) / g.mb)
  else false

/-- Data byte `o` of row `i`. -/
def TileVal.rowByte (v : TileVal) (i o : Nat) : Byte := packByte (v.code i) v.geo.w v.geo.stored o

/-- A scratchpad granule to be written: raw granule number, bytes, poison. -/
structure SpWrite where
  g : Nat
  bytes : List Byte
  poison : Bool
  deriving DecidableEq, Repr

/-- The granules that an engine writes for a level-0 tile, data rows first. -/
def TileVal.spWrites (v : TileVal) (base span : Nat) : List SpWrite :=
  let g := v.geo
  (List.range g.rows).flatMap (fun i => (List.range g.nbc).map (fun j =>
    { g := spOffset g base span i (16 * j) / 16
      bytes := (List.range 16).map (fun o => if 16 * j + o < g.rb then v.rowByte i (16 * j + o) else 0)
      poison := v.rowP i }))
  ++ (List.range (ceilDiv g.sb 16)).map (fun q =>
    { g := spSide g base span (16 * q) / 16
      bytes := (List.range 16).map (fun o => v.sideByte (16 * q + o))
      poison := (List.range 16).any (fun o => v.sideP (16 * q + o)) })

/-- An engine writes one granule of scratchpad: Full, with its row's poison (R119, R185); `view` is the floor of the thread
that issued the operation (R210). -/
def Core.putSp (k : Core) (w : SpWrite) (view : Nat := 0) : Core :=
  { k with sp := pokes k.sp (16 * w.g) w.bytes, spPoison := mset false k.spPoison w.g w.poison,
           spState := mset .empty k.spState w.g .full, spView := mset 0 k.spView w.g (Nat.max (mget 0 k.spView w.g) view) }

/-- Write a whole level 1 or 2 tile, with its row-poison bits. -/
def Core.putUnit (k : Core) (t : Tile) (v : TileVal) : Core :=
  let g := v.geo
  let rows := List.range g.rows
  let marks := rows.foldl (fun m i => mset false m (64 * poisonUnit t + i) (v.rowP i)) k.rowPoison
  let data (at_ : Nat → Nat → Nat) : List (Nat × Byte) :=
    rows.flatMap (fun i => (List.range g.rb).map (fun o => (at_ i o, v.rowByte i o)))
  let a := g.rows * g.nb
  let b := a + 2 * g.bands
  let side : List (Nat × Byte) :=
    (List.range a).map (fun n => (sideScale t.base n, v.sideByte n))
    ++ (List.range (2 * g.bands)).map (fun n => (sideBand t.base n, v.sideByte (a + n)))
    ++ (List.range (g.rows * g.mb)).map (fun n => (sideMeta t.base n, v.sideByte (b + n)))
  match t.lv with
  | .acc => { k with acc := pokeAll k.acc (data (accOffset t.base)), rowPoison := marks }
  | _ => { k with om := pokeAll k.om (data (omOffset t.base)), omSide := pokeAll k.omSide side, rowPoison := marks
                  sideBad := if side.isEmpty then k.sideBad else mclear k.sideBad (528 * t.base) (528 * t.base + 528) }

/-! ## The tile table (R109–R114) -/

/-- The table of the resident workgroup; with none, no handle exists. -/
def Core.tile? (k : Core) (h : Nat) : Option Tile :=
  match k.wg with
  | some w => if h < 256 then (w.tiles.find? (fun p => p.1 == h)).map (·.2) else none
  | none => none

/-- Replace or remove an entry of the table. -/
def Core.setTile (k : Core) (h : Nat) (t : Option Tile) : Core :=
  { k with wg := k.wg.map (fun w => { w with tiles := match t with
      | some t => mins w.tiles h t
      | none => mdel w.tiles h }) }

def Tile.wild (t : Tile) : Wild := ⟨t.xshape, t.xsparse, t.xscale, t.xfmt⟩
def Tile.ok (t : Tile) : Bool := !t.bad && Hd.ok t.hdr

/-- The control word (Table 5-4). -/
def Tile.ctl (t : Tile) : Word :=
  let b (x : Bool) (n : Nat) : Nat := if x then 2 ^ n else 0
  BitVec.ofNat 32 ((match t.lv with | .sp => 0 | .om => 2 ^ 30 | .acc => 2 ^ 31)
    + b t.xshape 29 + b t.xsparse 28 + b t.xscale 27 + b t.xfmt 26 + b t.ok 25
    + (if t.lv = .sp then 256 * t.span else 0) + t.base)

/-- The banks below the carved ones (R115); `carve` counts units of 32 banks. -/
def Core.bankLimit (k : Core) : Nat := 192 - 32 * k.carve

def Core.tiles (k : Core) : List (Nat × Tile) := match k.wg with
  | some w => w.tiles
  | none => []

/-- The lowest base of `span` free banks (R117). -/
def Core.freeBanks (k : Core) (span : Nat) : Option Nat :=
  (List.range (k.bankLimit + 1 - span)).find? (fun b => k.tiles.all (fun p =>
    p.2.lv ≠ .sp || b + span ≤ p.2.base || p.2.base + p.2.span ≤ b))

/-- The lowest free slot or accumulator (R117). -/
def Core.freeUnit (k : Core) (lv : Level) (n : Nat) : Option Nat :=
  (List.range n).find? (fun b => k.tiles.all (fun p => p.2.lv ≠ lv || p.2.base ≠ b))

/-- The automatic span: at least 4, grown until the tile fits (R117). -/
def autoSpan (g : Geo) : Option Nat :=
  let start := max 4 (min 64 (max g.nbc g.nbr))
  ((List.range (65 - start)).map (· + start)).find? g.fits

/-- The base and span of a new tile, or none (R117). -/
def Core.placeTile (k : Core) (m : Header) (md : AllocMod) : Option (Nat × Nat) :=
  let w : Wild := ⟨md.xshape, md.xsparse, md.xscale, md.xfmt⟩
  let g := wildGeo m w
  match md.lv with
  | .sp =>
    let span := if md.span = 0 then (autoSpan g).getD 0 else md.span.toNat
    if md.span ≠ 0 && !(w.fmt || w.shape) && !g.fits span then none
    else (k.freeBanks span).map (fun b => (b, span))
  | .om => (k.freeUnit .om 128).map (fun b => (b, 0))
  | .acc => (k.freeUnit .acc 16).map (fun b => (b, 0))

/-- The storage of a tile reads as zero, unpoisoned, every granule Empty (R114, R126). -/
def Core.clearStorage (k : Core) (t : Tile) : Core :=
  match t.lv with
  | .sp =>
    let lo := t.base * bankBytes
    let hi := (t.base + t.span) * bankBytes
    { k with sp := mclear k.sp lo hi, spPoison := mclear k.spPoison (lo / 16) (hi / 16),
             spState := mclear k.spState (lo / 16) (hi / 16) }
  | .om =>
    { k with om := mclear k.om (t.base * 8192) ((t.base + 1) * 8192),
             omSide := mclear k.omSide (t.base * 65536) ((t.base + 1) * 65536),
             rowPoison := mclear k.rowPoison (64 * t.base) (64 * t.base + 64)
             sideBad := mclear k.sideBad (528 * t.base) (528 * t.base + 528) }
  | .acc =>
    { k with acc := mclear k.acc (t.base * bankBytes) ((t.base + 1) * bankBytes),
             rowPoison := mclear k.rowPoison (64 * (128 + t.base)) (64 * (128 + t.base) + 64) }

/-- Every granule of a level-0 tile's span becomes `st` (Table 5-5). -/
def Core.setSpan (k : Core) (t : Tile) (st : GState) : Core :=
  match t.lv with
  | .sp =>
    let lo := t.base * 1024
    let hi := (t.base + t.span) * 1024
    match st with
    | .empty => { k with spState := mclear k.spState lo hi }
    | _ => { k with spState := (List.range (hi - lo)).foldl (fun m i => mset .empty m (lo + i) st) k.spState }
  | _ => k

/-- Does a header fit what a tile has reserved (R124, R129)? Slots and accumulators take what their level accepts. -/
def Tile.holds (t : Tile) (m : Header) (w : Wild) : Bool :=
  t.lv ≠ .sp || w.fmt || w.shape || (wildGeo m w).fits t.span

/-- A write fills wildcard fields: from `fmt`, `scale`, `sparse`, `rows` and `cols` (R123, R124). The bits still wildcard
are none afterwards. ORDER, PITCH and the offsets are carried unchanged, as R107 says of layout fields inside the core. -/
def Tile.fill (t : Tile) (g : Geo) : Tile :=
  let m := t.hdr
  let m := if t.xfmt then bput m 16 4 g.fmt else m
  let m := if t.xscale then bput m 20 2 g.scale else m
  let m := if t.xsparse then bput m 22 1 (if g.sparse then 1 else 0) else m
  let m := if t.xshape then bput (bput m 32 16 g.rows) 48 16 g.cols else m
  { t with hdr := Hd.rehash m, xfmt := false, xscale := false, xsparse := false, xshape := false }

/-- The destination of a product: completed, and every other field of its header zero but the marks (R123). -/
def Tile.product (t : Tile) (g : Geo) : Tile :=
  let t := t.fill g
  { t with hdr := Hd.rehash (bput (bput (bput (bput (bput t.hdr 23 1 0) 64 32 0) 96 32 0) 128 32 0) 160 32 0) }

/-- What forbids a completed destination: HDR_UNSUPPORTED or TILE_SPACE (R124). -/
def Tile.fillFault (t : Tile) (g : Geo) : Option Cause :=
  if !t.wild.any then none
  else
    let t' := t.fill g
    if !descOk (some t.lv) t'.hdr {} then some .hdrUnsupported
    else if !t.holds t'.hdr {} then some .tileSpace
    else none

/-- Mark a handle's header with NL, SAT, PROW (R172). -/
def Core.markTile (k : Core) (h v : Nat) : Core :=
  match k.tile? h with
  | some t => k.setTile h (some { t with hdr := Hd.mark t.hdr v })
  | none => k

/-! ## Engine work that reaches a handle's storage (R113) -/

/-- Does a raw scratchpad or engine-memory image cover a tile? `src` is SRC of Table 23-2. -/
def EngKind.reaches (e : EngKind) (h : Nat) (t : Tile) : Bool :=
  match e with
  | .bytes .. => false
  | .gatherMem .. => false
  | .tileIn h' .. => h' == h
  | .tileOut _ h' _ => h' == h
  | .gatherTile _ _ _ _ h' => h' == h
  | .sealImg _ side src _ _ dlen | .openImg side _ src _ _ dlen =>
    let off := side.toNat % 2 ^ 32
    if src = 1 then
      t.lv == .sp && off < (t.base + t.span) * bankBytes && t.base * bankBytes < off + dlen
    else if src = 3 then t.lv ≠ .sp
    else false

/-- Does a live operation reach the storage of handle `h`? -/
def Core.handleInUse (k : Core) (h : Nat) : Bool :=
  match k.tile? h with
  | none => false
  | some t => k.tasks.any (fun x => x.ha == h || x.hb == h || (x.kind == .mma && x.hc == h))
      || k.ops.any (fun o => o.kind.reaches h t)

end Sys2Proof.Machine
end

