-- ==== Sys2Proof/Machine/Barriers.lean ====
section
/-! DEFINITION. Barrier instances, arrivals and waits (13_control_and_waiting R299–R306), and interrupt arrivals at them
(18_root_complex R352–R355). -/

namespace Sys2Proof.Machine

/-! ## Blocks (R26) -/

/-- The size of a sub-rectangle of level `k`: the larger dimension is halved, the width when they are equal. -/
def levelSize (w h : Nat) : Nat → Nat × Nat
  | 0 => (w, h)
  | k + 1 =>
    let (w, h) := levelSize w h k
    if h ≤ w then (w / 2, h) else (w, h / 2)

/-- The origin of the block of level `k` that holds a core. -/
def blockOrigin (wg : Workgroup) (k : Nat) : Nat × Nat :=
  let (w, h) := levelSize wg.rw wg.rh k
  (w * (wg.cx / w), h * (wg.cy / h))

/-- The highest level of a rectangle. -/
def maxLevel (wg : Workgroup) : Nat := wg.rw.log2 + wg.rh.log2

/-! ## Instances (Table 13-3) -/

def isBlockBar (b : Nat) : Bool := 16 ≤ b && b ≤ 23

/-- The launch that a workgroup belongs to. -/
def State.grantOf (s : State) (wg : Workgroup) : Option Grant := (s.slot wg.slot).grant

/-- One of barriers 16–23 of a launch; one that nothing has used is as at the first grant. -/
def blockBar (l : List BlockBar) (b lvl : Nat) (o : Nat × Nat) : Barrier :=
  ((l.find? (fun x => x.b == b && x.lvl == lvl && x.ox == o.1 && x.oy == o.2)).map (·.bar)).getD {}

def setBlockBar (l : List BlockBar) (b lvl : Nat) (o : Nat × Nat) (v : Barrier) : List BlockBar :=
  l.filter (fun x => !(x.b == b && x.lvl == lvl && x.ox == o.1 && x.oy == o.2)) ++ [⟨b, lvl, o.1, o.2, v⟩]

/-- The one that the workgroup on a core names. -/
def State.barrier (s : State) (c b lvl : Nat) : Barrier :=
  match (s.core c).wg with
  | none => {}
  | some wg =>
    if isBlockBar b then
      match s.grantOf wg with
      | some g => blockBar g.bars b lvl (blockOrigin wg lvl)
      | none => {}
    else mget {} wg.bars b

def State.setBarrier (s : State) (c b lvl : Nat) (v : Barrier) : State :=
  match (s.core c).wg with
  | none => s
  | some wg =>
    if isBlockBar b then
      s.modSlot wg.slot (fun sl => { sl with grant := sl.grant.map (fun g =>
        { g with bars := setBlockBar g.bars b lvl (blockOrigin wg lvl) v }) })
    else s.modCore c (fun k => { k with wg := k.wg.map (fun w => { w with bars := mset {} w.bars b v }) })

/-! ## Phases and waits (R301, R302) -/

/-- Has the target phase completed? (C − target) mod 2^16 lies in 1 … 32,767. -/
def phaseDone (c target : BitVec 16) : Bool := let d := (c - target).toNat; 1 ≤ d && d ≤ 32767

/-- The barrier after one more arrival of a phase of `count`, by a thread whose floor is `view` (R214). -/
def Barrier.arrive (x : Barrier) (count view : Nat) : Barrier :=
  let n := x.arrivals + 1
  let c := x.count.getD count
  let v := Nat.max x.view view
  if n = c then { phase := x.phase + 1, count := none, arrivals := 0, view := 0, doneView := Nat.max x.doneView v }
  else { x with count := some c, arrivals := n, view := v }

/-- A waiter leaves: S ← C, the arrival record empty, and an acquire that every arrival of the completed phases synchronises
with (R302, R214). -/
def Thread.leaveBarrier (th : Thread) (b : Nat) (x : Barrier) : Thread :=
  { th with seen := mset 0 th.seen b x.phase, arrive := mset none th.arrive b none, mv := th.mv.raise x.doneView }

/-- The cores whose waiters a barrier of a core wakes. -/
def State.barCores (s : State) (c b : Nat) : List Nat :=
  if isBlockBar b then
    match (s.core c).wg with
    | some wg => s.wgCores.filter (fun c' => match (s.core c').wg with
      | some w => w.slot == wg.slot && !w.killed
      | none => false)
    | none => [c]
  else [c]

/-- Wake every thread of a core whose target phase of a barrier has completed. -/
def State.wakeBarrier (s : State) (c b lvl : Nat) : State :=
  (s.core c).threads.foldl (fun s p =>
    match p.2.run with
    | .parked (.barrier b' lvl' target) =>
      let x := s.barrier c b lvl
      if b' = b && lvl' = lvl && phaseDone x.phase target then s.wake (hartOf c p.1) (·.leaveBarrier b x) else s
    | _ => s) s

/-- Set a barrier and wake its waiters, on every core of its block (R304). -/
def State.advanceBarrier (s : State) (c b lvl : Nat) (v : Barrier) : State :=
  let s := s.setBarrier c b lvl v
  (s.barCores c b).foldl (fun s c' => s.wakeBarrier c' b lvl) s

/-! ## Interrupt arrivals (R305, R353) -/

/-- One arrival at barrier 24–31 of the workgroup on a core: one phase, a release at sys scope of all that has been performed
there (R214, R216). -/
def State.irqPhase (s : State) (c b : Nat) : State :=
  let x := s.barrier c b 0
  s.advanceBarrier c b 0 { x with phase := x.phase + 1, doneView := s.instant }

/-- Kind 0x05, logged against a requester ID where there is one (R347). -/
def State.logRequest (s : State) (rid : Option (BitVec 16)) (ctx : Nat) (addr : Nat) : State :=
  let loc : Word := match rid with
    | some r => locWord { kind := 8, core := 0, index := r.setWidth 20 }
    | none => 0xF0000000
  s.logRaw { ev := 0x05, ctx, loc, value := BitVec.ofNat 64 addr }

/-- The bus address of an entry's aperture (R352). -/
def irqAddr (n : Nat) : Nat := 0xFEE00000 + 16 * n

/-- An arrival for an entry, by its STATE (R353). -/
def State.irqArrive (s : State) (n : Nat) (rid : Option (BitVec 16)) : State :=
  let e := s.irq n
  if IrqF.state e = 1 then s.irqPhase (IrqF.core e) (24 + IrqF.bar e)
  else if IrqF.state e = 2 then s.setIrq n (bput e 12 16 (Nat.min 65535 (IrqF.pend e + 1)))
  else s.logRequest rid (IrqF.ctx e) (irqAddr n)

/-- Does any entry bind a barrier of the workgroup on a core? -/
def State.irqBound (s : State) (c b : Nat) : Bool :=
  s.io.irqs.any (fun p => IrqF.state p.2 == 1 && IrqF.core p.2 == c && 24 + IrqF.bar p.2 == b)

/-- Remove a binding: the entry unbound, its PEND cleared, and, when no entry binds that barrier any more, its waiters
trap with BAR_SCOPE (R305, R352). -/
def State.unbindIrq (s : State) (n : Nat) : State :=
  let e := s.irq n
  let was := IrqF.state e = 1
  let c := IrqF.core e
  let b := 24 + IrqF.bar e
  let s := (s.setIrq n (IrqF.unbind e)).dropHeld n
  if was && !s.irqBound c b then
    (s.core c).threads.foldl (fun s p => match p.2.run with
      | .parked (.barrier b' _ _) =>
        if b' = b then s.takeTrap (hartOf c p.1) .barScope (BitVec.ofNat 64 b) p.2.pc else s
      | _ => s) s
  else s

/-- A system-core write of an entry: V, SRC, CTXID and RID (R352). -/
def State.writeIrq (s : State) (n : Nat) (v : BitVec 64) : State :=
  let e := s.irq n
  let keep := bputs e [(63, 1, bget v 63 1), (62, 1, bget v 62 1), (44, 16, bget v 44 16), (28, 16, bget v 28 16)]
  let changed := bget v 62 1 ≠ bget e 62 1 || bget v 44 16 ≠ bget e 44 16 || bget v 28 16 ≠ bget e 28 16
    || !(v.getLsbD 63)
  if changed then
    let s := s.unbindIrq n
    s.setIrq n (IrqF.unbind keep)
  else s.setIrq n keep

/-- An arrival through the entry that a context's messages use (R334); an MSGV that names no entry of the table gives a refused one, which
is logged (DESIGN CHOICE, log 128). -/
def State.msgArrive (s : State) (x : Nat) : State :=
  let n := CtxF.msgv (s.ctxRec x)
  let e := s.irq n
  if n < 4096 && IrqF.v e && IrqF.src e then s.irqArrive n none else s.logRequest none x (irqAddr n)

end Sys2Proof.Machine
end

