-- ==== Sys2Proof/Machine/Tlb.lean ====
section
/-! DEFINITION. Removing translations, and the drain that a TLBI, the invalidation request register and a demotion wait
for (R217, R255, R338). -/

namespace Sys2Proof.Machine

/-- Does an invalidation remove a held translation? -/
def tlbHit (kind : TlbiKind) (addr : Nat) (ctx : Nat) (t : TlbEnt) : Bool :=
  match kind with
  | .page => t.ctx.toNat == ctx && decide (t.va ≤ addr) && decide (addr < t.va + t.size)
  | .ctx => t.ctx.toNat == ctx
  | .all => true

/-- Remove translations from every TLB, core cache and IOMMU cache. -/
def State.tlbRemove (s : State) (kind : TlbiKind) (addr ctx : Nat) : State :=
  s.modIo (fun io => { io with tlb := io.tlb.filter (fun t => !tlbHit kind addr ctx t) })

/-- The functions that may hold translations through ATS: each receives an invalidation, one whose table entry has since lost its V
or ATS bit too (R338). -/
def State.atsFunctions (s : State) : List (BitVec 16) :=
  let now := (s.io.fns.filter (fun p => p.2.getLsbD 63 && p.2.getLsbD 62)).map (fun p => BitVec.ofNat 16 p.1)
  s.io.ats.foldl (fun rs t => if rs.contains t.rid then rs else rs ++ [t.rid]) now

/-- A function's invalidation is complete: what it holds through ATS under that invalidation goes (R217). -/
def State.dropAts (s : State) (rid : BitVec 16) (d : Drain) : State :=
  s.modIo (fun io => { io with ats := io.ats.filter (fun t => !(t.rid == rid && tlbHit d.kind d.addr.toNat d.ctx.toNat t.ent)) })

/-- Has a thread a store to global memory still queued? -/
def Thread.storesGlobal (th : Thread) : Bool := th.storeQ.any (fun e => e.space == .global)

/-- Does an engine operation wait for a page's migration (R236)? -/
def State.opWaits (s : State) (c : Nat) (o : EngOp) : Bool :=
  s.io.migs.any (fun m => m.waiters.contains (.engine c o.token))

/-- Has every store to global memory that has been checked taken effect, every request to a peer been answered, and every
engine operation that has begun ended (R217)? The model waits for every such access of the device, whatever translation it
used, but for an operation that itself waits for a migration (log 17). -/
def State.accessesDone (s : State) : Bool :=
  s.cores.all (fun p => p.2.ops.all (fun o => o.done.isEmpty || s.opWaits p.1 o)) &&
  s.cores.all (fun p => p.2.coreOrder.all (fun e => e.space ≠ .global) && p.2.threads.all (fun t => !t.2.storesGlobal))
    && s.mgmt.order.all (fun e => e.space ≠ .global) && !s.mgmt.thread.storesGlobal && s.io.peers.isEmpty

/-- Start an invalidation: translations go at once, the drain follows. -/
def State.startDrain (s : State) (who : DrainFor) (kind : TlbiKind) (addr : BitVec 64) (ctx : BitVec 16) : State :=
  let s := s.tlbRemove kind addr.toNat ctx.toNat
  s.modIo (fun io => { io with drains := io.drains ++ [⟨who, kind, addr, ctx, s.atsFunctions⟩] })

def State.drainOf (s : State) (who : DrainFor) : Option Drain := s.io.drains.find? (fun d => d.who == who)

/-- Has a drain ended? -/
def State.drained (s : State) (d : Drain) : Bool := d.owing.isEmpty && s.accessesDone

def State.dropDrain (s : State) (who : DrainFor) : State :=
  s.modIo (fun io => { io with drains := io.drains.filter (fun d => d.who ≠ who) })

/-- Drop the drains of a core's harts, whose TLBI will not go on: the core starts afresh (R338, R400). -/
def State.dropDrainsOf (s : State) (c : Nat) : State :=
  s.modIo (fun io => { io with drains := io.drains.filter (fun d => match d.who with
    | .hart h => h.core? ≠ some c
    | _ => true) })

/-- Has a drain of the register or of a demotion ended? A hart's TLBI ends its own. -/
def State.settles (s : State) (d : Drain) : Bool :=
  s.drained d && match d.who with
    | .hart _ => false
    | _ => true

/-- Acknowledge the drains of the register and of demotions that have ended; DONE reads 1 once no request of the register is
left (log 18). -/
def State.settleDrains (s : State) : State :=
  let ended := s.io.drains.filter s.settles
  let left := s.io.drains.filter (fun d => !s.settles d)
  s.modIo (fun io => { io with
    drains := left
    invDone := io.invDone || (ended.any (fun d => d.who == .register) && !left.any (fun d => d.who == .register)) })

end Sys2Proof.Machine
end

