-- ==== Sys2Proof/Machine/IoSpace.lean ====
section
/-! DEFINITION. I/O die control space (20_trust R369, Tables 20-8 and 20-9), and the tables that stand in it: contexts
(R326–R334), the doorbell map (R348, R349), the function table, NTB windows (R356), the free-frame rings (R256), the
invalidation request register (R338) and the management message port (R361). -/

namespace Sys2Proof.Machine

/-- A refused write of control space (kind 0x04, R19): VALUE is the offset. -/
def State.refuseIo (s : State) (off : Nat) : State := s.logRaw { ev := 0x04, value := BitVec.ofNat 64 off }

/-- Word `k` of 64 bits of a record, and the record with the masked bits of that word replaced. -/
def wordOf {n : Nat} (r : BitVec n) (k : Nat) : BitVec 64 := r.extractLsb' (64 * k) 64
def mixWord (old v mask : BitVec 64) : BitVec 64 := (old &&& ~~~mask) ||| (v &&& mask)
def putWord {n : Nat} (r : BitVec n) (k : Nat) (v mask : BitVec 64) : BitVec n :=
  bput r (64 * k) 64 (mixWord (wordOf r k) v mask).toNat

/-! ## Contexts (R326, R327, R334) -/

/-- Is MSGV valid? The model takes every value but 0xFFFF as valid, also one that names no entry of the interrupt binding table (DESIGN
CHOICE, log 128). -/
def msgvValid (r : BitVec 256) : Bool := CtxF.msgv r ≠ 0xFFFF

/-- Deliver the arrivals a context holds, one by one (R334). -/
def State.deliverHeld (s : State) (x : Nat) : State :=
  let r := s.ctxRec x
  if CtxF.state r = 1 && CtxF.run r = 0 && msgvValid r then
    (List.range (CtxF.pend r)).foldl (fun s _ => s.msgArrive x) (s.setCtxRec x (bput r 160 16 0))
  else s

/-- A change of RUN (R331): 11 is ignored; becoming 00 delivers what is held. -/
def State.writeRun (s : State) (x run : Nat) : State :=
  let r := s.ctxRec x
  if run = 3 then s
  else
    let s := s.setCtxRec x (bput r 105 2 run)
    if run = 0 && CtxF.run r ≠ 0 then s.deliverHeld x else s

/-- A system-core write of a whole record (R326, R327). -/
def State.writeCtx (s : State) (x : Nat) (v : BitVec 256) : State :=
  let r := s.ctxRec x
  let st := bget v 102 3
  let off := 0x100000 + 32 * x
  let clash := st ≠ 0 && s.io.ctxs.any (fun p => p.1 ≠ x && CtxF.state p.2 ≠ 0 && CtxF.pasid p.2 == bget v 116 20)
    || st ≠ 0 && x ≠ 0 && bget v 116 20 = CtxF.pasid (s.ctxRec 0)
  if (x = 0 && st ≠ 1) || 3 ≤ st || clash then s.refuseIo off
  else
    let owned := bget v 108 8 ≠ CtxF.guilt r || bget v 105 3 ≠ bget r 105 3
    let keep := bputs r [(192, 64, bget v 192 64), (176, 16, bget v 176 16), (156, 4, bget v 156 4),
      (136, 12, bget v 136 12), (116, 20, bget v 116 20), (102, 3, st), (14, 34, bget v 14 34)]
    let s := s.setCtxRec x keep
    if owned then s.refuseIo off else s

/-! ## Doorbells, functions and windows -/

def State.bell (s : State) (i : Nat) : BitVec 256 := mget 0 s.io.doorbells i
namespace Bell
def v (e : BitVec 256) : Bool := e.getLsbD 255
def kind (e : BitVec 256) : Nat := bget e 253 2
def size8 (e : BitVec 256) : Bool := e.getLsbD 252
def ctx (e : BitVec 256) : Nat := bget e 236 16
def slog (e : BitVec 256) : Nat := bget e 232 4
def target (e : BitVec 256) : BitVec 64 := wordOf e 2
def vaddr (e : BitVec 256) : BitVec 64 := wordOf e 1
end Bell

/-- Doorbells matched to an entry and not yet sent. -/
def State.bellHeld (s : State) (i : Nat) : Nat := (s.io.proxy.filter (fun h => h.entry == i)).length

/-- Is another entry, as it stands or as a pending write will leave it, valid with the same name for the same context? -/
def State.bellTwin (s : State) (i : Nat) (e : BitVec 256) : Bool :=
  let twin (k : Nat) (x : BitVec 256) : Bool := k ≠ i && Bell.v x && Bell.ctx x == Bell.ctx e && Bell.vaddr x == Bell.vaddr e
  s.io.doorbells.any (fun p => twin p.1 p.2) || s.io.dbPending.any (fun p => match p.2 with
    | some x => twin p.1 x
    | none => false)

/-- A write of a map entry (R348, R349): refused whole, at once, or pending until HELD reaches 0, in place of an earlier
pending one. The reserved fields stay zero, and so do VADDR bits 63:60 and 2:0. -/
def State.writeBell (s : State) (i : Nat) (v : BitVec 256) : State :=
  let e := bputs v [(192, 40, 0), (124, 4, 0), (64, 3, 0), (0, 64, 0)]
  if Bell.v e && (s.bellTwin i e || Bell.kind e = 3 || (Bell.size8 e && Bell.kind e ≠ 0)) then s.refuseIo (0x300000 + 32 * i)
  else if s.bellHeld i ≠ 0 && e ≠ s.bell i then s.modIo (fun io => { io with dbPending := mset none io.dbPending i (some e) })
  else s.modIo (fun io => { io with doorbells := mset 0 io.doorbells i e, dbPending := mset none io.dbPending i none })

/-- A pending write takes effect once HELD is 0 (R349). -/
def State.settleBell (s : State) (i : Nat) : State :=
  if s.bellHeld i = 0 then
    match mget none s.io.dbPending i with
    | some e => s.modIo (fun io => { io with doorbells := mset 0 io.doorbells i e, dbPending := mset none io.dbPending i none })
    | none => s
  else s

def State.fn (s : State) (rid : Nat) : BitVec 64 := mget 0 s.io.fns rid

/-- The location of a port's link (KIND 5). -/
def linkLoc (port : Nat) : Loc := { kind := 5, core := 0, index := BitVec.ofNat 20 (256 * port) }

/-- LINK_DOWN is logged for a port (R357). -/
def State.logLinkDown (s : State) (port : Nat) : State :=
  s.logAt 0x01 Cause.linkDown.code 0 (linkLoc port) (BitVec.ofNat 64 port)

/-- Write a loaded value of `n` bytes: 1 and 2 are extended (R228). -/
def Thread.putData (th : Thread) (d : Dest) (n : Nat) (sx : Bool) (v : BitVec 128) (p : Bool) : Thread :=
  if n = 16 then th.putQuad d v p
  else if n = 8 then th.putPair d (v.setWidth 64) p
  else if n = 4 then th.put32 d (v.setWidth 32) p
  else if n = 2 then
    let x : BitVec 16 := v.setWidth 16
    th.put32 d (if sx then x.signExtend 32 else x.setWidth 32) p
  else
    let x : BitVec 8 := v.setWidth 8
    th.put32 d (if sx then x.signExtend 32 else x.setWidth 32) p

def bytesVal (bs : List Byte) : BitVec 128 := BitVec.ofNat 128 (bytesNat bs)

/-- A loaded value, or the sum of a cell (R101), pushed and written. -/
def loadResult (a : Access) (sx sc : Bool) (bs : List Byte) (mark : Bool) (th : Thread) : Thread :=
  if sc then
    let (v, fl) := cellRead (bytesVal bs)
    (th.raise fl).put32 a.dst v mark
  else th.putData a.dst a.size sx (bytesVal bs) mark

/-- A link or window has gone (R357): promotions from behind it fail, and the reads sent through it return data with every granule
poisoned. -/
def State.pathLost (s : State) : State :=
  let s := s.markLost
  let lost (r : PeerReq) : Bool := (s.peerWindow? r.pa).isNone
  (s.io.peers.filter lost).foldl (fun s r =>
    let (bs, s) := s.freeBytes16
    match r.a.kind with
    | .load sx sc => s.modThread r.h
        (loadResult r.a sx sc (List.zipWith (fun own b => own.getD b) r.own (bs.take r.a.size)) true)
    | _ => s) (s.modIo (fun io => { io with peers := io.peers.filter (fun r => !lost r) }))

/-- Write an NTB window entry; closing one logs LINK_DOWN (R356, R357). -/
def State.writeWindow (s : State) (i : Nat) (v : BitVec 256) : State :=
  let old : BitVec 256 := mget 0 s.io.ntb i
  let e := bput v 124 104 0
  let s := (s.modIo (fun io => { io with ntb := mset 0 io.ntb i e })).pathLost
  if old.getLsbD 255 && !e.getLsbD 255 then s.logLinkDown (i / 32) else s

/-! ## Port modes (R15, R16) -/

/-- The modes applied to a request, and how many ports the rules held disabled. -/
def applyModes (v : BitVec 32) : BitVec 32 × Nat :=
  let bad (m : Nat) : Bool := 8 ≤ m && m ≤ 11
  let host := (List.range 8).find? (fun p => portMode v p = 4 || portMode v p = 5)
  let lost (p : Nat) : Bool :=
    let m := portMode v p
    bad m || ((m = 4 || m = 5) && host ≠ some p)
  let r := (List.range 8).foldl (fun r p => if lost p || 12 ≤ portMode v p then bput r (4 * p) 4 0 else r) v
  (r, ((List.range 8).filter lost).length)

def State.writeModes (s : State) (v : BitVec 32) : State :=
  let (r, n) := applyModes v
  (List.range n).foldl (fun s _ => s.logRaw { ev := 0x07 }) (s.modIo (fun io => { io with pmode := r }))

/-- Is some link of a role up? -/
def State.roleUp (s : State) (r : PortRole) : Bool :=
  (List.range 32).any (fun l => s.linkRole l == r && s.linkUp l)

/-- Is the link of some root port up? Of the host face? -/
def State.rootUp (s : State) : Bool := s.roleUp .root
def State.hostUp (s : State) : Bool := s.roleUp .host

/-- Is a link up whose options (Table 18-1) have a property? -/
def State.anyLink (s : State) (p : PortOptions → Bool) : Bool :=
  (List.range 32).any (fun l => match mget none s.io.links l with
    | some x => x.up && p x.options
    | none => false)

/-- A function of the host face sends an MSI-X message over a link that has MSI-X generated. Vectors 0 and 1 are its queues', 2 its
configuration changes' (log 101). -/
def State.hostMsix (s : State) (fn vector : Nat) : State :=
  if s.anyLink (·.msixSent) then s.emit (.hostMsix fn vector) else s

/-! ## Free-frame rings (R256, Table 20-9) -/

def State.ring (s : State) (fast : Bool) : BitVec 64 × BitVec 64 :=
  if fast then (s.io.ffr, s.io.ffc) else (s.io.cfr, s.io.cfc)
def State.setRingCtl (s : State) (fast : Bool) (v : BitVec 64) : State :=
  s.modIo (fun io => if fast then { io with ffc := v } else { io with cfc := v })
namespace Ring
def widx (c : BitVec 64) : Nat := bget c 48 16
def ridx (c : BitVec 64) : Nat := bget c 32 16
def thr (c : BitVec 64) : Nat := bget c 16 16
def slog (c : BitVec 64) : Nat := bget c 0 4
def count (c : BitVec 64) : Nat := (widx c + 65536 - ridx c) % 65536
end Ring

/-- A unit's write of device memory under a key slot: a home instant of its own. -/
def State.unitWrite (s : State) (key pa : Nat) (bs : List Byte) (o : Origin := {}) : State :=
  if s.unitReaches pa then s.homeAccess key (fullBytes pa bs) false o else s

/-- Append a frame; a write to a full ring is dropped and logged. -/
def State.appendFrame (s : State) (fast : Bool) (frame : BitVec 64) : State :=
  let (base, c) := s.ring fast
  let n := 2 ^ Ring.slog c
  if n ≤ Ring.count c then s.refuseIo (if fast then 0x530020 else 0x530028)
  else
    (s.unitWrite 0 (base.toNat + 8 * (Ring.widx c % n)) (natBytes 8 frame.toNat)).setRingCtl fast
      (bput c 48 16 (Ring.widx c + 1))

/-- Take a frame; one notice each time the ring falls below its threshold. -/
def State.takeFrame (s : State) (fast : Bool) : Option (BitVec 64 × State) :=
  let (base, c) := s.ring fast
  if Ring.count c = 0 then none
  else
    let f := s.peekMem (base.toNat + 8 * (Ring.ridx c % 2 ^ Ring.slog c)) 8 64
    let c' := bput c 32 16 (Ring.ridx c + 1)
    let s := s.setRingCtl fast c'
    some (f, if Ring.thr c ≤ Ring.count c && Ring.count c' < Ring.thr c then s.emit (.lowFrames fast) else s)

/-! ## The management message port (R361) -/

/-- Write 1 to MSCTL.SEND: the engine stamps SRCMOD, and SRCCTX 0 for the management core (Table 18-10), and takes MSEND;
dropped and logged while BUSY. Poisoned data is not sent: the send completes with STATUS 0x60, as that of a ring's entry does (R389). -/
def State.sendMgmt (s : State) : State :=
  if s.io.msBusy then s.refuseIo 0x530080
  else s.modIo (fun io => { io with
    msBusy := true
    messages := io.messages ++ [⟨bputs io.msend [(64, 8, io.modId.toNat), (96, 16, 0)], true, 0, 0, false, false,
      if io.msendPoison.any (·.2) then some Cause.poisonUse.code else none⟩] })

/-! ## The invalidation request register (R338) -/

def kindOf : Nat → Option TlbiKind
  | 0 => some .page | 1 => some .ctx | 2 => some .all | _ => none

/-- A request starts its drain, beside those that have not ended; DONE reads 0 until the acknowledgement. -/
def State.requestInv (s : State) (kind : TlbiKind) (addr : BitVec 64) (ctx : BitVec 16) : State :=
  let s := s.modIo (fun io => { io with invDone := false })
  (s.startDrain .register kind addr ctx).settleDrains

/-! ## Reading (R369) -/

/-- The code of a stage (Table 25-2). -/
def stageNum : Stage → Nat
  | .winter => 0 | .spring => 1 | .summer => 2

/-- The offset at which STG reads: one of the 26 that Table 20-9 leaves free in the block (R423, log 103). -/
def stgAt : Nat := 0x30 + 8 * (Config.stgOffset % 26)

/-- STG as the system cores read it through control space (R423). -/
def State.stgWord (s : State) : BitVec 64 := BitVec.ofNat 64 (stageNum s.mgmt.stage)


/-- The 64-bit word at an 8-byte aligned offset of a block; `none` outside every block. -/
def State.ioWord (s : State) (o : Nat) : Option (BitVec 64) :=
  if o < 0x80000 then some (mget 0 s.sched.queueTable (o / 8))
  else if 0x100000 ≤ o && o < 0x300000 then some (wordOf (s.ctxRec ((o - 0x100000) / 32)) (o % 32 / 8))
  else if 0x300000 ≤ o && o < 0x380000 then
    let i := (o - 0x300000) / 32
    some (wordOf (bput (s.bell i) 48 16 (s.bellHeld i)) (o % 32 / 8))
  else if 0x400000 ≤ o && o < 0x480000 then some (s.fn ((o - 0x400000) / 8))
  else if 0x480000 ≤ o && o < 0x488000 then some (s.irq ((o - 0x480000) / 8))
  else if 0x490000 ≤ o && o < 0x490400 then some (wordOf (s.slot ((o - 0x490000) / 16)).bindRec (o % 16 / 8))
  else if 0x500000 ≤ o && o < 0x502000 then some (wordOf (mget 0 s.io.ntb ((o - 0x500000) / 32) : BitVec 256) (o % 32 / 8))
  else if 0x510000 ≤ o && o < 0x510100 then
    some (match o - 0x510000 with
      | 0x00 => s.io.pmode.setWidth 64
      | 0x08 => s.io.modId.setWidth 64
      | 0x10 => s.io.ftop
      | 0x18 => s.io.ctop
      | 0x20 => s.io.ptop
      | 0x28 => s.io.slotb
      | k => if k = stgAt then s.stgWord else 0)
  else if 0x520000 ≤ o && o < 0x520020 then
    some (match o - 0x520000 with
      | 0x00 => s.io.invAddr
      | 0x08 => s.io.invCtx
      | 0x10 => s.io.invKind
      | _ => if s.io.invDone then 1 else 0)
  else if 0x530000 ≤ o && o < 0x530100 then
    some (match o - 0x530000 with
      | 0x00 => s.io.ffr
      | 0x08 => s.io.ffc
      | 0x10 => s.io.cfr
      | 0x18 => s.io.cfc
      | 0x80 => BitVec.ofNat 64 (256 * s.io.msStatus.toNat + if s.io.msBusy then 2 else 0)
      | 0x88 => s.io.mrbase.setWidth 64
      | k => if 0x40 ≤ k && k < 0x80 then wordOf s.io.msend ((k - 0x40) / 8) else 0)
  else if 0x540000 ≤ o && o < 0x542010 then
    if o < 0x542000 then some (wordOf (mget 0 s.errors.log ((o - 0x540000) / 32) : BitVec 256) (o % 32 / 8))
    else if o = 0x542000 then some (s.errors.elp.setWidth 64)
    else some (s.mgmt.elc.setWidth 64)
  else none

/-- Device-defined blocks: virtio state and ECAM. -/
def ioDevice (o : Nat) : Bool := (0x600000 ≤ o && o < 0x601000) || (0x10000000 ≤ o && o < 0x20000000)

def ioAligned (off size : Nat) : Bool := (size = 4 || size = 8) && off % size = 0

/-- A read of control space: zero and logged outside the rules; a free value from a device's own registers (log 6). -/
def State.ioRead (s : State) (off size : Nat) : BitVec 64 × State :=
  let o := off / 8 * 8
  let half (w : BitVec 64) : BitVec 64 :=
    if size = 8 then w else if off % 8 = 4 then w >>> 32 else (w.setWidth 32).setWidth 64
  if !ioAligned off size then (0, s.refuseIo off)
  else if ioDevice o then (half (Config.deviceRead o s.free), { s with free := s.free + 1 })
  else match s.ioWord o with
    | some w => (half w, s)
    | none => (0, s.refuseIo off)

/-! ## Writing (R369) -/

/-- The management core's registers of device configuration (Table 20-9). The port modes are fixed in the first Winter stage after a
device reset (R15). -/
def State.writeConfig (s : State) (o : Nat) (v mask : BitVec 64) : State :=
  let mix (old : BitVec 64) : BitVec 64 := mixWord old v mask
  let winter := s.mgmt.stage = .winter
  let spring := s.mgmt.stage = .spring
  match o - 0x510000 with
  | 0x00 => if winter && !s.io.modesFixed then s.writeModes ((mix (s.io.pmode.setWidth 64)).setWidth 32) else s.refuseIo o
  | 0x08 => if winter then s.modIo (fun io => { io with modId := (mix (io.modId.setWidth 64)).setWidth 8 }) else s.refuseIo o
  | 0x10 => if spring then s.modIo (fun io => { io with ftop := mix io.ftop }) else s.refuseIo o
  | 0x18 => s.modIo (fun io => { io with ctop := mix io.ctop })
  | 0x20 => s.modIo (fun io => { io with ptop := mix io.ptop })
  | 0x28 => if spring then s.modIo (fun io => { io with slotb := mix io.slotb }) else s.refuseIo o
  | _ => s

/-- The rings and the message port, by who writes (Table 20-9). -/
def State.writeRings (s : State) (by_ : IoActor) (o : Nat) (v mask : BitVec 64) : State :=
  let sys (t : State) : State := if by_ = .system then t else s.refuseIo o
  let mgmt (t : State) : State := if by_ = .management then t else s.refuseIo o
  let ctl (old : BitVec 64) : BitVec 64 :=
    let m := mixWord old v mask
    bputs old [(16, 16, bget m 16 16), (0, 4, bget m 0 4)]
  match o - 0x530000 with
  | 0x00 => sys (s.modIo (fun io => { io with ffr := mixWord io.ffr v mask }))
  | 0x08 => sys (s.modIo (fun io => { io with ffc := ctl io.ffc }))
  | 0x10 => sys (s.modIo (fun io => { io with cfr := mixWord io.cfr v mask }))
  | 0x18 => sys (s.modIo (fun io => { io with cfc := ctl io.cfc }))
  | 0x20 => if by_ = .management then s.refuseIo o else s.appendFrame true (v &&& mask)
  | 0x28 => if by_ = .management then s.refuseIo o else s.appendFrame false (v &&& mask)
  | 0x80 => mgmt (if (v &&& mask).getLsbD 0 then s.sendMgmt else s)
  | 0x88 => mgmt (s.modIo (fun io => { io with mrbase := (mixWord (io.mrbase.setWidth 64) v mask).setWidth 24 }))
  | k =>
    if 0x40 ≤ k && k < 0x80 then mgmt (s.modIo (fun io => { io with msend := putWord io.msend ((k - 0x40) / 8) v mask }))
    else s

/-- The invalidation request register: writing the kind makes the request (DEDUCED, log 18). -/
def State.writeInv (s : State) (o : Nat) (v mask : BitVec 64) : State :=
  match o - 0x520000 with
  | 0x00 => s.modIo (fun io => { io with invAddr := mixWord io.invAddr v mask })
  | 0x08 => s.modIo (fun io => { io with invCtx := mixWord io.invCtx v mask })
  | 0x10 =>
    let k := mixWord s.io.invKind v mask
    let s := s.modIo (fun io => { io with invKind := k })
    match kindOf k.toNat with
    | some kind => s.requestInv kind s.io.invAddr (s.io.invCtx.setWidth 16)
    | none => s.refuseIo o
  | _ => s

/-- A write of control space: dropped and logged where Table 20-8 does not allow it. `mask` gives the bits written of
the 64-bit word at `o`. -/
def State.ioWriteWord (s : State) (by_ : IoActor) (o : Nat) (v mask : BitVec 64) : State :=
  let sys (t : State) : State := if by_ = .system then t else s.refuseIo o
  let mgmt (t : State) : State := if by_ = .management then t else s.refuseIo o
  if o < 0x80000 then
    sys (s.modSched (fun q =>
      let old : BitVec 64 := mget 0 q.queueTable (o / 8)
      let e := bput (bput (mixWord old v mask) 48 16 0) 1 5 0
      { q with queueTable := mset 0 q.queueTable (o / 8) e }))
  else if 0x100000 ≤ o && o < 0x300000 then
    let x := (o - 0x100000) / 32
    sys (s.writeCtx x (putWord (s.ctxRec x) (o % 32 / 8) v mask))
  else if 0x300000 ≤ o && o < 0x380000 then
    let i := (o - 0x300000) / 32
    let cur := (mget none s.io.dbPending i).getD (s.bell i)
    sys (s.writeBell i (putWord cur (o % 32 / 8) v mask))
  else if 0x400000 ≤ o && o < 0x480000 then
    let i := (o - 0x400000) / 8
    sys (s.modIo (fun io => { io with fns := mset 0 io.fns i (bput (mixWord (mget 0 io.fns i) v mask) 0 40 0) }))
  else if 0x480000 ≤ o && o < 0x488000 then
    let i := (o - 0x480000) / 8
    sys (s.writeIrq i (mixWord (s.irq i) v mask))
  else if 0x500000 ≤ o && o < 0x502000 then
    let i := (o - 0x500000) / 32
    mgmt (s.writeWindow i (putWord (mget 0 s.io.ntb i : BitVec 256) (o % 32 / 8) v mask))
  else if 0x510000 ≤ o && o < 0x510100 then mgmt (s.writeConfig o v mask)
  else if 0x520000 ≤ o && o < 0x520020 then sys (s.writeInv o v mask)
  else if 0x530000 ≤ o && o < 0x530100 then s.writeRings by_ o v mask
  else if 0x600000 ≤ o && o < 0x601000 then
    if by_ = (if s.mgmt.stage = .winter then .management else .system) then
      s.modIo (fun io => { io with virtio := pokeBv io.virtio o 8 (mixWord (peekBv io.virtio o 8 64) v mask) })
    else s.refuseIo o
  else if 0x10000000 ≤ o && o < 0x20000000 then
    sys (s.modIo (fun io => { io with ecam := pokeBv io.ecam o 8 (mixWord (peekBv io.ecam o 8 64) v mask) }))
  else s.refuseIo o

/-- A write of 4 or 8 bytes by an actor. -/
def State.ioWrite (s : State) (by_ : IoActor) (off size : Nat) (v : BitVec 64) : State :=
  if !ioAligned off size then s.refuseIo off
  else if size = 8 then s.ioWriteWord by_ off v (BitVec.allOnes 64)
  else if off % 8 = 4 then s.ioWriteWord by_ (off - 4) (v <<< 32) 0xFFFFFFFF00000000
  else s.ioWriteWord by_ off v 0x00000000FFFFFFFF

/-- A store to MSEND leaves its word's mark as a store to memory leaves a granule's (R225): set by poisoned data, cleared where the whole word
is written (log 130). -/
def State.markMsend (s : State) (off n : Nat) (poison : Bool) : State :=
  let k := (off - 0x530040) / 8
  if 0x530040 ≤ off && off < 0x530080 && ioAligned off n then
    s.modIo (fun io => { io with msendPoison := mset false io.msendPoison k (markAfter (mget false io.msendPoison k) poison (8 ≤ n)) })
  else s

end Sys2Proof.Machine
end

