-- ==== Sys2Proof/Machine/Global.lean ====
section
/-! DEFINITION. Global memory accesses (10_memory_instructions R219–R229, R234, R244–R249): the checks of an access, what
a formed access does, and the instructions LD, ST, PREF, CINV, CWB, ATOM, CAS, RED, FENCE and WAITV. -/

namespace Sys2Proof.Machine

/-! ## Checking an access (Table 10-2) -/

inductive Checked where
  | at (p : Place) (key : Nat)
  | absent (pteAddr : Nat)
  | trap (c : Cause) (v : Pair)
  deriving DecidableEq, Repr

/-- An address per R222. -/
def State.addrOf (s : State) (h : Hart) (f : Fields) : BitVec 64 := s.opPair h f.a + (s.op32 h f.b).signExtend 64

/-- Bits 63:60 of an address that are not zero. -/
def outOfRange (a : BitVec 64) : Bool := 2 ^ 60 ≤ a.toNat

/-- What an access of `size` bytes meets: the lowest code that holds, or its place (R223, R45). `lock` is RANGE_LOCK,
`addrP` a poisoned address, `ps` the poisoned fields. -/
def State.checkAccess (s : State) (h : Hart) (need : AccNeed) (addr : BitVec 64) (size : Nat) (lock addrP : Bool)
    (ps : List (Bool × Nat)) : Checked × State :=
  if addr.toNat % size ≠ 0 then (.trap .addrAlign addr, s)
  else if outOfRange addr then (.trap .addrRange addr, s)
  else
    let late : Option (Cause × Pair) :=
      if lock then some (.rangeLock, addr) else (poisonField ps).map (fun v => (.poisonUse, v))
    if addrP then
      match late with
      | some (c, v) => (.trap c v, s)
      | none => (.trap .poisonUse 0, s)
    else
      match s.place h need addr.toNat with
      | (.fault c, s) => match late with
        | some (c', v) => if c'.code.toNat < c.code.toNat then (.trap c' v, s) else (.trap c addr, s)
        | none => (.trap c addr, s)
      | (.at p key, s) => match late with
        | some (c, v) => (.trap c v, s)
        | none => (.at p key, s)
      | (.absent e, s) => match late with
        | some (c, v) => (.trap c v, s)
        | none => (.absent e, s)

/-- RANGE_LOCK for an access of a hart (Table 9-3). -/
def State.lockHit (s : State) (h : Hart) (addr : BitVec 64) (size : Nat) (writes : Bool) : Bool :=
  let (src, dst) := (s.coreOf h).memLock addr.toNat size
  dst || (writes && src)

/-! ## Data of an access -/

/-- The width of a data operand of `n` bytes (R221). -/
def dataW (n : Nat) : OpW := if n = 16 then .quad else if n = 8 then .pair else .w32

/-- A data operand as 128 bits. -/
def State.opData (s : State) (h : Hart) (o : Opd) (n : Nat) : BitVec 128 :=
  if n = 16 then s.opQuad h o else if n = 8 then (s.opPair h o).setWidth 128 else (s.op32 h o).setWidth 128

/-! ## Atomics at the home slice (R212, R245–R247) -/

/-- Has every store that an atomic must read taken effect (R212), and, for a release, every earlier access (R201)? -/
def State.atomReady (s : State) (h : Hart) (p : Place) (rel : Option Scope) : Bool :=
  let (sp, a) := p.space
  let clear (es : List StoreEnt) : Bool := es.all (fun e => e.space ≠ sp || !touchesGranule e.bytes (granule a))
  clear (s.thread h).storeQ && clear (s.order h) && (match rel with
    | some .core => (s.thread h).storeQ.isEmpty
    | some _ => s.orderHome h
    | none => true)

/-- The bytes and mark at a place's home, `n` bytes of one granule. -/
def State.homeRead (s : State) (h : Hart) (p : Place) (key n : Nat) : List Byte × Bool × State :=
  match p with
  | .dev pa =>
    let (bs, mark, s) := s.homeGranule key (granule pa)
    ((bs.drop (pa % 16)).take n, mark, s)
  | .supScratch k => (peeks (s.coreOf h).supScratch k n, mget false (s.coreOf h).supScratchPoison (granule k), s)
  | .sram k => (peeks s.mgmt.sram k n, mget false s.mgmt.sramPoison (granule k), s)
  | .rom k => (peeks s.mgmt.rom k n, false, s)
  | .flash k => (peeks s.mgmt.flash k n, false, s)
  | .ctl off => let (v, s) := s.ioRead off n; (natBytes n v.toNat, false, s)

/-- Write bytes at a place's home, as an atomic: `poison` marks what it touches, `rel` is the scope of its release. -/
def State.homeStore (s : State) (h : Hart) (p : Place) (key : Nat) (bs : List Byte) (poison : Bool := false)
    (rel : Option Scope := none) : State :=
  match p with
  | .dev pa => s.homeAccess key (fullBytes pa bs) poison { who := h.observer, view := (s.thread h).mv.floor, rel, rmw := true }
  | .supScratch k => match h.core? with
    | some c => s.modCore c (·.putSup (fullBytes k bs) poison (s.thread h).mv.floor)
    | none => s
  | .sram k => s.modMgmt (·.putSram (fullBytes k bs) poison)
  | .ctl off => s.ioWrite .management off bs.length (BitVec.ofNat 64 (bytesNat bs))
  | _ => s

/-- The new value of an atomic on `n` bytes. -/
def atomNew (opc : Opc) (u : Bool) (n : Nat) (old c : BitVec 128) : BitVec 128 :=
  let w := 8 * n
  match opc with
  | .add => BitVec.ofNat 128 ((old.toNat + c.toNat) % 2 ^ w)
  | .min => if readEl u w c.toNat < readEl u w old.toNat then c else old
  | .max => if readEl u w old.toNat < readEl u w c.toNat then c else old
  | .and => old &&& c
  | .or => old ||| c
  | .xor => old ^^^ c
  | _ => c

/-! ## What a formed access does -/

/-- How a formed access ends: done, with what it does to its thread; not yet; parked on its value; sent to a peer. -/
inductive Perf where
  | done (s : State) (f : Thread → Thread)
  | stall (s : State)
  | wait (s : State)
  | sent (s : State)

/-- The scope of an access's acquire, when wider than core (R201). -/
def Access.acquire (a : Access) : Option Scope := if a.acq && a.scope ≠ .core then some a.scope else none

/-- The scope of an access's release, when wider than core. -/
def Access.release (a : Access) : Option Scope := if a.rel && a.scope ≠ .core then some a.scope else none

/-- What a hart's view gains from an atomic's or a WAITV's read at a place's home, or from a load of control space: an acquire
fence after it orders what follows (R202, R369). -/
def State.learnAt (s : State) (h : Hart) (p : Place) (acq : Option Scope) (v : MemView) : MemView :=
  match p with
  | .dev pa => v.saw h.observer acq (granule pa) (s.log (granule pa)).cur false
  | .supScratch k => v.raise (mget 0 (s.coreOf h).supView (granule k))
  | .ctl _ =>
    let v := { v with
      acqDie := Nat.max v.acqDie s.instant, acqDev := Nat.max v.acqDev s.instant
      acqClu := Nat.max v.acqClu s.instant, acqSys := Nat.max v.acqSys s.instant }
    if acq.isSome then v.raise s.instant else v
  | _ => v

/-- The management core's read of one granule of device memory: its line of the capacity tier (R262), its address of a peer (R263). -/
def State.readOne (s : State) (pa : Nat) : State :=
  match if isPeer pa then s.peerWindow? pa else none with
  | some w => s.emit (.peerRead (w / 32) (s.peerBus w (16 * granule pa)) 16)
  | none => s.cxlReads (16 * granule pa) 16

/-- A load of a core touches a granule of device memory: one of those that the requests of its issue group will cover, or, for
LD.sc, the granule of a request of its own (R226). -/
def State.noteLoad (s : State) (h : Hart) (pa : Nat) (sc : Bool) : State :=
  match h.core? with
  | none => s.readOne pa
  | some c =>
    if sc then s.sendRead c (16 * granule pa, 16)
    else s.modCore c (fun k => { k with loads := k.loads ++ [(h.level == 1, s.pc h, granule pa)] })

/-- An atomic, a reduction or a WAITV sends a request of one granule, which L2 fetches where it misses (R226, R259); in the capacity tier it
reads its line (R262). -/
def State.noteAtomic (s : State) (h : Hart) (p : Place) : State :=
  match h.core?, p with
  | some c, .dev pa => s.sendRead c (16 * granule pa, 16)
  | none, .dev pa => s.cxlReads (16 * granule pa) 16
  | _, _ => s

/-- Are all the tags of the link that carries a peer address in use by reads not yet answered (R344)? -/
def State.tagsUsed (s : State) (pa : Nat) : Bool :=
  match if isPeer pa then s.peerWindow? pa else none with
  | some w => match mget none s.io.links (w / 32) with
    | some l => decide (2 ^ l.options.tagBits ≤ (s.io.peers.filter (fun r => (s.peerWindow? r.pa).map (· / 32) == some (w / 32))).length)
    | none => false
  | none => false

/-- Must an access to device memory wait for a request of its core (R10), or a read of the peer tier for a tag? -/
def State.requestWaits (s : State) (h : Hart) (p : Place) : Bool :=
  match p with
  | .dev pa => (h.core?.isSome && !s.requestFree h) || s.tagsUsed pa
  | _ => false

/-- Must an atomic's write wait for stores that lie over another load of its granule (R195; log 107)? -/
def State.atomicWaits (s : State) (h : Hart) (p : Place) (n : Nat) : Bool :=
  match p with
  | .dev pa => s.meetsHold { who := h.observer, tid := h.key, bytes := (List.range n).map (pa + ·), joins := true }
  | _ => false

/-- A read-modify-write of `a.size` bytes; `new` of none is a read only. A RED (`red`) leaves the poison mark as it is (R247);
like every relaxed access it is no release. -/
def State.performRmw (s : State) (h : Hart) (a : Access) (p : Place) (key : Nat) (red : Bool)
    (new : BitVec 128 → Option (BitVec 128)) (put : Thread → BitVec 128 → Bool → Thread) : Perf :=
  let rel := if red then none else relScope (s.thread h) (if a.rel then some a.scope else none)
  let ready := relScope (s.thread h) (if a.rel then some a.scope else none)
  if s.atomReady h p ready && !s.atomicWaits h p a.size && !s.requestWaits h p then
    let (bs, mark, s) := (s.noteAtomic h p).homeRead h p key a.size
    let old := bytesVal bs
    let s := s.modThread h (fun th => { th with mv := s.learnAt h p a.acquire th.mv })
    let s := match new old with
      | some v => s.homeStore h p key (natBytes a.size v.toNat) (red && mark) rel
      | none => s
    .done s (fun th => put th old mark)
  else .stall s

/-- Must a store to control space still wait: a release for every earlier access, any store after a release fence for those
before the fence (R201, R202, R369)? -/
def State.ctlReady (s : State) (h : Hart) (a : Access) : Bool :=
  let v := (s.thread h).mv
  (a.release.isNone || s.orderHome h) && (v.fencedRel.isNone || s.releaseReady h v.fenceOrd v.fenceSeq)

/-- The bytes of a load that the core's own queued and ordered stores supply (R199). -/
def State.ownBytes (s : State) (h : Hart) (pa n : Nat) : List (Option Byte) :=
  let es := s.order h ++ (s.thread h).storeQ
  (List.range n).map (fun i =>
    if es.any (fun e => e.writes .global (pa + i) 1) then some (overlayByte es .global (pa + i) 0) else none)

/-- A load through an outbound window goes to the peer module, in the requests of its issue group (R226); its thread waits for the
answer (R263). -/
def State.sendPeerLoad (s : State) (h : Hart) (a : Access) (pa : Nat) (sc : Bool) : State :=
  (s.modIo (fun io => { io with peers := io.peers ++ [⟨h, a, pa, s.ownBytes h pa a.size, false⟩] })).noteLoad h pa sc

/-- Perform a formed access at its place (R224, R228, R229, R245–R249). -/
def State.perform (s : State) (h : Hart) (a : Access) (p : Place) (key : Nat) : Perf :=
  match a.kind with
  | .load sx sc =>
    match p with
    | .ctl off =>
      let (v, s) := s.ioRead off a.size
      let s := s.modThread h (fun th => { th with mv := s.learnAt h p a.acquire th.mv })
      .done s (fun th => loadResult a sx sc (natBytes a.size v.toNat) false th)
    | .dev pa =>
      if s.requestWaits h p || s.loadWaits h p a.size then .stall s
      else if isPeer pa && (s.peerWindow? pa).isSome then .sent (s.sendPeerLoad h a pa sc)
      else
        let (bs, mark, s) := (s.noteLoad h pa sc).loadBytes h p key a.size a.acquire
        .done s (fun th => loadResult a sx sc bs mark th)
    | _ =>
      let (bs, mark, s) := s.loadBytes h p key a.size a.acquire
      .done s (fun th => loadResult a sx sc bs mark th)
  | .store =>
    match p with
    | .ctl off => if s.ctlReady h a then .done ((s.ioWrite .management off a.size (a.data.setWidth 64)).markMsend off a.size a.dpoison) id else .stall s
    | _ =>
      if s.queueFull h then .stall s
      else .done (s.enqueue h p key (natBytes a.size a.data.toNat) a.dpoison a.release) id
  | .atom opc u =>
    s.performRmw h a p key false (fun old => some (atomNew opc u a.size old a.data))
      (fun th old mark => th.putData a.dst a.size false old mark)
  | .cas e =>
    s.performRmw h a p key false (fun old => if old = e then some a.data else none)
      (fun th old mark => th.putData a.dst a.size false old mark)
  | .red opc u => s.performRmw h { a with rel := false, acq := false } p key true
      (fun old => some (atomNew opc u a.size old a.data)) (fun th _ _ => th)
  | .redSc => s.performRmw h { a with rel := false, acq := false } p key true
      (fun old => some (cellAdd old (a.data.setWidth 32))) (fun th _ _ => th)
  | .waitv =>
    if s.requestWaits h p || s.loadWaits h p a.size then .stall s
    else
    let (bs, mark, t) : List Byte × Bool × State := match p with
      | .ctl off =>
        let (v, s) := s.ioRead off a.size
        (natBytes a.size v.toNat, false, s.modThread h (fun th => { th with mv := s.learnAt h p a.acquire th.mv }))
      | _ => (s.noteAtomic h p).loadBytes h p key a.size a.acquire true
    let v := bytesVal bs
    if v = a.data then .wait { s with free := t.free, out := t.out, errors := t.errors, bursts := t.bursts }
    else .done t (fun th => th.clearWindow.putData a.dst a.size false v mark)

/-- What the access of each kind needs of a leaf. -/
def AccKind.need : AccKind → AccNeed
  | .load .. => .load
  | .store => .store
  | .waitv => .waitv
  | _ => .atomic

/-- A condition that a translation, or the migration it waits for, can meet (R252, R256). -/
def Cause.translation : Cause → Bool
  | .pageNotPresent | .pageProt | .keyInvalid | .tableFormat | .migrateFail => true
  | _ => false

/-- The slot whose head a core's agent has claimed and not yet started, where a load of it reads the kernel header or the safe-point
table: KADDR and the 64 + 16 × 255 bytes there, even once another agent's verdict has ended the grant (R277). -/
def State.readsHeader? (s : State) (h : Hart) (a : Access) : Option Nat :=
  match h, a.kind with
  | .sup c _, .load .. => match (s.core c).hdrOf with
    | some (k, ka) => if (s.core c).wg.isNone && ka ≤ a.addr.toNat && a.addr.toNat < ka + 4144 then some k else none
    | none => none
  | _, _ => none

/-- A migration of the kernel header's pages has failed for the agent of a core: kept for its verdict while the grant that it claimed
lasts. -/
def State.loseHeader (s : State) (k c : Nat) : State :=
  s.modSlot k (fun sl => { sl with grant := sl.grant.map (fun g => if g.claimants.contains c then { g with headerLost := true } else g) })

/-- Such a load never traps the group: it ends with a free value, its condition is the agent's verdict, and that of a failed
migration is kept for it (R277, log 96). -/
def State.headerCondition (s : State) (h : Hart) (a : Access) (c : Cause) : Option (State × (Thread → Thread)) :=
  match if c.translation then s.readsHeader? h a else none, a.kind with
  | some k, .load sx sc =>
    let s := match c, h.core? with
      | .migrateFail, some core => s.loseHeader k core
      | _, _ => s
    let (bs, s) := s.freeBytes16
    some (s, loadResult a sx sc (bs.take a.size) false)
  | _, _ => none

/-- Issue a formed access that has passed its register checks. -/
def State.issueAccess (s : State) (h : Hart) (a : Access) (addrP : Bool) (ps : List (Bool × Nat)) : Res :=
  let writes := match a.kind with
    | .load .. => false
    | .waitv => false
    | _ => true
  match s.checkAccess h a.kind.need a.addr a.size (s.lockHit h a.addr a.size writes) addrP ps with
  | (.trap c v, s') => match s'.headerCondition h a c with
    | some (t, f) => .ok (t.modThread h f)
    | none => .trapIn s' c v
  | (.absent e, s') =>
    .park (s'.startPromotion (s'.ctxOf h).toNat a.addr e none) (.page (s'.ctxOf h) a.addr (.access a))
  | (.at p key, s') =>
    match s'.perform h a p key with
    | .done t f => .ok (t.modThread h f)
    | .stall t => .stall t
    | .wait t => .park t (.waitv a)
    | .sent t => .ok t

/-! ## The instructions of one hart -/

def sizeBytes : Size → Nat
  | .s1 => 1 | .s2 => 2 | .s4 => 4 | .s8 => 8 | .s16 => 16
def szBytes : Sz → Nat
  | .z4 => 4 | .z8 => 8 | .z16 => 16

/-- Poison of the address fields: a pair and an offset. -/
def State.addrPoison (s : State) (h : Hart) (f : Fields) : List (Bool × Nat) :=
  [(s.opPoison h f.a .pair, 0), (s.opPoison h f.b .w32, 1)]

def addrUses (f : Fields) : List OpUse := [(f.a, .pair), (f.b, .w32)]

def laneLd (f : Fields) (m : MemMod) (h : Hart) (s : State) : Res :=
  let n := sizeBytes m.size
  guardOps s h (addrUses f ++ f.dst (if m.sc then .w32 else dataW n)) <|
    let ps := s.addrPoison h f
    s.issueAccess h
      { kind := .load m.sx m.sc, addr := s.addrOf h f, size := n, data := 0, dpoison := false, acq := m.ord, rel := false,
        scope := m.scope, dst := f.dest }
      (ps.any (·.1)) ps

def laneSt (f : Fields) (m : MemMod) (h : Hart) (s : State) : Res :=
  let n := sizeBytes m.size
  let d : Opd := .reg f.d
  guardOps s h (addrUses f ++ [(d, dataW n)]) <|
    let ps := s.addrPoison h f
    let dp := s.opPoison h d (dataW n)
    s.issueAccess h
      { kind := .store, addr := s.addrOf h f, size := n, data := s.opData h d n, dpoison := dp, acq := false, rel := m.ord,
        scope := m.scope, dst := ⟨0, true⟩ }
      (ps.any (·.1)) (ps ++ [(dp && !m.psn, 3)])

/-- PREF, CINV and CWB move no data that a program can observe (R234): a poisoned address traps, nothing else happens. -/
def laneHint (f : Fields) (h : Hart) (s : State) : Res :=
  guardOps s h (addrUses f) <| firstTrap [poisonTrap (s.addrPoison h f)] (.ok s)

/-- PREF sends the requests of the granule it covers, with those of its issue group (R226), once its core has one free (R10); any
condition of Table 10-2, or a page that is not resident, makes it do nothing (R234). -/
def lanePref (f : Fields) (size : Size) (h : Hart) (s : State) : Res :=
  guardOps s h (addrUses f) <| firstTrap [poisonTrap (s.addrPoison h f)] <|
    let a := s.addrOf h f
    match (s.checkAccess h .load a (sizeBytes size) (s.lockHit h a (sizeBytes size) false) false []).1 with
    | .at (.dev pa) _ => if s.requestWaits h (.dev pa) then .stall s else .ok (s.noteLoad h pa false)
    | _ => .ok s

/-- ORD of class 101. -/
def ordAcq : Ord2 → Bool
  | .acq | .acqrel => true
  | _ => false
def ordRel : Ord2 → Bool
  | .rel | .acqrel => true
  | _ => false

/-- ATOM, RED of OPC 0–5, CAS and WAITV of one hart. -/
def laneSync (f : Fields) (m : SyncMod) (kind : AccKind) (uses : List OpUse) (extra : List (Bool × Nat)) (h : Hart) (s : State) : Res :=
  let n := szBytes m.sz
  guardOps s h (addrUses f ++ [(f.c, dataW n)] ++ uses) <|
    let ps := s.addrPoison h f
    s.issueAccess h
      { kind, addr := s.addrOf h f, size := n, data := s.opData h f.c n, dpoison := false, acq := ordAcq m.ord,
        rel := ordRel m.ord, scope := m.scope, dst := f.dest }
      (ps.any (·.1)) (ps ++ [(s.opPoison h f.c (dataW n), 2)] ++ extra)

def laneAtom (f : Fields) (m : SyncMod) : Hart → State → Res :=
  laneSync f m (.atom m.opc m.u) (f.dst (dataW (szBytes m.sz))) []

def laneWaitv (f : Fields) (m : SyncMod) : Hart → State → Res :=
  laneSync f m .waitv (f.dst (dataW (szBytes m.sz))) []

def laneCas (f : Fields) (m : SyncMod) (h : Hart) (s : State) : Res :=
  let w := dataW (szBytes m.sz)
  laneSync f m (.cas (s.opData h (.reg f.d) (szBytes m.sz))) [(.reg f.d, w)] [(s.opPoison h (.reg f.d) w, 3)] h s

/-- RED.sc: a NaN or infinite addend raises IV and is discarded once its checks have passed (R100, R247). -/
def laneRed (f : Fields) (m : SyncMod) (h : Hart) (s : State) : Res :=
  if m.sc then
    guardOps s h (addrUses f ++ [(f.c, .w32)]) <|
      let ps := s.addrPoison h f
      let x := s.opFloat h .f32 f.c
      let a : Access :=
        { kind := .redSc, addr := s.addrOf h f, size := 16, data := x.setWidth 128, dpoison := false, acq := false,
          rel := false, scope := .core, dst := ⟨0, true⟩ }
      let all := ps ++ [(s.opPoison h f.c .w32, 2)]
      match fF32.decode x.toNat with
      | .fin .. => s.issueAccess h a (ps.any (·.1)) all
      | _ => match s.checkAccess h .atomic a.addr 16 (s.lockHit h a.addr 16 true) (ps.any (·.1)) all with
        | (.trap c v, s') => .trapIn s' c v
        | (_, s') => .ok (s'.raise h flIV)
  else laneSync f m (.red m.opc m.u) [] [] h s

/-! ## FENCE (R202, R206, R211, R248) -/

/-- Has every engine operation ended that the thread issued, or whose completion it has seen in part (R211)? -/
def Core.engineIdle (k : Core) (key : Nat) : Bool :=
  let seen := (k.thread key).mv.seenOps
  k.ops.all (fun o => o.tid ≠ key && !seen.contains (false, o.token)) && k.tasks.all (fun t => t.tid ≠ key && !seen.contains (true, t.token))

/-- After FENCE.eng the writes of ended engine operations, the thread's own and those it has seen complete, count as the
thread's (R211). -/
def ownEngine (key ord : Nat) (seen : List (Bool × BitVec 16)) (o : List StoreEnt) : List StoreEnt :=
  o.map (fun e => if e.tid = 2000 + key || (2000 ≤ e.tid && seen.contains (false, BitVec.ofNat 16 e.ord)) then
    { e with tid := key, ord } else e)

/-- The engine writes of a hart's core order become its own, earlier than its next store. -/
def State.takeEngine (s : State) (h : Hart) : State :=
  let th := s.thread h
  (s.setOrder h (ownEngine h.key th.stores th.mv.seenOps (s.order h))).modThread h (fun th =>
    { th with stores := th.stores + 1, mv := { th.mv with seenOps := [] } })

def widerScope (a : Option Scope) (b : Scope) : Option Scope :=
  match a with
  | some x => if x.code < b.code then some b else some x
  | none => some b

/-- Where full fences are kept by scope and die (R206). -/
def fenceSlot (sc : Scope) (die : Nat) : Nat := 4 * sc.code + die

/-- The die of an observer, 2 off the compute dies. -/
def Observer.die : Observer → Nat
  | .core c => dieOf c
  | _ => 2

/-- The latest full fence whose scope and the new one's hold each other (R206). -/
def State.fenceBefore (s : State) (y : Observer) (sc : Scope) : Nat :=
  let at_ (d : Nat) (sc' : Scope) : Nat :=
    let same := d == y.die && d ≠ 2
    if (sc' = .die && !same) || (sc = .die && !same) then 0 else mget 0 s.fences (fenceSlot sc' d)
  ([Scope.die, .dev, .clu, .sys].flatMap (fun sc' => [0, 1, 2].map (fun d => at_ d sc'))).foldl Nat.max 0

/-- What a full fence leaves: every access before an earlier one happens before what follows this one, and this one takes its
place in their order (R206). After one of the management core its fetches return what its stores have left (R383). -/
def State.fullFence (s : State) (h : Hart) (sc : Scope) : State :=
  let n := Nat.max (s.coreOf h).fenceView (if sc = .core then 0 else s.fenceBefore h.observer sc)
  let s := s.modThread h (fun th => { th with mv := th.mv.raise n })
  let s := match h.core? with
    | some c => s.modCore c (fun k => { k with fenceView := Nat.max k.fenceView (s.thread h).mv.floor })
    | none => s.modMgmt (fun m => { m with sramOld := [] })
  if sc = .core then s else { s with fences := mset 0 s.fences (fenceSlot sc h.observer.die) s.instant }

/-- A thread's view after an acquire or a release fence of a scope (R202). -/
def MemView.fence (v : MemView) (m : SyncMod) (ord seq : Nat) : MemView :=
  let v := if ordAcq m.ord then v.raise (v.acq m.scope) else v
  if ordRel m.ord && m.scope ≠ .core then
    { v with fencedRel := widerScope v.fencedRel m.scope, fenceOrd := ord, fenceSeq := seq
             sysSeq := if m.scope = .sys then seq else v.sysSeq }
  else v

/-- May a full fence complete: every earlier store performed at its scope (R202)? One of the management core orders its stores
before later fetches whatever its scope (R383). -/
def State.fenceReady (s : State) (h : Hart) (m : SyncMod) : Bool :=
  match m.ord with
  | .acqrel => if m.scope ≠ .core || h = .mgmt then s.orderHome h else (s.thread h).storeQ.isEmpty
  | _ => true

def laneFence (m : SyncMod) (h : Hart) (s : State) : Res :=
  if m.eng && !(s.coreOf h).engineIdle h.key then .stall s
  else
    let s := if m.eng then s.takeEngine h else s
    if !s.fenceReady h m then .stall s
    else
      let s := s.modThread h (fun th => { th with mv := th.mv.fence m th.stores (s.orderSeq h) })
      let s := if m.ord = .acqrel then s.fullFence h m.scope else s
      .ok (if m.scope ≠ .core then s.modThread h (·.clearWindow) else s)

/-! ## The instructions -/

def execLd (f : DF) (m : MemMod) (s : State) : Host.Outcome State Fault Refusal := issue 0 .all (.ld f m) (laneLd f.fields m) s
def execLd4W (f : WF) (s : State) : Host.Outcome State Fault Refusal := issue 0 .all (.ld4W f) (laneLd f.fields { size := .s4 }) s
def execLd8W (f : WF) (s : State) : Host.Outcome State Fault Refusal := issue 0 .all (.ld8W f) (laneLd f.fields { size := .s8 }) s
def execLd1W (f : WF) (s : State) : Host.Outcome State Fault Refusal := issue 0 .all (.ld1W f) (laneLd f.fields { size := .s1 }) s
def execLd1SxW (f : WF) (s : State) : Host.Outcome State Fault Refusal :=
  issue 0 .all (.ld1SxW f) (laneLd f.fields { size := .s1, sx := true }) s
def execLd2W (f : WF) (s : State) : Host.Outcome State Fault Refusal := issue 0 .all (.ld2W f) (laneLd f.fields { size := .s2 }) s
def execLd2SxW (f : WF) (s : State) : Host.Outcome State Fault Refusal :=
  issue 0 .all (.ld2SxW f) (laneLd f.fields { size := .s2, sx := true }) s
def execSt (f : DF) (m : MemMod) (s : State) : Host.Outcome State Fault Refusal := issue 0 .all (.st f m) (laneSt f.fields m) s
def execPref (f : DF) (size : Size) (s : State) : Host.Outcome State Fault Refusal :=
  issue 0 .all (.pref f size) (lanePref f.fields size) s
def execCinv (f : DF) (size : Size) (s : State) : Host.Outcome State Fault Refusal :=
  issue 0 .all (.cinv f size) (laneHint f.fields) s
def execCwb (f : DF) (size : Size) (s : State) : Host.Outcome State Fault Refusal :=
  issue 0 .all (.cwb f size) (laneHint f.fields) s
def execAtom (f : DF) (m : SyncMod) (s : State) : Host.Outcome State Fault Refusal := issue 0 .all (.atom f m) (laneAtom f.fields m) s
def execRed (f : DF) (m : SyncMod) (s : State) : Host.Outcome State Fault Refusal := issue 0 .all (.red f m) (laneRed f.fields m) s
def execCas (f : DF) (m : SyncMod) (s : State) : Host.Outcome State Fault Refusal := issue 0 .all (.cas f m) (laneCas f.fields m) s
def execFence (f : DF) (m : SyncMod) (s : State) : Host.Outcome State Fault Refusal := issue 0 .all (.fence f m) (laneFence m) s
def execWaitv (f : DF) (m : SyncMod) (s : State) : Host.Outcome State Fault Refusal := issue 0 .all (.waitv f m) (laneWaitv f.fields m) s

end Sys2Proof.Machine
end

