-- ==== Sys2Proof/Machine/TileOps.lean ====
section
/-! DEFINITION. The tile-table instructions TALLOC, TFREE, THDR and THSET (05_tiles R125–R129), and the scratchpad
accesses LDT and STT with their full and empty bits (R119, R120, 10_memory_instructions R230–R233). -/

namespace Sys2Proof.Machine

/-! ## Reading a header from memory (R126, R240) -/

/-- The place `k` bytes further in the same page. -/
def Place.plus (p : Place) (k : Nat) : Place :=
  match p with
  | .dev a => .dev (a + k)
  | .supScratch a => .supScratch (a + k)
  | .rom a => .rom (a + k)
  | .sram a => .sram (a + k)
  | .flash a => .flash (a + k)
  | .ctl a => .ctl (a + k)

/-- The request of a plain load of one granule that no issue group of LD shares: of its own (R226); one of the peer tier goes to the peer
module (R263). -/
def State.noteGranule (s : State) (h : Hart) (p : Place) : State :=
  match p with
  | .dev pa => s.noteLoad h pa true
  | _ => s

/-- Plain 16-byte loads of `n` granules, ascending: the bytes, and whether a granule was poisoned. -/
def State.loadGranules (s : State) (h : Hart) (p : Place) (key : Nat) : Nat → List Byte × Bool × State
  | 0 => ([], false, s)
  | n + 1 =>
    let (bs, marked, s) := s.loadGranules h p key n
    let (b, mark, s) := (s.noteGranule h (p.plus (16 * n))).loadBytes h (p.plus (16 * n)) key 16 none
    (bs ++ b, marked || mark, s)

/-- Must the plain loads of `n` granules wait, for requests of the core or for stores that lie over another load (R10, R195)? -/
def State.granulesWait (s : State) (h : Hart) (p : Place) (n : Nat) : Bool :=
  (match p with
    | .dev _ => h.core?.isSome && !s.requestsFree h n
    | _ => false) || (List.range n).any (fun k => s.loadWaits h (p.plus (16 * k)) 16)

/-- Go on with the bytes of `n` granules, once they can be loaded. -/
def State.withGranules (s : State) (h : Hart) (p : Place) (key n : Nat) (k : List Byte → Bool → State → Res) : Res :=
  if s.granulesWait h p n then .stall s
  else
    let (bs, marked, s) := s.loadGranules h p key n
    k bs marked s

/-- The first granule of `n` at an address that lies in a registered destination range (R209). -/
def State.lockedGranule (s : State) (h : Hart) (addr : BitVec 64) (n : Nat) : Option (BitVec 64) :=
  ((List.range n).map (fun k => addr + BitVec.ofNat 64 (16 * k))).find? (fun a => s.lockHit h a 16 false)

/-- The checks of a read of `n` granules as plain loads, at an address aligned to `al` bytes. A poisoned address prevents the
read, so that no range is met (R126). -/
def State.checkGranules (s : State) (h : Hart) (addr : BitVec 64) (al n : Nat) (addrP : Bool) (ps : List (Bool × Nat)) :
    Checked × State :=
  let lock := if addrP then none else s.lockedGranule h addr n
  match s.checkAccess h .load addr al lock.isSome addrP ps with
  | (.trap .rangeLock v, s') => (.trap .rangeLock (lock.getD v), s')
  | r => r

/-! ## TALLOC -/

/-- Is a store still queued into banks of the core? A tile reads as zero until it is written (R114), so TALLOC waits for
such a store. -/
def Core.queuedInto (k : Core) (lo hi : Nat) : Bool :=
  k.threads.any (fun p => p.2.storeQ.any (fun e => e.space == .scratch
    && e.bytes.any (fun w => lo * bankBytes ≤ w.1 && w.1 < hi * bankBytes)))

/-- The conditions of TALLOC that follow the header read, in ascending code, and its effect (R126). -/
def tallocWith (s : State) (h : Hart) (addr : BitVec 64) (m : Header) (hv : Word) (md : AllocMod) (dst : Dest) (hp : Bool) : Res :=
  let c := (h.core?).getD 0
  let k := s.core c
  let w : Wild := ⟨md.xshape, md.xsparse, md.xscale, md.xfmt⟩
  let hn : Pair := hv.setWidth 64
  let bad := !descOk (some md.lv) m w || (md.lv == .sp && md.span == 0 && (w.fmt || w.shape))
  let place := k.placeTile m md
  match [(!Hd.ok m, Cause.hdrCheck, addr), (bad, .hdrUnsupported, addr), (255 < hv.toNat || k.wg.isNone, .handleFree, hn),
      ((k.tile? hv.toNat).isSome, .handleBusy, hn), (place.isNone, .tileSpace, hn), (hp, .poisonUse, 2)].find? (·.1), place with
  | some (_, cause, v), _ => .trapIn s cause v
  | none, none => .trapIn s .tileSpace hn
  | none, some (base, span) =>
    if md.lv == .sp && k.queuedInto base (base + span) then .stall s
    else
      let t : Tile := { hdr := Hd.rehash (bput m 24 3 0), lv := md.lv, xshape := md.xshape, xsparse := md.xsparse,
                        xscale := md.xscale, xfmt := md.xfmt, span, base }
      let s := s.modCore c (fun k => (k.setTile hv.toNat (some t)).clearStorage t)
      .ok (s.put32 h dst (BitVec.ofNat 32 base) false)

/-- TALLOC. A poisoned handle does not prevent the read of the header, whose conditions come first (R45, R126). A poison mark on the header's granules is ignored (log 85). -/
def laneTalloc (f : Fields) (md : AllocMod) (h : Hart) (s : State) : Res :=
  guardOps s h (addrUses f ++ [(f.c, .w32)] ++ f.dst .w32) <|
    let ps := s.addrPoison h f
    let addr := s.addrOf h f
    let hv := s.op32 h f.c
    let hp := s.opPoison h f.c .w32
    match s.checkGranules h addr 64 4 (ps.any (·.1)) ps with
    | (.trap c v, s') => .trapIn s' c v
    | (.absent e, s') =>
      .park (s'.startPromotion (s'.ctxOf h).toNat addr e none) (.page (s'.ctxOf h) addr (.talloc addr hv hp md f.dest))
    | (.at p key, s') =>
      s'.withGranules h p key 4 (fun bs _ s' => tallocWith s' h addr (BitVec.ofNat 512 (bytesNat bs)) hv md f.dest hp)

/-! ## TFREE, THDR, THSET -/

/-- A handle that names nothing: unallocated, or above 255. -/
def Core.noTile (k : Core) (hv : Word) : Bool := (k.tile? hv.toNat).isNone

/-- The threads parked on granules of a freed handle trap with HANDLE_FREE (R120). -/
def State.dropWaiters (s : State) (c hn : Nat) : State :=
  (s.core c).threads.foldl (fun s p =>
    match p.2.run with
    | .parked (.ldtWf a) =>
      if a.h = hn && (s.thread (hartOf c p.1)).run == p.2.run
      then s.takeTrap (hartOf c p.1) .handleFree (BitVec.ofNat 64 hn) p.2.pc else s
    | _ => s) s

def laneTfree (f : Fields) (h : Hart) (s : State) : Res :=
  guardOps s h [(f.b, .w32)] <|
    let c := (h.core?).getD 0
    let k := s.core c
    let hv := s.op32 h f.b
    if k.handleInUse hv.toNat then .stall s
    else firstTrap [(k.noTile hv, .handleFree, hv.setWidth 64), poisonTrap [(s.opPoison h f.b .w32, 1)]] <|
      .ok ((s.modCore c (·.setTile hv.toNat none)).dropWaiters c hv.toNat)

/-- THDR: `word` picks the word of the entry; `ctl` reads never check the header. -/
def laneThdr (f : Fields) (ctl : Bool) (word : Tile → Word) (h : Hart) (s : State) : Res :=
  guardOps s h ([(f.b, .w32)] ++ f.dst .w32) <|
    let k := s.core ((h.core?).getD 0)
    let hv := s.op32 h f.b
    if k.handleInUse hv.toNat then .stall s
    else
      let p := poisonTrap [(s.opPoison h f.b .w32, 1)]
      match k.tile? hv.toNat with
      | none => firstTrap [(true, .handleFree, hv.setWidth 64)] (.ok s)
      | some t => firstTrap [(!ctl && !t.ok, .hdrCheck, hv.setWidth 64), p] (.ok (s.put32 h f.dest (word t) false))

/-- Word K of a header, and the header with it replaced under a mask. -/
def hdrWord (m : Header) (k : Nat) : Word := m.extractLsb' (32 * k) 32
def hdrPut (m : Header) (k : Nat) (v mask : Word) : Header :=
  bput m (32 * k) 32 ((v &&& mask) ||| (hdrWord m k &&& ~~~mask)).toNat

/-- Did a change of header move the elements (Table 5-5)? -/
def shapeChanged (m n : Header) : Bool :=
  Hd.fmt m ≠ Hd.fmt n || Hd.sparse m ≠ Hd.sparse n || Hd.rows m ≠ Hd.rows n || Hd.cols m ≠ Hd.cols n

/-- THSET of header word K. -/
def thsetWord (k : Nat) (v mask : Word) (hv : Word) (c : Nat) (t : Tile) (ps : List (Bool × Nat)) (s : State) : Res :=
  let n := hdrPut t.hdr k v mask
  let hn : Pair := hv.setWidth 64
  firstTrap [(!t.ok, .hdrCheck, hn), (!descOk (some t.lv) n t.wild, .hdrUnsupported, hn), (!t.holds n t.wild, .tileSpace, hn),
      poisonTrap ps] <|
    let t' : Tile := { t with hdr := Hd.rehash n }
    .ok (s.modCore c (fun k =>
      let k := k.setTile hv.toNat (some t')
      if shapeChanged t.hdr n then k.setSpan t .empty else k))

/-- THSET.ctl: the WILD bits under bits 29:26 of the mask. -/
def thsetCtlWith (v mask : Word) (hv : Word) (c : Nat) (t : Tile) (ps : List (Bool × Nat)) (s : State) : Res :=
  let pick (b : Nat) (old : Bool) : Bool := if mask.getLsbD b then v.getLsbD b else old
  firstTrap [poisonTrap ps] <|
    .ok (s.modCore c (·.setTile hv.toNat (some { t with
      xshape := pick 29 t.xshape, xsparse := pick 28 t.xsparse, xscale := pick 27 t.xscale, xfmt := pick 26 t.xfmt })))

def laneThset (f : Fields) (body : Word → Word → Word → Nat → Tile → List (Bool × Nat) → State → Res) (h : Hart) (s : State) : Res :=
  guardOps s h [(f.a, .w32), (f.b, .w32), (f.c, .w32)] <|
    let c := (h.core?).getD 0
    let hv := s.op32 h f.a
    if (s.core c).handleInUse hv.toNat then .stall s
    else match (s.core c).tile? hv.toNat with
      | none => .trap .handleFree (hv.setWidth 64)
      | some t => body (s.op32 h f.b) (s.op32 h f.c) hv c t
          [(s.opPoison h f.a .w32, 0), (s.opPoison h f.b .w32, 1), (s.opPoison h f.c .w32, 2)] s

/-! ## Locating a scratchpad access (R230) -/

/-- Handle, row and column as TVAL gives them (Table 2-8). -/
def spTval (hn row col : Nat) : Pair := BitVec.ofNat 64 (hn % 256 * 2 ^ 32 + row % 65536 * 65536 + col % 65536)

/-- The elements that a column access of `n` bytes spans, as a fraction: 8n/w, or 16 where 16 bytes hold 6-bit elements. -/
def columnSpan (w n : Nat) : Nat × Nat := if w = 6 && n = 16 then (16, 1) else (8 * n, w)

/-- How many elements a column access of `n` bytes covers: none where the format does not allow it. -/
def columnCount (w n : Nat) : Option Nat :=
  let (a, b) := columnSpan w n
  if (w ≠ 6 || n = 16) && a % b = 0 && 1 ≤ a / b && a / b ≤ 16 then some (a / b) else none

/-- The byte offset in its row of a row access at element `c`. -/
def rowOff (w c : Nat) : Nat := c * w / 8

/-- The conditions on the position of an access, in ascending code (R230). -/
def spFaults (g : Geo) (column : Bool) (hn row col n : Nat) : List (Bool × Cause × Pair) :=
  let tv := spTval hn row col
  if column then
    let (a, b) := columnSpan g.w n
    [(row * b % a ≠ 0, .addrAlign, tv), (g.stored ≤ col || g.rows * b < row * b + a, .spBounds, tv),
      ((columnCount g.w n).isNone, .hdrUnsupported, BitVec.ofNat 64 hn)]
  else
    let o := rowOff g.w col
    [((g.w = 4 && col % 2 ≠ 0) || (g.w = 6 && col % 4 ≠ 0) || o % n ≠ 0, .addrAlign, tv),
      (g.rows ≤ row || g.stored ≤ col || g.rb < o + n, .spBounds, tv)]

/-- The granules that an access covers, as raw granule numbers: of a column access, those of rows b to b + n − 1 in the block
column of the element's first byte (R230; R119 speaks of all 16 rows of the block, and a 6-bit element may end in the next
block column: log 86). -/
def spGranules (g : Geo) (t : Tile) (a : SpAccess) : List Nat :=
  if a.column then
    let (n, d) := columnSpan g.w a.size
    (List.range (ceilDiv n d)).map (fun i => spOffset g t.base t.span (a.row + i) (a.col * g.w / 8) / 16)
  else [spOffset g t.base t.span a.row (rowOff g.w a.col) / 16]

/-- The raw bytes of element `col` of row `i`: offset, and the bit at which the element starts in the first. -/
def elemBytes (g : Geo) (t : Tile) (i col : Nat) : List Nat :=
  let lo := col * g.w / 8
  let hi := (col * g.w + g.w - 1) / 8
  (List.range (hi + 1 - lo)).map (fun j => spOffset g t.base t.span i (lo + j))

/-- What an access reads: its value and poison, own queued stores first (R199, R231). -/
def Core.spLoad (k : Core) (th : Thread) (t : Tile) (a : SpAccess) : BitVec 128 × Bool :=
  let g := geoOf t.hdr
  let byte (o : Nat) : Byte := overlayByte th.storeQ .scratch o (peek k.sp o)
  let mark (o : Nat) : Bool := overlayMark th.storeQ .scratch (o / 16) (mget false k.spPoison (o / 16))
  if a.column then
    let rows := List.range ((columnCount g.w a.size).getD 0)
    let els := rows.map (fun i =>
      bytesNat ((elemBytes g t (a.row + i) a.col).map byte) / 2 ^ (a.col * g.w % 8) % 2 ^ g.w)
    (BitVec.ofNat 128 (els.foldr (fun e acc => e + 2 ^ g.w * acc) 0),
      rows.any (fun i => (elemBytes g t (a.row + i) a.col).any mark))
  else
    let o := spOffset g t.base t.span a.row (rowOff g.w a.col)
    (bytesVal ((List.range a.size).map (fun j => byte (o + j))), mark o)

/-- The bytes that a store of `v` writes: (raw offset, value, mask). -/
def spStoreBytes (g : Geo) (t : Tile) (a : SpAccess) (v : BitVec 128) : List (Nat × Byte × Byte) :=
  if a.column then
    (List.range ((columnCount g.w a.size).getD 0)).flatMap (fun i =>
      let e := v.toNat / 2 ^ (g.w * i) % 2 ^ g.w
      let sh := a.col * g.w % 8
      (elemBytes g t (a.row + i) a.col).zipIdx.map (fun p =>
        (p.1, BitVec.ofNat 8 (e * 2 ^ sh / 256 ^ p.2), BitVec.ofNat 8 ((2 ^ g.w - 1) * 2 ^ sh / 256 ^ p.2))))
  else fullBytes (spOffset g t.base t.span a.row (rowOff g.w a.col)) (natBytes a.size v.toNat)

/-- The lowest of several conditions, each with its TVAL; the first among equals (R45). -/
def lowestTrap (l : List (Bool × Cause × Pair)) : Option (Cause × Pair) :=
  l.foldl (fun best x =>
    if !x.1 then best
    else match best with
      | some (c, v) => if x.2.1.code.toNat < c.code.toNat then some x.2 else some (c, v)
      | none => some x.2) none

/-- Is an access to a tile one that meets a registered range (Table 9-3)? A position out of the tile's bounds has no place there, and so
meets none (R223). -/
def Core.spLocked (k : Core) (t : Tile) (a : SpAccess) (writes : Bool) : Bool :=
  let g := geoOf t.hdr
  decide (a.row < g.rows) && decide (a.col < g.stored)
    && ((spGranules g t a).filter (fun q => decide (q / 1024 < t.base + t.span))).any (fun q =>
      let (src, dst) := k.bankLock (q / 1024) (q / 1024 + 1)
      dst || (writes && src))

/-- The conditions of Table 10-2 that an access to an allocated handle meets. The header is checked on every use (R107), and
a wildcard tile is no source (R124). Those of the position hold only at level 0, for a handle that is not poisoned and whose stored
header's check holds (R223). A store completes a wildcard tile by the stored values (log 84). -/
def Core.spTileFaults (k : Core) (t : Tile) (a : SpAccess) (hv : Word) (writes wf hp : Bool) : List (Bool × Cause × Pair) :=
  let hn : Pair := hv.setWidth 64
  let bad := !descOk (some t.lv) t.hdr t.wild || (!writes && t.wild.any)
  [(!t.ok, .hdrCheck, hn), (t.ok && bad, .hdrUnsupported, hn), (t.lv ≠ .sp, .tileLevel, hn)]
    ++ (if t.lv = .sp && t.ok && !hp then
      spFaults (geoOf t.hdr) a.column a.h a.row a.col a.size
        ++ [(!wf && k.spLocked t a writes, .rangeLock, spTval a.h a.row a.col)]
    else [])
    ++ (match (if writes && t.ok then t.fillFault (geoOf t.hdr) else none) with
      | some c => [(true, c, hn)]
      | none => [])

/-- The condition of Table 10-2 that an access to a handle raises, and its tile where it meets none. `writes` is a store;
`wf` never meets RANGE_LOCK (Table 9-3). -/
def Core.spCheck (k : Core) (a : SpAccess) (hv : Word) (writes wf : Bool) (hp : Bool) (ps : List (Bool × Nat)) :
    (Cause × Pair) ⊕ Tile :=
  let psn := poisonTrap ((hp, 0) :: ps)
  match k.tile? hv.toNat with
  | none => .inl (.handleFree, hv.setWidth 64)
  | some t => match lowestTrap (k.spTileFaults t a hv writes wf hp ++ [psn]) with
    | some f => .inl f
    | none => .inr t

/-! ## LDT and its wait -/

/-- Are all the granules of an access in a state? -/
def Core.allIn (k : Core) (gs : List Nat) (st : GState) : Bool := gs.all (fun q => mget .empty k.spState q == st)
def Core.anyIn (k : Core) (gs : List Nat) (st : GState) : Bool := gs.any (fun q => mget .empty k.spState q == st)

/-- Empty granules. -/
def Core.emptyGranules (k : Core) (gs : List Nat) : Core :=
  { k with spState := gs.foldl (fun m q => mdel m q) k.spState }

/-- A scratchpad load takes effect for a thread (R231). -/
def State.ldtDo (s : State) (h : Hart) (t : Tile) (a : SpAccess) (f : Thread → Thread) : State :=
  let c := (h.core?).getD 0
  let k := s.core c
  let (v, p) := k.spLoad (s.thread h) t a
  let gs := spGranules (geoOf t.hdr) t a
  let view := gs.foldl (fun m q => Nat.max m (mget 0 k.spView q)) 0
  let s := if a.clr then s.modCore c (·.emptyGranules gs) else s
  s.modThread h (fun th => { (f th).putData a.dst a.size a.sx v p with mv := th.mv.raise view })

/-- The live operations that write a handle's storage: a `.wf` load that finds their granules Full has seen their completion
in part (R210, R211). -/
def Core.writersOf (k : Core) (hn : Nat) (t : Tile) : List (Bool × BitVec 16) :=
  (k.ops.filter (fun o => o.kind.reaches hn t)).map (fun o => (false, o.token))
    ++ (k.tasks.filter (fun x => (if x.kind == .mma then x.hc else x.ha) == hn)).map (fun x => (true, x.token))

/-- A `.wf` load that finds its granules Full. -/
def State.ldtWfDo (s : State) (h : Hart) (t : Tile) (a : SpAccess) (f : Thread → Thread) : State :=
  let ws := (s.coreOf h).writersOf a.h t
  (s.ldtDo h t a f).modThread h (fun th => { th with mv := { th.mv with
    seenOps := th.mv.seenOps ++ ws.filter (fun w => !th.mv.seenOps.contains w) } })

def laneLdt (f : Fields) (m : MemMod) (h : Hart) (s : State) : Res :=
  let n := sizeBytes m.size
  guardOps s h ([(f.a, .w32), (f.b, .w32), (f.c, .w32)] ++ f.dst (dataW n)) <|
    let k := s.coreOf h
    let hv := s.op32 h f.a
    let a : SpAccess := { h := hv.toNat, row := (s.op32 h f.b).toNat, col := (s.op32 h f.c).toNat, size := n, column := m.col,
                          sx := m.sx, clr := m.clr, acq := m.ord, dst := f.dest }
    match k.spCheck a hv false m.wf (s.opPoison h f.a .w32) [(s.opPoison h f.b .w32, 1), (s.opPoison h f.c .w32, 2)] with
    | .inl (c, v) => .trap c v
    | .inr t =>
      if m.wf then
        let gs := spGranules (geoOf t.hdr) t a
        if k.anyIn gs .failed then .trap .engineFailed (spTval a.h a.row a.col)
        else if k.allIn gs .full then .ok (s.ldtWfDo h t a Thread.clearWindow)
        else .park s (.ldtWf a)
      else .ok (s.ldtDo h t a id)

/-- What the wait of one thread meets now (R120). It finds its granules by the tile's stored header as it stands at the wake (log
126). -/
def State.wakeWfOne (s : State) (h : Hart) : State :=
  match (s.thread h).run with
  | .parked (.ldtWf a) =>
    match (s.coreOf h).tile? a.h with
    | none => s
    | some t =>
      let gs := spGranules (geoOf t.hdr) t a
      if (s.coreOf h).anyIn gs .failed then s.takeTrap h .engineFailed (spTval a.h a.row a.col) (s.thread h).pc
      else if (s.coreOf h).allIn gs .full then (s.ldtWfDo h t a id).wake h id
      else s
  | _ => s

/-- Wake the `.wf` waiters of a core, in ascending `tid` (R233). -/
def State.wakeWf (s : State) (c : Nat) : State :=
  (s.core c).threads.foldl (fun s p => s.wakeWfOne (hartOf c p.1)) s

/-! ## STT -/

/-- A store completes a tile with wildcard fields: each takes its stored value, and the tile is wildcard no more (R124, log 84). -/
def Core.completeTile (k : Core) (hn : Nat) : Core :=
  match k.tile? hn with
  | some t => if t.wild.any then k.setTile hn (some (t.fill (geoOf t.hdr))) else k
  | none => k

def laneStt (f : Fields) (m : MemMod) (h : Hart) (s : State) : Res :=
  let n := sizeBytes m.size
  let d : Opd := .reg f.d
  guardOps s h [(f.a, .w32), (f.b, .w32), (f.c, .w32), (d, dataW n)] <|
    let k := s.coreOf h
    let hv := s.op32 h f.a
    let a : SpAccess := { h := hv.toNat, row := (s.op32 h f.b).toNat, col := (s.op32 h f.c).toNat, size := n, column := m.col,
                          sx := false, clr := false, acq := false, dst := ⟨0, true⟩ }
    let dp := s.opPoison h d (dataW n)
    match k.spCheck a hv true false (s.opPoison h f.a .w32)
        [(s.opPoison h f.b .w32, 1), (s.opPoison h f.c .w32, 2), (dp && !m.psn, 3)] with
    | .inl (c, v) => .trap c v
    | .inr t =>
      if s.queueFull h then .stall s
      else
        let gs := if m.fill then spGranules (geoOf t.hdr) t a else []
        .ok ((s.modThread h (fun th => { th with
          storeQ := th.storeQ ++ [s.storeEnt h .scratch (spStoreBytes (geoOf t.hdr) t a (s.opData h d n)) 0 dp gs none]
          stores := th.stores + 1 })).modCore ((h.core?).getD 0) (·.completeTile hv.toNat))

/-! ## The instructions -/

def execTalloc (f : DF) (m : AllocMod) (s : State) : Host.Outcome State Fault Refusal :=
  issue 0 .compute (.talloc f m) (laneTalloc f.fields m) s
def execTfree (f : DF) (s : State) : Host.Outcome State Fault Refusal := issue 0 .compute (.tfree f) (laneTfree f.fields) s
def execThdr (f : DF) (k : BitVec 4) (s : State) : Host.Outcome State Fault Refusal :=
  issue 0 .compute (.thdr f k) (laneThdr f.fields false (fun t => hdrWord t.hdr k.toNat)) s
def execThdrCtl (f : DF) (s : State) : Host.Outcome State Fault Refusal :=
  issue 0 .compute (.thdrCtl f) (laneThdr f.fields true Tile.ctl) s
def execThset (f : DF) (k : BitVec 4) (s : State) : Host.Outcome State Fault Refusal :=
  issue 0 .compute (.thset f k) (laneThset f.fields (thsetWord k.toNat)) s
def execThsetCtl (f : DF) (s : State) : Host.Outcome State Fault Refusal :=
  issue 0 .compute (.thsetCtl f) (laneThset f.fields thsetCtlWith) s
def execLdt (f : DF) (m : MemMod) (s : State) : Host.Outcome State Fault Refusal :=
  issue 0 .compute (.ldt f m) (laneLdt f.fields m) s
def execStt (f : DF) (m : MemMod) (s : State) : Host.Outcome State Fault Refusal :=
  issue 0 .compute (.stt f m) (laneStt f.fields m) s

end Sys2Proof.Machine
end

