-- ==== Sys2Proof/Machine/Control.lean ====
section
/-! DEFINITION. Control, barriers and waiting (13_control_and_waiting R294–R315): transfers, barrier instructions, the
tile dispenser, calls to the supervisor agent, safe points and EXIT. -/

namespace Sys2Proof.Machine

/-! ## Transfers (R295, R296) -/

/-- A transfer to `t`: PC_ALIGN, ADDR_RANGE, POISON_USE in ascending order, else `k`. -/
def transfer (t : BitVec 64) (ps : List (Bool × Nat)) (k : Res) : Res :=
  firstTrap [(t.getLsbD 0, .pcAlign, t), (outOfRange t, .addrRange, t), poisonTrap ps] k

/-- sx64 of a 32-bit offset. -/
def State.offset (s : State) (h : Hart) (o : Opd) : BitVec 64 := (s.op32 h o).signExtend 64

/-- BR: a branch that is not taken forms no target. -/
def laneBr (f : Fields) (nz : Bool) (h : Hart) (s : State) : Res :=
  guardOps s h [(f.a, .w32), (f.b, .w32)] <|
    let ps := [(s.opPoison h f.a .w32, 0), (s.opPoison h f.b .w32, 1)]
    if decide (s.op32 h f.a = 0) != nz then
      let t := s.pc h + s.offset h f.b
      transfer t ps (.jump s t)
    else firstTrap [poisonTrap ps] (.ok s)

def laneJmp (f : Fields) (h : Hart) (s : State) : Res :=
  guardOps s h [(f.b, .w32)] <|
    let t := s.pc h + s.offset h f.b
    transfer t [(s.opPoison h f.b .w32, 1)] (.jump s t)

def laneJmpr (f : Fields) (h : Hart) (s : State) : Res :=
  guardOps s h [(f.a, .pair), (f.b, .w32)] <|
    let t := s.opPair h f.a + s.offset h f.b
    transfer t [(s.opPoison h f.a .pair, 0), (s.opPoison h f.b .w32, 1)] (.jump s t)

/-- CALL: the link is the address of the next instruction, `len` bytes on. -/
def laneCall (f : Fields) (len : Nat) (h : Hart) (s : State) : Res :=
  guardOps s h ([(f.b, .w32)] ++ f.dst .pair) <|
    let t := s.pc h + s.offset h f.b
    transfer t [(s.opPoison h f.b .w32, 1)]
      (.jump (s.putPair h f.dest (s.pc h + BitVec.ofNat 64 len) false) t)

def laneCallInd (f : Fields) (len : Nat) (h : Hart) (s : State) : Res :=
  guardOps s h ([(f.a, .pair), (f.b, .w32)] ++ f.dst .pair) <|
    let t := s.opPair h f.a + s.offset h f.b
    transfer t [(s.opPoison h f.a .pair, 0), (s.opPoison h f.b .w32, 1)]
      (.jump (s.putPair h f.dest (s.pc h + BitVec.ofNat 64 len) false) t)

def laneRet (f : Fields) (h : Hart) (s : State) : Res :=
  guardOps s h [(f.a, .pair)] <|
    let t := s.opPair h f.a
    transfer t [(s.opPoison h f.a .pair, 0)] (.jump s t)

/-! ## Barriers (R299–R303) -/

/-- Does a thread's record of a barrier 16–23 name another level (R300)? -/
def Thread.otherLevel (th : Thread) (b lvl : Nat) : Bool :=
  match mget none th.barLvl b with
  | some l => l ≠ lvl
  | none => false

/-- Do a number and a level name a barrier instance (R299)? With no workgroup resident there is none. -/
def State.barNamed (s : State) (h : Hart) (b lvl : Nat) : Bool :=
  match (s.coreOf h).wg with
  | none => false
  | some w => b ≤ 31 && (if isBlockBar b then lvl ≤ maxLevel w else lvl = 0)

/-- BAR_SCOPE by number and level (R299, R300). -/
def State.barScope (s : State) (h : Hart) (b lvl : Nat) : Bool :=
  !s.barNamed h b lvl || (isBlockBar b && (s.thread h).otherLevel b lvl)

/-- BAR_COUNT of an arrival (R301). A number and level that R299 refuses name no instance whose count could differ; one that only
R300 refuses does. -/
def State.barCountBad (s : State) (h : Hart) (b lvl count : Nat) : Bool :=
  count = 0 || 65535 < count || (s.barNamed h b lvl && match h.core? with
    | some c => match (s.barrier c b lvl).count with
      | some n => n ≠ count
      | none => false
    | none => false)

/-- Have the earlier accesses of a thread been performed at a barrier's scope (R214, R301)? -/
def State.barReady (s : State) (h : Hart) (b : Nat) : Bool :=
  if isBlockBar b then s.orderHome h else (s.thread h).storeQ.isEmpty

/-- The level of a first use is kept for barriers 16–23 (R300). -/
def Thread.useLevel (th : Thread) (b lvl : Nat) : Thread :=
  if isBlockBar b then { th with barLvl := mset none th.barLvl b (some lvl) } else th

/-- What an arrival releases: at core scope what its thread knows, at a wider one all that has been performed (R214). -/
def State.arrivalView (s : State) (h : Hart) (b : Nat) : Nat := if isBlockBar b then s.instant else (s.thread h).mv.floor

/-- An arrival that has passed its checks: count, arrival record, and the wake of a completed phase (R301). -/
def State.arriveBar (s : State) (h : Hart) (c b lvl count : Nat) : State :=
  let x := s.barrier c b lvl
  let s := s.modThread h (fun th => { th.useLevel b lvl with arrive := mset none th.arrive b (some x.phase) })
  s.advanceBarrier c b lvl (x.arrive count (s.arrivalView h b))

/-- The wait of R302, which ends at once when its target phase has completed. -/
def State.waitBar (s : State) (h : Hart) (c b lvl : Nat) : Res :=
  let th := s.thread h
  let target := (mget none th.arrive b).getD (mget 0 th.seen b)
  let x := s.barrier c b lvl
  let s := s.modThread h (·.useLevel b lvl)
  if phaseDone x.phase target then .ok (s.modThread h (fun th => (th.leaveBarrier b x).clearWindow))
  else .park s (.barrier b lvl target)

/-- The checks of a barrier instruction in ascending order of codes (R45, R299, R301, R302). -/
def barTraps (s : State) (h : Hart) (b lvl : Nat) (bad : Bool) (arrival : Option Nat) (ps : List (Bool × Nat)) (k : Res) : Res :=
  let v := BitVec.ofNat 64 b
  firstTrap
    [poisonTrap ps,
     ((match arrival with
       | some n => s.barCountBad h b lvl n
       | none => false), .barCount, v),
     (s.barScope h b lvl || bad, .barScope, v)] k

/-- BARA, and with `wait` BARS. -/
def laneBar (f : Fields) (lvl : Nat) (wait : Bool) (h : Hart) (s : State) : Res :=
  guardOps s h [(f.b, .w32), (f.c, .w32)] <|
    let b := (s.op32 h f.b).toNat
    let count := (s.op32 h f.c).toNat
    barTraps s h b lvl (24 ≤ b) (some count) [(s.opPoison h f.b .w32, 1), (s.opPoison h f.c .w32, 2)] <|
      match h.core? with
      | none => .ok s
      | some c =>
        if !s.barReady h b then .stall s
        else
          let t := s.arriveBar h c b lvl count
          if wait then t.waitBar h c b lvl else .ok t

def laneBarw (f : Fields) (lvl : Nat) (h : Hart) (s : State) : Res :=
  guardOps s h [(f.b, .w32)] <|
    let b := (s.op32 h f.b).toNat
    match h.core? with
    | none => .ok s
    | some c =>
      barTraps s h b lvl (24 ≤ b && !s.irqBound c b) none [(s.opPoison h f.b .w32, 1)] (s.waitBar h c b lvl)

/-! ## The tile dispenser (R282, R309, R310) -/

/-- The total of a dispenser, and a claim: the chunk and the dispenser after it. -/
def Dispenser.total (d : Dispenser) : Nat := d.x * d.y * d.z
def Dispenser.claim (d : Dispenser) : (Nat × Nat) × Dispenser :=
  let stop := Nat.min (d.next + d.chunk) d.total
  ((d.next, stop), { d with next := stop })

def laneTdisp (f : Fields) (h : Hart) (s : State) : Res :=
  guardOps s h (f.dst .quad) <|
    let s := match h.core? with
      | some c => s.modCore c (fun k => { k with claims := k.claims.filter (· ≠ h.key) ++ [h.key] })
      | none => s
    .park s (.tdisp f.dest)

/-- Does a thread wait for the dispenser? -/
def Thread.claiming (th : Thread) : Bool :=
  match th.run with
  | .parked (.tdisp _) => true
  | _ => false

/-- The oldest claim of a core that has no answer yet: a core's claims follow its issue order (R282). -/
def Core.oldestClaim (k : Core) : Option Nat := k.claims.find? (fun t => (k.thread t).claiming)

/-- The answer of a claim: `start` in bytes 7:0, `end` in bytes 15:8. -/
def Thread.takeChunk (th : Thread) (d : Dest) (start stop : Pair) : Thread := th.putQuad d (stop ++ start) false

/-- The answer wakes the thread; one that has been stopped for a save is recorded as past its TDISP with its chunk (R310). -/
def State.giveChunk (s : State) (h : Hart) (c : Nat) (dst : Dest) (start stop : Pair) : State :=
  let s := s.modCore c (fun k => { k with claims := k.claims.filter (· ≠ h.key) })
  if (s.thread h).stopped then s.modThread h (fun th => { th with run := .parked (.tdispDone start stop dst), pc := th.npc })
  else s.wake h (·.takeChunk dst start stop)

/-- The claim of a parked thread takes effect at the scheduler; with no resident launch the answer is 0 and 0 (R309). -/
def State.answerClaim (s : State) (h : Hart) (c : Nat) (dst : Dest) : State :=
  match (s.core c).wg.bind (fun w => (s.grantOf w).map (fun g => (w.slot, g))) with
  | some (slot, g) =>
    let r := g.disp.claim
    (s.modSlot slot (fun sl => { sl with grant := some { g with disp := r.2 } })).giveChunk h c dst
      (BitVec.ofNat 64 r.1.1) (BitVec.ofNat 64 r.1.2)
  | none => s.giveChunk h c dst 0 0

def execDispenserAnswer (h : Hart) (s : State) : Host.Outcome State Fault Refusal :=
  .next (match (s.thread h).run, h.core? with
    | .parked (.tdisp dst), some c => if (s.core c).oldestClaim = some h.key then s.answerClaim h c dst else s
    | _, _ => s)

/-! ## Calls to the supervisor agent (R311, R312) -/

def laneSvc (f : Fields) (h : Hart) (s : State) : Res :=
  guardOps s h [(f.b, .w32)] (.trap .svcCall ((s.op32 h f.b).setWidth 64))

def laneTrap (f : Fields) (h : Hart) (s : State) : Res :=
  guardOps s h [(f.b, .w32)] (.trap .trapInsn ((s.op32 h f.b).setWidth 64))

/-- SVC.mb: the request enters the mailbox once the thread's stores have entered the core order and there is room. -/
def laneSvcMb (f : Fields) (h : Hart) (s : State) : Res :=
  guardOps s h ([(f.b, .w32), (f.c, .w32)] ++ f.dst .w32) <|
    match h with
    | .user c t =>
      firstTrap [poisonTrap [(s.opPoison h f.b .w32, 1), (s.opPoison h f.c .w32, 2)]] <|
        if !(s.thread h).storeQ.isEmpty || 32 ≤ (s.core c).mbox.length then .stall s
        else
          let code : BitVec 16 := (s.op32 h f.b).setWidth 16
          let arg := s.op32 h f.c
          .park (s.modCore c (fun k => Core.wakeSup { k with mbox := k.mbox ++ [MboxReq.mk t code arg] })) (.svcMb code arg f.dest)
    | _ => .trap .svcCall ((s.op32 h f.b).setWidth 64)

/-! ## Safe points and EXIT (R313–R315) -/

/-- Is a workgroup armed (R287)? It stays so in a forced save taken after it armed. -/
def Preempt.isArmed : Preempt → Bool
  | .armed => true
  | .forced a => a
  | _ => false

/-- The save area of a thread: LIVE bytes, 16-byte aligned, one area for each thread of the launch in a row from a base that is the
firmware's own choice for the queue (R405, R418, log 22). A restore finds the same areas. -/
def State.saveArea (s : State) (w : Workgroup) (t : Nat) : BitVec 64 :=
  let q := match s.grantOf w with
    | some g => g.qid.toNat
    | none => 0
  let live := (w.safe.map (·.live)).foldl Nat.max 0
  (Config.saveBase q + BitVec.ofNat 64 (((w.cy * w.rw + w.cx) * w.nth + t) * live)) &&& 0x0FFFFFFFFFFFFFF0

def laneSafe (f : Fields) (len : Nat) (h : Hart) (s : State) : Res :=
  match h with
  | .user c t =>
    let n := (s.op32 h f.b).toNat
    match (s.core c).wg with
    | none => .ok s
    | some w =>
      match w.safe[n]? with
      | none => .trap .safeIndex (BitVec.ofNat 64 n)
      | some sp =>
        if !w.preempt.isArmed || (s.thread h).save.phase = .inside then .ok s
        else
          let resume := s.pc h + BitVec.ofNat 64 len
          let area := s.saveArea w t
          .jump (s.modThread h (fun th =>
            { (th.clearWindow.push ⟨resume, true, false⟩).push ⟨area, true, false⟩ with
              save := { phase := .inside, entry := n, resume, area } })) (w.hdr + BitVec.ofNat 64 sp.save)
  | _ => .ok s

/-- Registers v0–v3 as a thread starts with them (Table 2-3). -/
def startRegs (w : Workgroup) : List (Nat × Word) :=
  mset 0 (mset 0 (mset 0 (mset 0 [] 0 (Pair.lo w.args)) 1 (Pair.hi w.args)) 2 (Pair.lo w.hdr)) 3 (Pair.hi w.hdr)

/-- A thread whose save routine has finished starts at the RESTORE offset of its entry (R314, R315). -/
def Thread.startRestore (th : Thread) (w : Workgroup) : Thread :=
  let off := match w.safe[th.save.entry]? with
    | some sp => sp.restore
    | none => 0
  { (th.clearWindow.push ⟨th.save.resume, true, false⟩).push ⟨th.save.area, true, false⟩ with
    regs := startRegs w, poison := [], causeActive := false, causeCode := 0, epc := 0, tval := 0
    run := .ready, pc := w.hdr + BitVec.ofNat 64 off, save := {} }

/-- Is an item of R290 pending at a core's supervisor agent? -/
def Core.itemPending (k : Core) : Bool := !k.trq.isEmpty || !k.mbox.isEmpty || !k.events.isEmpty

/-- Post an item to the supervisor agent: a group parked at its EXIT wakes and takes it at once (R276, R290, log 23). -/
def Core.post (k : Core) (e : AgentEvent) : Core :=
  if k.supIdle then k.wakeSup else { k with events := k.events ++ [e] }

/-- Pre-emption requests and restores are served first (R290). -/
def AgentEvent.first : AgentEvent → Bool
  | .preempt _ | .restore .. => true
  | .slotEvent .. | .queueError _ => false

/-- The group's EXIT finds the first item in the order of R290: a pre-emption request or a restore is taken, a trapped thread or a
mailbox request stays queued for its register, any other posted event is taken last. -/
def Core.takeItem (k : Core) : Core :=
  if k.events.any (·.first) then { k with events := k.events.eraseP (·.first) }
  else if k.trq.isEmpty && k.mbox.isEmpty then { k with events := k.events.drop 1 } else k

/-- The agent's EXIT ends its service of a pre-emption request that it has taken (R418, log 112). -/
def Core.endService (k : Core) : Core :=
  let queued := k.events.any (fun e => match e with
    | .preempt _ => true
    | _ => false)
  { k with wg := k.wg.map (fun w => if queued || w.preempt = .none then w else { w with served := true }) }

/-- EXIT (R315). Where an item is pending the group's park ends at once, with its window emptied (R36). -/
def laneExit (h : Hart) (s : State) : Res :=
  match h with
  | .user c t =>
    match (s.core c).wg with
    | none => .ok s
    | some w =>
      if (s.thread h).save.phase = .inside then
        if w.preempt.isArmed && !(s.thread h).save.again then
          .ok (s.modThread h (fun th => { th with stopped := true, save := { th.save with phase := .finished } }))
        else
          let th := (s.thread h).startRestore w
          .jump (s.setThread h th) th.pc
      else
        let s := s.modThread h (fun th =>
          { th with run := .exited, engFlags := 0, fail := false, failToken := 0, failCode := 0 })
        .ok (s.dissolveFor c (1 + t / 64) (t % 64))
  | .sup c l =>
    let s := if l = 63 then s.modCore c Core.endService else s
    if !(s.core c).itemPending then .park s .supIdle
    else
      let s := s.modThread (.sup c l) (·.clearWindow)
      .ok (if l = 63 then s.modCore c Core.takeItem else s)
  | .mgmt => .ok s

/-! ## Waits with no producer (R307) -/

/-- A wait that no event from outside the workgroup can end (Table 13-2). -/
def Wait.inner : Wait → Bool
  | .barrier b _ _ => b < 16
  | .ldtWf _ => true
  | .xlane => true
  | _ => false

/-- Is a granule of scratchpad Empty with no operation that will fill it? -/
def Core.noProducer (k : Core) (g : Nat) : Bool :=
  mget GState.empty k.spState g == .empty && !(k.bankLock (g / 1024) (g / 1024 + 1)).2

/-- The `.wf` waiters of a core that trap now, in ascending `tid`. "The supervisor group is parked" is its park at EXIT: a group
parked elsewhere goes on at that wake and may still fill a granule (DESIGN CHOICE, log 110). -/
def Core.hopeless (k : Core) : List (Nat × SpAccess) :=
  match k.wg with
  | none => []
  | some w =>
    let ts := List.range w.nth
    let stuck := ts.all (fun t =>
      let th := k.thread t
      !th.stopped && match th.run with
        | .exited => true
        | .parked wt => wt.inner
        | _ => false)
    if stuck && k.supIdle && !k.itemPending then
      ts.filterMap (fun t => match (k.thread t).run with
        | .parked (.ldtWf a) => match k.tile? a.h with
          | some tl => if (spGranules (geoOf tl.hdr) tl a).any k.noProducer then some (t, a) else none
          | none => none
        | _ => none)
    else []

def execNoProducerTrap (core : Nat) (s : State) : Host.Outcome State Fault Refusal :=
  .next ((s.core core).hopeless.foldl (fun s p =>
    s.trapUser core p.1 .waitNoProducer (spTval p.2.h p.2.row p.2.col) (s.thread (.user core p.1)).pc) s)

/-! ## YIELD (R298) -/

/-- A group wakes all its threads at once (R24). -/
def execYieldWake (h : Hart) (s : State) : Host.Outcome State Fault Refusal :=
  .next (match (s.thread h).run, h with
    | .parked .yield, .sup c _ => s.modCore c (fun k => allLanes.foldl (fun k l =>
        k.modThread (supKey l) (fun th => { th with run := .ready })) k)
    | .parked .yield, _ => s.wake h id
    | _, _ => s)

/-! ## The instructions -/

def execBara (f : DF) (lvl : BitVec 4) (s : State) : Host.Outcome State Fault Refusal :=
  issue 0 .compute (.bara f lvl) (laneBar f.fields lvl.toNat false) s
def execBarw (f : DF) (lvl : BitVec 4) (s : State) : Host.Outcome State Fault Refusal :=
  issue 0 .compute (.barw f lvl) (laneBarw f.fields lvl.toNat) s
def execBars (f : DF) (lvl : BitVec 4) (s : State) : Host.Outcome State Fault Refusal :=
  issue 0 .compute (.bars f lvl) (laneBar f.fields lvl.toNat true) s
def execBr (f : DF) (nz : Bool) (s : State) : Host.Outcome State Fault Refusal := issue 0 .all (.br f nz) (laneBr f.fields nz) s
def execJmp (f : DF) (s : State) : Host.Outcome State Fault Refusal := issue 0 .all (.jmp f) (laneJmp f.fields) s
def execJmpr (f : DF) (s : State) : Host.Outcome State Fault Refusal := issue 0 .all (.jmpr f) (laneJmpr f.fields) s
def execCall (f : DF) (s : State) : Host.Outcome State Fault Refusal :=
  issue 0 .all (.call f) (laneCall f.fields (Instr.call f).len) s
def execCallInd (f : DF) (s : State) : Host.Outcome State Fault Refusal :=
  issue 0 .all (.callInd f) (laneCallInd f.fields (Instr.callInd f).len) s
def execRet (f : DF) (s : State) : Host.Outcome State Fault Refusal := issue 0 .all (.ret f) (laneRet f.fields) s
def execTdisp (f : DF) (s : State) : Host.Outcome State Fault Refusal := issue 0 .compute (.tdisp f) (laneTdisp f.fields) s
def execSvc (f : DF) (s : State) : Host.Outcome State Fault Refusal := issue 0 .compute (.svc f) (laneSvc f.fields) s
def execSvcMb (f : DF) (s : State) : Host.Outcome State Fault Refusal := issue 0 .compute (.svcMb f) (laneSvcMb f.fields) s
def execYield (f : DF) (s : State) : Host.Outcome State Fault Refusal :=
  issue 0 .compute (.yield f) (fun _ s => .park s .yield) s
def execSafe (f : DF) (s : State) : Host.Outcome State Fault Refusal :=
  issue 0 .compute (.safe f) (laneSafe f.fields (Instr.safe f).len) s
def execNop (f : DF) (s : State) : Host.Outcome State Fault Refusal := issue 0 .all (.nop f) (fun _ s => .ok s) s
def execNopW (s : State) : Host.Outcome State Fault Refusal := issue 0 .all .nopW (fun _ s => .ok s) s
def execExit (f : DF) (s : State) : Host.Outcome State Fault Refusal := issue 0 .compute (.exit f) laneExit s
def execTrap (f : DF) (s : State) : Host.Outcome State Fault Refusal := issue 0 .all (.trap f) (laneTrap f.fields) s

end Sys2Proof.Machine
end

