-- ==== Sys2Proof/Machine/Matrix.lean ====
section
/-! DEFINITION. The arithmetic of the matrix engines (08_matrix R182–R186, R189–R191): element values, products in
groups, conversion, quantisation, and the rows that come out poisoned. -/

namespace Sys2Proof.Machine

/-! ## Element values (R86) -/

def intFVal (n : Int) : FVal := .fin (n < 0) n.natAbs 0

/-- The value of a code of a format. -/
def codeFVal (fmt : Nat) (ftz : Bool) (code : Nat) : FVal :=
  match numFmt (fmtOfCode fmt) with
  | .float f => f.read ftz code
  | .int u w => intFVal (readEl u w code)

/-- Two exact factors, with the flags raised so far. -/
def timesVal (a : ExactRes) (b : FVal) : ExactRes :=
  let p := mulVal a.1 b
  (p.1, a.2 ||| p.2)

/-- The value of row `i`'s code at logical column `col`, through its scales. -/
def TileVal.value (v : TileVal) (ftz : Bool) (i col code : Nat) : ExactRes :=
  let g := v.geo
  let e : ExactRes := (codeFVal g.fmt ftz code, 0)
  if g.scale = 0 then e
  else
    let sc := v.scale i (col / g.bs)
    let e := timesVal e (if g.scale = 1 then e8m0 sc else e3m5 sc)
    if g.scale = 3 then timesVal e (bandScale (v.band (i / 64))) else e

/-- The logical column of kept element `k` of row `i` (R104). -/
def TileVal.column (v : TileVal) (i k : Nat) : Nat :=
  if v.geo.sparse then 4 * (k / 2) + v.metaB i (k / 4) / 4 ^ (k % 4) % 4 else k

/-- The stored elements of a row with their logical columns and values. -/
def TileVal.rowTerms (v : TileVal) (ftz : Bool) (i : Nat) : List (Nat × ExactRes) :=
  (List.range v.geo.stored).map (fun k =>
    let col := v.column i k
    (col, v.value ftz i col (v.code i k)))

/-- A tile value held as lists. -/
def tileOf (g : Geo) (codes : List (List Nat)) (scales : List (List Nat)) (bands : List Nat) (metas : List (List Nat))
    (rowP : List Bool) : TileVal :=
  { geo := g
    code := fun i j => (codes.getD i []).getD j 0
    scale := fun i b => (scales.getD i []).getD b 0
    band := fun q => bands.getD q 0
    metaB := fun i k => (metas.getD i []).getD k 0
    rowP := fun i => rowP.getD i false }

/-- The OR of the flags of a list of results. -/
def orFlags (l : List FlagSet) : FlagSet := l.foldl (· ||| ·) 0

/-! ## Products (R182–R184) -/

/-- The exact sum of the terms of a group: NaN, infinite, or a finite value whose zero is −0 only when every term is −0. -/
def sumTerms (ts : List FVal) : ExactRes :=
  let opposite := ts.any (· == .inf false) && ts.any (· == .inf true)
  match ts with
  | [] => (.fin false 0 0, 0)
  | t :: rest =>
    let r := rest.foldl (fun (acc : ExactRes) x => let a := addVal .rne acc.1 x; (a.1, acc.2 ||| a.2)) (t, 0)
    (r.1, r.2 ||| ivIf opposite)

/-- One output of a floating product: the code and the flags. An element of B that no kept element of a sparse A meets makes no term and
raises nothing, a signalling NaN too (log 125). -/
def mmaElem (ftz : Bool) (group cols start : Nat) (a : List (Nat × ExactRes)) (b : List (Nat × ExactRes)) : Nat × FlagSet :=
  (List.range (ceilDiv cols group)).foldl (fun (acc : Nat × FlagSet) g =>
    let ps := (a.filter (fun t => t.1 / group == g)).map (fun t =>
      let y := (b.getD t.1 (0, (.fin false 0 0, 0))).2
      let p := mulVal t.2.1 y.1
      (p.1, p.2 ||| t.2.2 ||| y.2))
    let sum := sumTerms (ps.map (·.1))
    let total := addVal .rne (fF32.read ftz acc.1) sum.1
    let (c, fl) := fF32.finish .rne ftz total
    (c, acc.2 ||| orFlags (ps.map (·.2)) ||| sum.2 ||| fl)) (start, 0)

/-- One output of class I: exact, wrapping, no flag (R184). -/
def mmaInt (start : Nat) (a b : List (Nat × ExactRes)) : Nat :=
  let val (x : FVal) : Int := match x with
    | .fin n m e => signedAt n m e 0
    | _ => 0
  narrow 32 (a.foldl (fun acc t => acc + val t.2.1 * val (b.getD t.1 (0, (.fin false 0 0, 0))).2.1) (readEl false 32 start))

/-- Pairing classes of Table 5-6. -/
inductive PairClass where
  | f32 | h | q | i
  deriving DecidableEq, Repr

def pairClass (g : Geo) : Option PairClass :=
  if g.fmt = 0 then some .f32
  else if g.fmt = 1 || g.fmt = 2 then some .h
  else if 3 ≤ g.fmt && g.fmt ≤ 7 then some .q
  else if g.fmt = 8 || g.fmt = 9 then (if g.scale = 0 then some .i else some .q)
  else none

/-- The result header of a product (R123). -/
def mmaGeo (a b : Geo) : Geo := ⟨if pairClass a = some .i then 10 else 0, 0, false, a.rows, b.rows⟩

/-- MMA: the result tile and the flags (R182–R185, R189). `c` is the accumulator, absent with Z = 1. -/
def mmaTile (ftz nbv : Bool) (a b : TileVal) (c : Option TileVal) : TileVal × FlagSet :=
  let g := mmaGeo a.geo b.geo
  let arows := (List.range g.rows).map (a.rowTerms ftz)
  let brows := (List.range g.cols).map (b.rowTerms ftz)
  let group := if nbv then 32 else 8
  let start (i n : Nat) : Nat := match c with
    | some t => t.code i n
    | none => 0
  let out := (List.range g.rows).map (fun i => (List.range g.cols).map (fun n =>
    let x := arows.getD i []
    let y := brows.getD n []
    if g.fmt = 10 then (mmaInt (start i n) x y, (0 : FlagSet)) else mmaElem ftz group a.geo.cols (start i n) x y))
  let anyB := (List.range b.geo.rows).any b.rowP
  let marks := (List.range g.rows).map (fun i => a.rowP i || anyB || (match c with
    | some t => t.rowP i
    | none => false))
  (tileOf g (out.map (·.map (·.1))) [] [] [] marks, orFlags (out.map (fun r => orFlags (r.map (·.2)))))

/-! ## Moves (R190, Table 8-5) -/

inductive MoveCase where
  | refused | copy | convert | quantise
  deriving DecidableEq, Repr

/-- The case of a move from `s` to `d`, transposing when `t`, in the order of Table 8-5. -/
def moveCase (t : Bool) (s d : Geo) : MoveCase :=
  let same := s.fmt = d.fmt && s.scale = d.scale && s.sparse = d.sparse
  if (t && (s.scale ≠ 0 || s.sparse || d.scale ≠ 0 || d.sparse)) || (s.sparse && !same) || (!s.sparse && d.sparse) then .refused
  else if same then .copy
  else if d.scale = 0 then .convert
  else .quantise

/-- Exchange rows and columns of a square table of lists. -/
def transposeIf (t : Bool) (rows cols : Nat) (l : List (List Nat)) : List (List Nat) :=
  if t then (List.range cols).map (fun j => (List.range rows).map (fun i => (l.getD i []).getD j 0)) else l

/-- The poison of the destination rows of a move (R185). -/
def moveRows (t : Bool) (s : TileVal) (n : Nat) : List Bool :=
  if t then List.replicate n ((List.range s.geo.rows).any s.rowP) else (List.range n).map s.rowP

/-- Copy: every bit as it is. -/
def copyTile (t : Bool) (s : TileVal) (d : Geo) : TileVal :=
  let g := s.geo
  let rows := List.range g.rows
  let codes := rows.map (fun i => (List.range g.stored).map (s.code i))
  tileOf d (transposeIf t g.rows g.stored codes) (rows.map (fun i => (List.range g.nb).map (s.scale i)))
    ((List.range g.bands).map s.band) (rows.map (fun i => (List.range g.mb).map (s.metaB i))) (moveRows t s d.rows)

/-- Convert one element (R93): an unscaled integer source by Table 4-5, any other as its exact value. -/
def convertEl (d : Dir) (ftz sat : Bool) (s : TileVal) (dst : Nat) (i j : Nat) : Nat × FlagSet :=
  let g := s.geo
  let code := s.code i j
  if g.scale = 0 then convert d ftz sat (numFmt (fmtOfCode g.fmt)) (numFmt (fmtOfCode dst)) code
  else
    let v := s.value ftz i j code
    let (c, fl) := match numFmt (fmtOfCode dst) with
      | .float f => f.ofVal d ftz sat v.1
      | .int u w => intOfVal d u w v.1
    (c, fl ||| v.2)

def convertTile (t : Bool) (dir : Dir) (ftz sat : Bool) (s : TileVal) (d : Geo) : TileVal × FlagSet :=
  let g := s.geo
  let out := (List.range g.rows).map (fun i => (List.range g.cols).map (convertEl dir ftz sat s d.fmt i))
  (tileOf d (transposeIf t g.rows g.cols (out.map (·.map (·.1)))) [] [] [] (moveRows t s d.rows),
    orFlags (out.map (fun r => orFlags (r.map (·.2)))))

/-! ## Quantisation (R186) -/

/-- The largest finite magnitude of a destination format. -/
def maxFinite (fmt : Nat) : FVal :=
  match numFmt (fmtOfCode fmt) with
  | .float f => f.decode f.maxCode
  | .int _ w => .fin false (2 ^ (w - 1) - 1) 0

/-- ⌊log2 |v|⌋ of a finite non-zero value. -/
def exponentOf : FVal → Option Int
  | .fin _ m e => if m = 0 then none else some (e + m.log2)
  | _ => none

/-- The exponent of the clip magnitude Vc of a region, or none when Vc = 0. -/
def clipExp (p : Nat) (vs : List FVal) : Option Int :=
  let es := vs.filterMap exponentOf
  match es with
  | [] => none
  | e0 :: _ =>
    let c := max 1 (ceilDiv (p * es.length) 10000)
    let lo := es.foldl min e0
    let hi := es.foldl max e0
    let pick := (List.range ((hi - lo).toNat + 1)).find? (fun (d : Nat) => decide (c ≤ (es.filter (fun (e : Int) => decide (e ≤ lo + (d : Int)))).length))
    let d : Nat := pick.getD (hi - lo).toNat
    some (lo + (d : Int) + 1)

/-- |v| of a value that is not a NaN. -/
def absVal : FVal → FVal
  | .inf _ => .inf false
  | .fin _ m e => .fin false m e
  | v => v

/-- w(v): clamped to the clip magnitude, with SAT. -/
def clipVal (vc : Option Int) (v : FVal) : FVal × FlagSet :=
  let lim : FVal := match vc with
    | some e => .fin false 1 e
    | none => .fin false 0 0
  match v with
  | .nan s => (.nan s, 0)
  | v =>
    if cmpVal (absVal v) lim == .gt then
      (match lim with
        | .fin _ m e => .fin v.neg m e
        | w => w, flSAT)
    else (v, 0)

/-- x ≤ y × z for non-negative finite values. -/
def leProd (x y z : FVal) : Bool := cmpVal x (mulVal y z).1 != .gt

/-- The block scale code (R186): the smallest that fits, at most the largest. -/
def blockScale (scale : Nat) (maxF m sb : FVal) : Nat :=
  let zero := match m with
    | .fin _ 0 _ => true
    | _ => false
  if zero then 0
  else if scale = 1 then ((List.range 255).find? (fun c => leProd m maxF (e8m0 c))).getD 254
  else ((List.range 256).find? (fun c => leProd m (mulVal maxF sb).1 (e3m5 c))).getD 255

/-- w / (bs × sb) as an exact dyadic with a sticky low bit: enough bits for one rounding into any element format. -/
def quotVal (w bs sb : FVal) : FVal :=
  match w, (mulVal bs sb).1 with
  | .fin n m e, .fin _ b f =>
    if m = 0 || b = 0 then .fin n 0 0
    else
      let num := m * 2 ^ 80
      .fin n (2 * (num / b) + (if num % b = 0 then 0 else 1)) (e - f - 81)
  | v, _ => v

/-- One element of a scaled tile: its code and its flags. A NaN becomes the code that R92 gives and raises IV and NL, whatever the
format (R186, log 99). NX of an integer format is as in Table 4-5: none
where the value is clamped (DEDUCED, log 19). -/
def quantEl (fmt bsCode : Nat) (w : FVal) (bs sb : FVal) : Nat × FlagSet :=
  match w with
  | .nan _ => (match numFmt (fmtOfCode fmt) with
    | .float f => match f.nan with
      | some c => c
      | none => f.put true f.maxCode
    | .int .. => 0, flIV ||| flNL)
  | w =>
    if bs = .fin false 0 (-7) && bsCode = 0 then (0, 0)
    else
      match numFmt (fmtOfCode fmt), quotVal w bs sb with
      | .float f, q => f.ofVal .rne false true q
      | .int u n, .fin neg m e =>
        let (r, exact) := roundAt .rne neg m e 0
        let (t, clamped) := clampIf true u n (if neg then -(r : Int) else r)
        (narrow n t, (if clamped then flSAT else 0) ||| (if exact || clamped then 0 else flNX))
      | .int .., _ => (0, 0)

/-- Quantise a tile (R186) with percentile `p` in units of 0.01 %. -/
def quantTile (p : Nat) (s : TileVal) (d : Geo) : TileVal × FlagSet :=
  let rows := List.range d.rows
  let vals := rows.map (fun i => (List.range d.cols).map (fun j => s.value false i j (s.code i j)))
  let regions := if d.scale = 3 then d.bands else 1
  let regionOf (i : Nat) : Nat := if d.scale = 3 then i / 64 else 0
  let clips := (List.range regions).map (fun q =>
    clipExp p ((rows.filter (fun i => regionOf i == q)).flatMap (fun i => (vals.getD i []).map (·.1))))
  let sbExp (q : Nat) : Int := match clips.getD q none with
    | some e => if d.scale = 3 then max (-133) (min 127 (e - 4)) else 0
    | none => 0
  let maxF := maxFinite d.fmt
  let outRow (i : Nat) : List (Nat × FlagSet) × List Nat :=
    let sb : FVal := .fin false 1 (sbExp (regionOf i))
    let ws := (vals.getD i []).map (fun v => clipVal (clips.getD (regionOf i) none) v.1)
    let scales := (List.range d.nb).map (fun b =>
      let block := (((vals.getD i []).zip ws).drop (d.bs * b)).take d.bs
      let m := block.foldl (fun (m : FVal) vw => match vw.1.1, vw.2.1 with
        | .fin .., .fin _ k e => if cmpVal m (.fin false k e) == .lt then .fin false k e else m
        | _, _ => m) (.fin false 0 0)
      blockScale d.scale maxF m sb)
    let els := ws.zipIdx.map (fun wj =>
      let code := scales.getD (wj.2 / d.bs) 0
      let r := quantEl d.fmt code wj.1.1 (if d.scale = 1 then e8m0 code else e3m5 code) sb
      (r.1, r.2 ||| wj.1.2 ||| ((vals.getD i []).getD wj.2 (.fin false 0 0, 0)).2))
    (els, scales)
  let outs := rows.map outRow
  let bands := (List.range d.bands).map (fun q => (fBF16.round .rne false false false 1 (sbExp q)).1)
  (tileOf d (outs.map (fun o => o.1.map (·.1))) (outs.map (·.2)) bands [] (moveRows false s d.rows),
    orFlags (outs.map (fun o => orFlags (o.1.map (·.2)))))

end Sys2Proof.Machine
end

