-- ==== Sys2Proof/Machine/Tasks.lean ====
section
/-! DEFINITION. The matrix task queue (08_matrix R173–R180, R187–R192): issue of TMOV, MMA and QUANT, start and completion
of tasks, and MWAIT. -/

namespace Sys2Proof.Machine

/-! ## Records (Table 8-1, R175, R207) -/

/-- The tiles that a task reads, and the one it writes. -/
def Task.reads (t : Task) : List Nat :=
  match t.kind with
  | .mma => [t.ha, t.hb] ++ (if t.opt then [] else [t.hc])
  | _ => [t.hb]
def Task.writes (t : Task) : Nat :=
  match t.kind with
  | .mma => t.hc
  | _ => t.ha

/-- Must `t` wait for the earlier task `e` (R175)? -/
def Task.after (t e : Task) : Bool := (t.writes :: t.reads).contains e.writes || e.reads.contains t.writes

/-- Is the `i`-th live record Waiting? -/
def Core.taskWaiting (k : Core) (i : Nat) : Bool :=
  match k.tasks[i]? with
  | some t => (k.tasks.take i).any t.after
  | none => false

/-- Do two ranges of the range-lock table meet? -/
def Range.meets : Range → Range → Bool
  | .mem a b, .mem c d => decide (a < d) && decide (c < b)
  | .banks a b, .banks c d => decide (a < d) && decide (c < b)
  | _, _ => false

/-- Must an operation wait for an earlier one that conflicts with it (R207)? The table lists ranges in issue order. -/
def blockedBy (matrix : Bool) (token : BitVec 16) : List RangeLock → List RangeLock → Bool
  | _, [] => false
  | seen, l :: rest =>
    if l.matrix = matrix && l.token = token then
      seen.any (fun e => (e.dest || l.dest) && e.range.meets l.range) || blockedBy matrix token seen rest
    else blockedBy matrix token (seen ++ [l]) rest

def Core.opBlocked (k : Core) (matrix : Bool) (token : BitVec 16) : Bool := blockedBy matrix token [] k.locks

/-- The record as MTQ returns it (Table 8-1). -/
def Core.taskBits (k : Core) (i : Nat) : BitVec 64 :=
  match k.tasks.findIdx? (fun t => t.idx == i) with
  | none => 0
  | some p =>
    match k.tasks[p]? with
    | none => 0
    | some t =>
      let b (x : Bool) : Nat := if x then 1 else 0
      let state := match t.running with
        | some _ => 3
        | none => if k.taskWaiting p then 1 else 2
      let head : BitVec 64 := bputs 0 [(62, 2, match t.kind with | .mma => 0 | .tmov => 1 | .quant => 2), (60, 2, state),
        (58, 2, t.running.getD 0), (42, 16, t.token.toNat), (32, 10, t.tid), (24, 8, t.ha), (16, 8, t.hb)]
      match t.kind with
      | .quant => bputs head [(0, 14, t.qpct.toNat)]
      | .mma => bputs head [(8, 8, t.hc), (5, 1, b t.ftz), (4, 1, b t.nbv), (3, 1, b t.opt)]
      | .tmov => bputs head [(6, 2, t.rm.toNat), (5, 1, b t.ftz), (4, 1, b t.nbv), (3, 1, b t.opt), (2, 1, b t.os), (1, 1, b t.od)]

/-- The counter's next value: 1 to 65,535, never 0 (R173, R235). -/
def nextToken (t : BitVec 16) : BitVec 16 := if t = 0xFFFF then 1 else t + 1

/-! ## Checks at issue (R188) -/

/-- The header conditions of one operand, in ascending code. -/
def headerFaults (t : Tile) (hn : Nat) (source : Bool) : List (Cause × Nat) :=
  if !t.ok then [(.hdrCheck, hn)]
  else if !descOk (some t.lv) t.hdr t.wild || (source && t.wild.any) then [(.hdrUnsupported, hn)]
  else []

/-- One operand of a task: its field, handle, tile, whether it is a source, and the level it must have. -/
structure TaskOpd where
  field : Nat
  hn : Nat
  tile : Option Tile
  poison : Bool
  source : Bool
  level : Option Level

/-- The conditions of each operand alone; `order` gives them in the order of R108. -/
def opdFaults (order : List TaskOpd) : List (Cause × Nat) :=
  order.flatMap (fun o => match o.tile with
    | some t => headerFaults t o.hn o.source
    | none => [])

/-- HANDLE_FREE, TILE_LEVEL and POISON_USE, in field order (R45). -/
def fieldFaults (fields : List TaskOpd) : List (Cause × Nat) :=
  fields.flatMap (fun o =>
    (match o.tile with
      | none => [(Cause.handleFree, o.hn)]
      | some t => match o.level with
        | some l => if t.lv = l then [] else [(.tileLevel, o.hn)]
        | none => []) ++ (if o.poison then [(.poisonUse, o.field)] else []))

/-- The condition with the lowest code, the first among equals (R45). -/
def lowestFault (l : List (Cause × Nat)) : Option (Cause × Nat) :=
  l.foldl (fun best f => match best with
    | some b => if f.1.code.toNat < b.1.code.toNat then some f else some b
    | none => some f) none

/-- What a completed destination must be (R122, R124): its faults against the geometry that the task writes. -/
def destFaults (t : Tile) (hn : Nat) (g : Geo) (fmtToo : Bool) : List (Cause × Nat) :=
  let d := geoOf t.hdr
  let mismatch := (fmtToo && !t.xfmt && d.fmt ≠ g.fmt) || (!t.xshape && (d.rows ≠ g.rows || d.cols ≠ g.cols))
  (if mismatch then [(.hdrMismatch, hn)] else []) ++ (match t.fillFault g with
    | some c => [(c, hn)]
    | none => [])

/-- The faults of a pair of MMA headers, and of its accumulator. -/
def mmaFaults (a b : Tile) (hb : Nat) (c : Option Tile) (hc : Nat) (z : Bool) : List (Cause × Nat) :=
  let ga := geoOf a.hdr
  let gb := geoOf b.hdr
  let bad := (pairClass ga).isNone || pairClass ga ≠ pairClass gb || gb.sparse
  (if bad then [(.hdrUnsupported, hb)] else []) ++ (if ga.cols ≠ gb.cols then [(.hdrMismatch, hb)] else [])
    ++ (match c with
      | some t => if t.wild.any && !z then [] else destFaults t hc (mmaGeo ga gb) true
      | none => [])

/-- The geometry that a move writes (R123): the source's, exchanged when transposing. -/
def moveGeo (t : Bool) (s : Geo) : Geo := ⟨s.fmt, 0, false, if t then s.cols else s.rows, if t then s.rows else s.cols⟩

/-- The header of a move's destination once completed. -/
def moveDest (t : Bool) (s : Geo) (d : Tile) : Geo := geoOf (d.fill (moveGeo t s)).hdr

/-- The conditions of a move's two headers. HDR_MISMATCH of a destination whose shape differs from the source's names the
destination: which of the two is the first mismatching operand, the manual leaves open (DESIGN CHOICE, log 109). -/
def moveFaults (t quant : Bool) (s : Tile) (hs : Nat) (d : Tile) (hd : Nat) : List (Cause × Nat) :=
  let gs := geoOf s.hdr
  let gd := moveDest t gs d
  let refused := if quant then gs.sparse || gd.scale = 0 || gd.sparse else moveCase t gs gd = .refused
  (if refused then [(.hdrUnsupported, hs)] else []) ++ destFaults d hd (moveGeo t gs) false

/-! ## Issue (R173, R176, R177) -/

/-- The ranges that a task registers: level-0 ends of TMOV and QUANT. -/
def moveLocks (token : BitVec 16) (s d : Tile) : List RangeLock :=
  let r (t : Tile) (dest : Bool) : List RangeLock :=
    if t.lv = .sp then [⟨true, token, dest, .banks t.base (t.base + t.span)⟩] else []
  r s false ++ r d true

/-- The lowest free record. -/
def Core.freeRecord (k : Core) : Option Nat := (List.range 64).find? (fun i => k.tasks.all (fun t => t.idx ≠ i))

/-- Has the core stopped accepting tasks of its workgroup: a forced save has begun, or the workgroup's state is being sealed or
opened (R179)? -/
def Core.stopsTasks (k : Core) : Bool :=
  (match k.wg with
    | some w => match w.preempt with
      | .forced _ => true
      | _ => false
    | none => false)
  || k.ops.any (fun o => match o.kind with
    | .sealImg _ _ src _ _ _ => src ≠ 0
    | .openImg _ _ src _ _ _ => src ≠ 0
    | _ => false)

/-- A checked task takes a record: stalls while none is free, the core accepts none, the range-lock table is too full, or
stores of the thread are still queued (its reads return them, R210). `destH`, `dest`: the destination and what its entry becomes. -/
def issueTask (s : State) (h : Hart) (f : Fields) (mk : Nat → BitVec 16 → Task) (locks : BitVec 16 → List RangeLock)
    (destH : Nat) (dest : Tile → Tile) : Res :=
  let c := (h.core?).getD 0
  let k := s.core c
  match k.freeRecord, k.wg with
  | some idx, some wg =>
    let token := wg.taskTok
    let ls := locks token
    if k.stopsTasks || 64 < k.locks.length + ls.length || !(s.thread h).storeQ.isEmpty then .stall s
    else
      let s := s.modCore c (fun (k : Core) =>
        let k : Core := { k with tasks := k.tasks ++ [{ mk idx token with view := (s.thread h).mv.floor }], locks := k.locks ++ ls,
                                 wg := k.wg.map (fun w => { w with taskTok := nextToken w.taskTok }) }
        match k.tile? destH with
        | some t => k.setTile destH (some (dest t))
        | none => k)
      .ok (s.put32 h f.dest (token.setWidth 32) false)
  | _, _ => .stall s

/-- An operand of a task from a field. -/
def State.taskOpd (s : State) (h : Hart) (field : Nat) (o : Opd) (source : Bool) (level : Option Level) : TaskOpd :=
  let hn := (s.op32 h o).toNat
  { field, hn, tile := (s.coreOf h).tile? hn, poison := s.opPoison h o .w32, source, level }

def trapFault (f : Cause × Nat) : Res := .trap f.1 (BitVec.ofNat 64 f.2)

def laneMma (f : Fields) (z : Bool) (h : Hart) (s : State) : Res :=
  guardOps s h ([(f.a, .w32), (f.b, .w32), (f.c, .w32)] ++ f.dst .w32) <|
    let a := s.taskOpd h 0 f.a true (some .om)
    let b := s.taskOpd h 1 f.b true (some .om)
    let c := s.taskOpd h 2 f.c (!z) (some .acc)
    let pair := match a.tile, b.tile with
      | some ta, some tb => mmaFaults ta tb b.hn c.tile c.hn z
      | _, _ => []
    match lowestFault (opdFaults [a, b] ++ pair ++ opdFaults [c] ++ fieldFaults [a, b, c]), a.tile, b.tile with
    | some x, _, _ => trapFault x
    | none, some ta, some tb =>
      let fm := (s.thread h).fmode
      let nbv := match (s.coreOf h).wg with
        | some w => w.nbv
        | none => false
      issueTask s h f (fun idx token =>
        { idx, kind := .mma, running := none, token, tid := h.key, ha := a.hn, hb := b.hn, hc := c.hn, rm := 0,
          ftz := ftzOf fm, nbv, opt := z, os := false, od := false, qpct := 0 })
        (fun _ => []) c.hn (·.product (mmaGeo (geoOf ta.hdr) (geoOf tb.hdr)))
    | none, _, _ => .stall s

/-- A direction coded as FMODE.RM. -/
def dirCode : Dir → BitVec 2
  | .rne => 0 | .rtz => 1 | .rup => 2 | .rdn => 3

/-- TMOV and QUANT: `mk` completes the record. -/
def laneMove (f : Fields) (t quant : Bool) (mk : Thread → Bool → Task → Task) (h : Hart) (s : State) : Res :=
  guardOps s h ([(f.a, .w32), (f.b, .w32)] ++ f.dst .w32) <|
    let d := s.taskOpd h 0 f.a false none
    let src := s.taskOpd h 1 f.b true none
    let pair := match src.tile, d.tile with
      | some ts, some td => moveFaults t quant ts src.hn td d.hn
      | _, _ => []
    match lowestFault (opdFaults [src] ++ pair ++ opdFaults [d] ++ fieldFaults [d, src]), src.tile, d.tile with
    | some x, _, _ => trapFault x
    | none, some ts, some td =>
      let nbv := match (s.coreOf h).wg with
        | some w => w.nbv
        | none => false
      issueTask s h f (fun idx token => mk (s.thread h) nbv
        { idx, kind := .tmov, running := none, token, tid := h.key, ha := d.hn, hb := src.hn, hc := 0, rm := 0,
          ftz := false, nbv := false, opt := false, os := false, od := false, qpct := 0 })
        (fun token => moveLocks token ts td) d.hn (fun d => if d.wild.any then d.fill (moveGeo t (geoOf ts.hdr)) else d)
    | none, _, _ => .stall s

def laneTmov (f : Fields) (m : MovMod) : Hart → State → Res :=
  laneMove f (m.os ^^ m.od) false (fun th nbv t =>
    { t with rm := dirCode (rmDir m.rm th.fmode), ftz := ftzOf th.fmode, nbv, opt := m.sat, os := m.os, od := m.od })

def laneQuant (f : Fields) : Hart → State → Res :=
  laneMove f false true (fun th _ t => { t with kind := .quant, qpct := th.qpct })

/-! ## What a task computes -/

/-- The destination, its value, the flags and the header marks (NL 1, SAT 2, PROW 4) of a task, from its operands as
they stand. -/
def Core.taskResult (k : Core) (t : Task) : Option (Tile × TileVal × FlagSet × Nat) :=
  match t.kind with
  | .mma =>
    match k.tile? t.ha, k.tile? t.hb, k.tile? t.hc with
    | some a, some b, some c =>
      let r := mmaTile t.ftz t.nbv (k.tileVal a) (k.tileVal b) (if t.opt then none else some (k.tileVal c))
      some (c, r.1, r.2, if (List.range r.1.geo.rows).any r.1.rowP then 4 else 0)
    | _, _, _ => none
  | _ =>
    match k.tile? t.hb, k.tile? t.ha with
    | some s, some d =>
      let sv := k.tileVal s
      let gd := geoOf d.hdr
      let tr := t.os ^^ t.od
      let (v, fl) : TileVal × FlagSet :=
        if t.kind = .quant then quantTile t.qpct.toNat sv gd
        else match moveCase tr sv.geo gd with
          | .copy => (copyTile tr sv gd, 0)
          | .quantise => quantTile 10000 sv gd
          | _ => convertTile tr (dirOf t.rm.toNat) t.ftz t.opt sv gd
      let rows := (List.range gd.rows).any v.rowP
      some (d, v, fl, (if fl.getLsbD 5 then 1 else 0) + (if fl.getLsbD 6 then 2 else 0) + (if rows then 4 else 0))
    | _, _ => none

/-- The granules that a task writes in a level-0 destination, each with whether an error has touched its row (R180). -/
def Task.spWrites (t : Task) (d : Tile) (v : TileVal) : List (SpWrite × Bool) :=
  (v.spWrites d.base d.span).zip
    ((({ v with rowP := fun i => t.struck.contains i } : TileVal).spWrites d.base d.span).map (·.poison))

/-- A granule that a task writes: Full, or Failed where an error has touched it (R119, R180). -/
def Core.putTask (k : Core) (t : Task) (w : SpWrite × Bool) : Core :=
  let k := k.putSp w.1 t.view
  if w.2 then { k with spState := mset .empty k.spState w.1.g .failed } else k

/-- Write a task's result, but for the granules already written; mark the header; free the record and its ranges; raise
its flags in the issuing thread (R177, R178). The rows that an error has touched are poisoned or Failed, and the header gains
PROW (R180). -/
def Core.finishTask (k : Core) (t : Task) : Core :=
  let k := match k.taskResult t with
    | none => k
    | some (d, v, fl, marks) =>
      let ws := (t.spWrites d v).filter (fun (w : SpWrite × Bool) => !t.done.contains w.1.g)
      let k : Core := match d.lv with
        | .sp => ws.foldl (fun k w => k.putTask t w) k
        | _ => k.putUnit d { v with rowP := fun i => v.rowP i || t.struck.contains i }
      (k.markTile t.writes (if t.struck.isEmpty then marks else marks ||| 4)).modThread t.tid (fun (th : Thread) =>
        if th.run == Run.exited then th else { th with engFlags := th.engFlags ||| fl })
  { k with tasks := k.tasks.filter (fun x => x.token ≠ t.token)
           locks := k.locks.filter (fun l => !(l.matrix && l.token == t.token)) }

/-! ## MWAIT (R192) -/

/-- Merge the engine flag word. -/
def Thread.mergeFlags (th : Thread) : Thread := { th.raise th.engFlags with engFlags := 0 }

def Core.taskLive (k : Core) (token : BitVec 16) : Bool := k.tasks.any (fun t => t.token == token)
def Core.tasksOf (k : Core) (key : Nat) : Bool := k.tasks.any (fun t => t.tid == key)

def laneMwait (f : Fields) (h : Hart) (s : State) : Res :=
  guardOps s h [(f.b, .w32)] <| firstTrap [poisonTrap [(s.opPoison h f.b .w32, 1)]] <|
    let t : BitVec 16 := (s.op32 h f.b).setWidth 16
    if (s.coreOf h).taskLive t then .park s (.mwait t) else .ok (s.modThread h (fun th => th.mergeFlags.clearWindow))

def laneMwaitAll (h : Hart) (s : State) : Res :=
  if (s.coreOf h).tasksOf h.key then .park s .mwaitAll else .ok (s.modThread h (fun th => th.mergeFlags.clearWindow))

/-- Wake the MWAITs that a completion ends. -/
def State.wakeTasks (s : State) (c : Nat) : State :=
  (s.core c).threads.foldl (fun s p =>
    let h := hartOf c p.1
    match p.2.run with
    | .parked (.mwait t) => if (s.core c).taskLive t then s else s.wake h Thread.mergeFlags
    | .parked .mwaitAll => if (s.core c).tasksOf p.1 then s else s.wake h Thread.mergeFlags
    | _ => s) s

/-! ## The instructions and the events -/

def execMma (f : DF) (z : Bool) (s : State) : Host.Outcome State Fault Refusal :=
  issue 0 .compute (.mma f z) (laneMma f.fields z) s
def execTmov (f : DF) (m : MovMod) (s : State) : Host.Outcome State Fault Refusal :=
  issue 0 .compute (.tmov f m) (laneTmov f.fields m) s
def execQuant (f : DF) (s : State) : Host.Outcome State Fault Refusal := issue 0 .compute (.quant f) (laneQuant f.fields) s
def execMwait (f : DF) (s : State) : Host.Outcome State Fault Refusal := issue 0 .compute (.mwait f) (laneMwait f.fields) s
def execMwaitAll (f : DF) (s : State) : Host.Outcome State Fault Refusal := issue 0 .compute (.mwaitAll f) laneMwaitAll s

/-- The oldest record that an engine may take: Ready, and past the operations it conflicts with (R175, R207). -/
def Core.readyTask (k : Core) : Option Task :=
  (k.tasks.zipIdx.find? (fun p => p.1.running.isNone && !k.taskWaiting p.2 && !k.opBlocked true p.1.token)).map (·.1)

def Core.freeEngine (k : Core) : Option Nat := (List.range 4).find? (fun e => k.tasks.all (fun t => t.running ≠ some e))

/-- The lowest free engine takes the oldest Ready record. -/
def execTaskStart (core : Nat) (s : State) : Host.Outcome State Fault Refusal :=
  .next (match (s.core core).readyTask, (s.core core).freeEngine with
    | some t, some e => s.modCore core (fun k => { k with tasks := k.tasks.map (fun x =>
        if x.token = t.token then { x with running := some e } else x) })
    | _, _ => s)

/-- A running task of a core. -/
def Core.runningTask (k : Core) (token : BitVec 16) : Option Task :=
  k.tasks.find? (fun t => t.token == token && t.running.isSome)

def execTaskComplete (core : Nat) (token : BitVec 16) (s : State) : Host.Outcome State Fault Refusal :=
  .next (match (s.core core).runningTask token with
    | some t => ((s.modCore core (·.finishTask t)).wakeTasks core).wakeWf core
    | none => s)

end Sys2Proof.Machine
end

