-- ==== Sys2Proof/Machine/Engines.lean ====
section
/-! DEFINITION. The copy and gather engines (10_memory_instructions R235–R242): what a live operation reads and writes, and
how it ends. An operation is planned as a list of pieces, one for each granule of its destination; a fault that a piece
meets fails the operation, and which of the other pieces were written by then is a free choice (R237). -/

namespace Sys2Proof.Machine

/-! ## Addresses of an operation -/

/-- Resolve an address of an operation: through the context it was issued in, with the privilege of its thread. -/
def State.engPlace (s : State) (c : Nat) (op : EngOp) (need : AccNeed) (va : Nat) : PlaceRes × State :=
  let user := op.tid < 960
  if 0xFFE ≤ va / 2 ^ 48 % 4096 then (if user then .fault .pageProt else s.supWindow need va, s)
  else match s.translate (.core c) op.ctx.toNat user need va with
    | (.pa p k, s') => (.at (.dev p) k, s')
    | (.absent e, s') => (.absent e, s')
    | (.fault f, s') => (.fault f, s')

/-- How the read of one granule ends. -/
inductive GranRes where
  | ok (bytes : List Byte) (mark : Bool)
  | absent (pteAddr va : Nat)
  | fault (c : Cause)
  deriving DecidableEq, Repr

/-- Read granule `g` of an operation's address space, once the stores of its core that touch it are home (R195, R210). The read goes out as a
request of `n` bytes, or, with `n` = 0, in that of an earlier granule of its record (R226; log 91). -/
def State.engGranule (s : State) (c : Nat) (op : EngOp) (g n : Nat) : GranRes × State :=
  match s.engPlace c op .load (16 * g) with
  | (.at (.dev pa) key, s) =>
    let s := if n = 0 then s else (s.makeRoom (hartOf c op.tid)).sendRead c (pa, n)
    let (bs, mark, s) := (s.homeThrough (hartOf c op.tid) (granule pa)).homeGranule key (granule pa)
    (.ok bs mark, s)
  | (.at (.supScratch k) _, s) =>
    (.ok (peeks (s.core c).supScratch (k / 16 * 16) 16) (mget false (s.core c).supScratchPoison (k / 16)), s)
  | (.at _ _, s) => (.fault .pageNotPresent, s)
  | (.absent e, s) => (.absent e (16 * g), s)
  | (.fault f, s) => (.fault f, s)

/-- What was read, by granule number. -/
abbrev GranMap := List (Nat × GranRes)

/-- Read granules, with the number of each. -/
def State.engRead (s : State) (c : Nat) (op : EngOp) : List Nat → GranMap × State
  | [] => ([], s)
  | g :: gs =>
    let (r, s) := s.engGranule c op g 16
    let (rs, s) := s.engRead c op gs
    ((g, r) :: rs, s)

def GranMap.at (m : GranMap) (g : Nat) : GranRes := ((m.find? (fun p => p.1 == g)).map (·.2)).getD (.ok (zeros 16) false)

/-- A byte of what was read; 0 where nothing was. -/
def GranMap.byte (m : GranMap) (a : Nat) : Byte :=
  match m.at (a / 16) with
  | .ok bs _ => bs.getD (a % 16) 0
  | _ => 0

def GranMap.mark (m : GranMap) (g : Nat) : Bool :=
  match m.at g with
  | .ok _ p => p
  | _ => false

/-- The first fault among some granules. -/
def GranMap.fault (m : GranMap) (gs : List Nat) : Option Cause :=
  gs.findSome? (fun g => match m.at g with
    | .fault c => some c
    | _ => none)

/-- The first page not resident among some granules. -/
def GranMap.absent (m : GranMap) (gs : List Nat) : Option (Nat × Nat) :=
  gs.findSome? (fun g => match m.at g with
    | .absent e va => some (e, va)
    | _ => none)

/-- What keeps some granules from being read: a fault, or a page that is not resident. -/
structure Lack where
  fault : Option Cause := none
  absent : Option (Nat × Nat) := none
  deriving DecidableEq, Repr

def GranMap.lack (m : GranMap) (gs : List Nat) : Lack := ⟨m.fault gs, m.absent gs⟩

/-- Pages not resident among all that was read. -/
def GranMap.absents (m : GranMap) : List (Nat × Nat) :=
  m.filterMap (fun p => match p.2 with
    | .absent e va => some (e, va)
    | _ => none)

/-! ## Pieces and plans -/

/-- What one piece writes. -/
inductive EngDst where
  | mem (sp : Space) (key : Nat) (bytes : List (Nat × Byte × Byte)) (poison : Bool)
  | sp (w : SpWrite)
  | raw (w : SpWrite) (st : GState)
  deriving DecidableEq, Repr

structure Piece where
  dst : Option EngDst
  fault : Option Cause := none
  absent : Option (Nat × Nat) := none
  deriving DecidableEq, Repr

/-- All that an operation does: a failure that comes before any write, its pieces, the causes that fail it beside those
of its pieces, pages it still needs, what it does at its end, and whether a failure leaves unwritten scratchpad
granules Failed. -/
structure Plan where
  pre : Option Cause := none
  pieces : List Piece := []
  causes : List Cause := []
  absents : List (Nat × Nat) := []
  atEnd : State → State := id
  failEnd : State → State := id

/-- A piece of device memory: `bytes` of granule `g` of the address space, as (offset in the granule, value, mask). One whose
source is not there writes nothing. -/
def State.memPiece (s : State) (c : Nat) (op : EngOp) (g : Nat) (bytes : List (Nat × Byte × Byte)) (poison : Bool)
    (src : Lack) : Piece × State :=
  match src.fault, src.absent with
  | some f, _ => ({ dst := none, fault := some f }, s)
  | none, some a => ({ dst := none, absent := some a }, s)
  | none, none =>
    match s.engPlace c op .store (16 * g) with
    | (.at (.dev pa) key, s) => ({ dst := some (.mem .global key (bytes.map (fun b => (pa + b.1, b.2))) poison) }, s)
    | (.at (.supScratch k) _, s) => ({ dst := some (.mem .supScratch 0 (bytes.map (fun b => (k + b.1, b.2))) poison) }, s)
    | (.at _ _, s) => ({ dst := none, fault := some .pageNotPresent }, s)
    | (.absent e, s) => ({ dst := none, absent := some (e, 16 * g) }, s)
    | (.fault f, s) => ({ dst := none, fault := some f }, s)

/-- Pieces of device memory, in order. -/
def State.memPieces (s : State) (c : Nat) (op : EngOp) :
    List (Nat × List (Nat × Byte × Byte) × Bool × Lack) → List Piece × State
  | [] => ([], s)
  | (g, bs, p, f) :: rest =>
    let (x, s) := s.memPiece c op g bs p f
    let (xs, s) := s.memPieces c op rest
    (x :: xs, s)

/-- All sixteen bytes of a granule. -/
def wholeBytes (bs : List Byte) : List (Nat × Byte × Byte) := fullBytes 0 bs

/-! ## Byte copies (R239) -/

def State.planBytes (s : State) (c : Nat) (op : EngOp) (dst src : BitVec 64) (len : Nat) : Plan × State :=
  let d := dst.toNat
  let a := src.toNat
  let (m, s) := s.engRead c op (granules a len)
  let (ps, s) := s.memPieces c op ((granules d len).map (fun g =>
    let offs := (List.range 16).filter (fun o => d ≤ 16 * g + o && 16 * g + o < d + len)
    let from_ (o : Nat) : Nat := 16 * g + o - d + a
    let gs := dedup (offs.map (fun o => from_ o / 16))
    (g, offs.map (fun o => (o, m.byte (from_ o), (0xFF : Byte))), gs.any m.mark, m.lack gs)))
  ({ pieces := ps, absents := m.absents }, s)

/-! ## Tile copies (R240) -/

/-- The bytes of a memory tile that hold row `i`: (offset, length) within the tile. -/
def rowRegions (m : Header) (i : Nat) : List (Nat × Nat) :=
  let g := geoOf m
  (if Hd.order m then (List.range g.cols).map (fun j => (64 + j * Hd.pitch m + i * g.w / 8, (i * g.w % 8 + g.w + 7) / 8))
    else [(64 + i * Hd.pitch m, g.rb)])
    ++ (if g.scale = 0 then [] else [(Hd.soff m + i * g.nb, g.nb)])
    ++ (if g.scale = 3 then [(Hd.boff m + 2 * (i / 64), 2)] else [])
    ++ (if g.sparse then [(Hd.moff m + i * g.mb, g.mb)] else [])

/-- The tile value that bytes of memory hold (R104). -/
def memTile (m : Header) (byte : Nat → Byte) (rowP : Nat → Bool) : TileVal :=
  let g := geoOf m
  { geo := g
    code := fun i j =>
      if Hd.order m then codeAt (fun o => byte (64 + j * Hd.pitch m + o)) g.w i
      else codeAt (fun o => byte (64 + i * Hd.pitch m + o)) g.w j
    scale := fun i b => (byte (Hd.soff m + i * g.nb + b)).toNat
    band := fun q => (byte (Hd.boff m + 2 * q)).toNat + 256 * (byte (Hd.boff m + 2 * q + 1)).toNat
    metaB := fun i k => (byte (Hd.moff m + i * g.mb + k)).toNat
    rowP }

/-- Byte `o` of a memory tile beyond its header: zero where it holds nothing (R240). -/
def tileByte (m : Header) (v : TileVal) (o : Nat) : Byte :=
  let g := v.geo
  let lines := if Hd.order m then g.cols else g.rows
  let len := if Hd.order m then rowBytes g.w g.rows else g.rb
  let line := (o - 64) / Hd.pitch m
  let k := (o - 64) % Hd.pitch m
  let inRegion (off n : Nat) : Bool := off ≤ o && o < off + n
  if g.scale ≠ 0 && inRegion (Hd.soff m) (g.rows * g.nb) then
    BitVec.ofNat 8 (v.scale ((o - Hd.soff m) / g.nb) ((o - Hd.soff m) % g.nb))
  else if g.scale = 3 && inRegion (Hd.boff m) (2 * g.bands) then
    BitVec.ofNat 8 (v.band ((o - Hd.boff m) / 2) / 256 ^ ((o - Hd.boff m) % 2))
  else if g.sparse && inRegion (Hd.moff m) (g.rows * g.mb) then
    BitVec.ofNat 8 (v.metaB ((o - Hd.moff m) / g.mb) ((o - Hd.moff m) % g.mb))
  else if 64 ≤ o && line < lines && k < len then
    (if Hd.order m then packByte (fun i => v.code i line) g.w g.rows k else v.rowByte line k)
  else 0

/-- The rows that bytes of granule `q` of a memory tile belong to: does a poisoned one? -/
def tileGranuleP (m : Header) (v : TileVal) (q : Nat) : Bool :=
  (List.range v.geo.rows).any (fun i => v.rowP i && (rowRegions m i).any (overlap (16 * q, 16)))

/-- Memory tile to scratchpad. -/
def State.planTileIn (s : State) (c : Nat) (op : EngOp) (hn : Nat) (src : BitVec 64) (m : Header) : Plan × State :=
  match (s.core c).tile? hn with
  | none => ({}, s)
  | some t =>
    let a := src.toNat
    let (gm, s) := s.engRead c op (granules a (memSpan m))
    let rowGs (i : Nat) : List Nat := (rowRegions m i).flatMap (fun r => granules (a + r.1) r.2)
    let rows := List.range (Hd.rows m)
    let marks := rows.map (fun i => (rowGs i).any gm.mark)
    let lacks := rows.map (fun i => gm.lack (rowGs i))
    let v := memTile m (fun o => gm.byte (a + o)) (fun i => marks.getD i false)
    let bad : TileVal := { v with rowP := fun i => (lacks.getD i {}).fault.isSome }
    let gone : TileVal := { v with rowP := fun i => (lacks.getD i {}).absent.isSome }
    let writes := (v.spWrites t.base t.span).zip ((bad.spWrites t.base t.span).zip (gone.spWrites t.base t.span))
    ({ pieces := writes.map (fun p =>
        { dst := some (.sp p.1)
          fault := if p.2.1.poison then lacks.findSome? (·.fault) else none
          absent := if p.2.2.poison then lacks.findSome? (·.absent) else none })
       causes := (gm.fault (granules a 64)).toList
       absents := gm.absents
       atEnd := fun s => s.modCore c (·.markTile hn (Hd.marks m)) }, s)

/-- Scratchpad to memory tile. Bytes 3, 62 and 63 of the header are written, each whole, from the header as it was read at issue (log
122); bytes of the header otherwise stay. What of the range, to the last byte of its furthest region, holds nothing is written as zero;
beyond that byte, in the same granule too, nothing is written (R240, log 36). -/
def State.planTileOut (s : State) (c : Nat) (op : EngOp) (dst : BitVec 64) (hn : Nat) (m : Header) : Plan × State :=
  match (s.core c).tile? hn with
  | none => ({}, s)
  | some t =>
    let v := (s.core c).tileVal t
    let new := Hd.mark m (Hd.marks t.hdr)
    let hb (o : Nat) : Byte := new.extractLsb' (8 * o) 8
    let (ps, s) := s.memPieces c op ((List.range (ceilDiv (memSpan m) 16)).filterMap (fun q =>
      let g := dst.toNat / 16 + q
      if q = 0 then some (g, [(3, hb 3, 0xFF)], false, {})
      else if q < 3 then none
      else if q = 3 then some (g, [(14, hb 62, 0xFF), (15, hb 63, 0xFF)], false, {})
      else some (g, ((List.range 16).filter (fun o => 16 * q + o < memSpan m)).map (fun o => (o, tileByte m v (16 * q + o), 0xFF)),
        tileGranuleP m v q, {})))
    ({ pieces := ps }, s)

/-! ## Gathers (R241, R242) -/

/-- The granules of the records, each with where it goes: (record, source granule, granule of the destination). -/
def gatherGranules (grain count : Nat) : List (Nat × Nat) :=
  (List.range count).flatMap (fun k => (List.range (grain / 16)).map (fun j => (k, j)))

/-- What each granule of a gather reads: its bytes and mark, or the cause that fails it. -/
def State.gatherRead (s : State) (c : Nat) (op : EngOp) (list base : BitVec 64) (grain : Nat) (gm : GranMap) :
    List (Nat × Nat) → List (GranRes × Nat × Nat) × State
  | [] => ([], s)
  | (k, j) :: rest =>
    let a := list.toNat + 16 + 4 * k
    let x := bytesNat ((List.range 4).map (fun i => gm.byte (a + i)))
    let r := (base.toNat + x * grain) % 2 ^ 64
    let (res, s) : GranRes × State :=
      match gm.at (a / 16) with
      | .ok _ p =>
        if p then (.fault .poisonUse, s)
        else if 2 ^ 60 ≤ r then (.fault .addrRange, s)
        else s.engGranule c op (r / 16 + j) (if j = 0 then grain else 0)
      | other => (other, s)
    let (more, s) := s.gatherRead c op list base grain gm rest
    ((res, k, j) :: more, s)

def gatherSrc : GranRes → Lack × List Byte × Bool
  | .ok bs p => ({}, bs, p)
  | .absent e va => ({ absent := some (e, va) }, [], false)
  | .fault c => ({ fault := some c }, [], false)

def State.planGatherMem (s : State) (c : Nat) (op : EngOp) (list base : BitVec 64) (grain count : Nat) (dst : BitVec 64) :
    Plan × State :=
  let (gm, s) := s.engRead c op (granules (list.toNat + 16) (4 * count))
  let (rs, s) := s.gatherRead c op list base grain gm (gatherGranules grain count)
  let src := rs.map (fun r => (gatherSrc r.1, r.2))
  let (ps, s) := s.memPieces c op (src.map (fun r =>
    ((dst.toNat + r.2.1 * grain) / 16 + r.2.2, wholeBytes r.1.2.1, r.1.2.2, r.1.1)))
  ({ pieces := ps, absents := gm.absents }, s)

def State.planGatherTile (s : State) (c : Nat) (op : EngOp) (list base : BitVec 64) (grain count hn : Nat) : Plan × State :=
  match (s.core c).tile? hn with
  | none => ({}, s)
  | some t =>
    let g := geoOf t.hdr
    let (gm, s) := s.engRead c op (granules (list.toNat + 16) (4 * count))
    let (rs, s) := s.gatherRead c op list base grain gm (gatherGranules grain count)
    let src := rs.map (fun r => (gatherSrc r.1, r.2))
    ({ pieces := src.map (fun r =>
        let o := r.2.1 * grain + 16 * r.2.2
        { dst := some (.sp ⟨spOffset g t.base t.span (o / g.rb) (o % g.rb) / 16, r.1.2.1, r.1.2.2⟩)
          fault := r.1.1.fault
          absent := r.1.1.absent })
       absents := gm.absents }, s)

/-! ## How an operation ends -/

/-- Write what a piece writes. Memory enters the core order (R210). -/
def State.applyPiece (s : State) (c : Nat) (op : EngOp) (d : EngDst) : State :=
  match d with
  | .mem .supScratch _ bytes poison => s.modCore c (·.putSup bytes poison op.view)
  | .mem sp key bytes poison => s.joinOrder (hartOf c op.tid)
      { tid := 2000 + op.tid, space := sp, bytes, key, poison, fill := [], rel := none, ord := op.token.toNat, view := op.view }
  | .sp w => s.modCore c (fun (k : Core) => if op.done.contains w.g then k else k.putSp w op.view)
  | .raw w st => s.modCore c (fun (k : Core) =>
      let k := k.putSp w op.view
      { k with spState := mset .empty k.spState w.g st })

/-- Record a failure in the issuing thread's failure word (Table 10-5); an exited thread has none (R237). -/
def Core.recordFailure (k : Core) (tid : Nat) (token : BitVec 16) (code : BitVec 8) : Core :=
  k.modThread tid (fun (th : Thread) =>
    if th.run == Run.exited || th.fail then th else { th with fail := true, failToken := token, failCode := code })

/-- The operation is gone, with its ranges; its floor stays for a thread that observes its completion. -/
def Core.endOp (k : Core) (token : BitVec 16) : Core :=
  { k with ops := k.ops.filter (fun o => o.token ≠ token)
           engView := match k.ops.find? (fun o => o.token == token) with
             | some o => mset 0 k.engView token.toNat o.view
             | none => k.engView
           locks := k.locks.filter (fun l => !(!l.matrix && l.token == token)) }

def State.settleOps (s : State) (c : Nat) : State := (s.wakeOps c).wakeWf c

/-- The scratchpad granules of pieces. -/
def spGranuleOf : EngDst → Option Nat
  | .sp w => some w.g
  | _ => none

/-- Everything went well. -/
def State.completeOp (s : State) (c : Nat) (op : EngOp) (p : Plan) : State :=
  let s := (p.pieces.filterMap (·.dst)).foldl (fun s d => s.applyPiece c op d) s
  ((p.atEnd s).modCore c (·.endOp op.token)).settleOps c

/-- Write a free subset of the pieces that met no fault. -/
def State.applySome (s : State) (c : Nat) (op : EngOp) : List Piece → State
  | [] => s
  | p :: ps =>
    match p.dst with
    | none => s.applySome c op ps
    | some d =>
      let (b, s) := if p.fault.isNone && p.absent.isNone then s.freeBit else (false, s)
      let s := if b then s.applyPiece c op d
        else match spGranuleOf d with
          | some g => if op.done.contains g then s else s.modCore c (fun k => { k with spState := mset .empty k.spState g .failed })
          | none => s
      s.applySome c op ps

/-- One cause of several, freely. -/
def State.pickCause (s : State) (cs : List Cause) : Cause × State :=
  match cs with
  | [] => (.pageNotPresent, s)
  | c :: rest =>
    if rest.all (· == c) then (c, s)
    else
      let (v, s) := s.freePair
      ((c :: rest).getD (v.toNat % (c :: rest).length) c, s)

/-- A CPY.open of a workgroup that is being restored has failed: the restore ends, and its context is killed with the code of the
failure (R413); the VALUE of its record is free (log 102). -/
def State.restoreLost (s : State) (c : Nat) (cause : Cause) : State :=
  match (s.core c).wg with
  | some w =>
    if w.restoring then
      let (v, s) := s.freePair
      s.killContext w.ctx.toNat cause.code v
    else s
  | none => s

/-- Is an operation a CPY.open? -/
def EngKind.opens : EngKind → Bool
  | .openImg .. => true
  | _ => false

/-- A failed operation (R236, R237, R413). -/
def State.failOp (s : State) (c : Nat) (op : EngOp) (p : Plan) (causes : List Cause) : State :=
  let (cause, s) := s.pickCause causes
  let s := match p.pre with
    | some _ => s
    | none => s.applySome c op p.pieces
  let s := (((p.failEnd s).modCore c (·.endOp op.token)).modCore c (·.recordFailure op.tid op.token cause.code)).settleOps c
  if op.kind.opens then s.restoreLost c cause else s

/-- The causes that fail a plan. -/
def Plan.faults (p : Plan) : List Cause :=
  match p.pre with
  | some c => [c]
  | none => p.causes ++ p.pieces.filterMap (·.fault)

/-- The pages that a plan still waits for. -/
def Plan.missing (p : Plan) : List (Nat × Nat) := p.absents ++ p.pieces.filterMap (·.absent)

/-- Migrations for the pages that an operation needs: it starts each, or joins the one in progress (R236, R256). -/
def State.startPages (s : State) (c : Nat) (op : EngOp) (ps : List (Nat × Nat)) : State :=
  ps.foldl (fun s p => s.startPromotion op.ctx.toNat (BitVec.ofNat 64 p.2) p.1 (some (.engine c op.token))) s

end Sys2Proof.Machine
end

