-- ==== Sys2Proof/Machine/Images.lean ====
section
/-! DEFINITION. Sealed images (23_context_images R407–R412): the workgroup record, the engine-memory image, and what
CPY.seal and CPY.open do. -/

namespace Sys2Proof.Machine

/-! ## The workgroup record (Table 23-4) -/

def recordBytes (w : Workgroup) : List Byte :=
  (List.range 32).flatMap (fun b =>
    if isBlockBar b then zeros 8
    else
      let x : Barrier := mget {} w.bars b
      natBytes 2 x.phase.toNat ++ natBytes 2 (x.count.getD 0) ++ natBytes 2 x.arrivals ++ zeros 2)
  ++ (List.range 256).flatMap (fun hn =>
    match (w.tiles.find? (fun p => p.1 == hn)).map (·.2) with
    | none => zeros 80
    | some t => natBytes 64 t.hdr.toNat ++ natBytes 4 t.ctl.toNat ++ natBytes 4 1 ++ zeros 8)
  ++ natBytes 4 w.taskTok.toNat ++ natBytes 4 w.copyTok.toNat ++ zeros 8

/-- The tile of a record entry of 80 bytes; `bad` where the record says its header was damaged. -/
def tileOfRecord (e : List Byte) (bad : Bool) : Option Tile :=
  let ctl := fieldAt e 64 4
  if fieldAt e 68 4 = 0 then none
  else some
    { hdr := BitVec.ofNat 512 (fieldAt e 0 64)
      lv := match ctl / 2 ^ 30 with
        | 0 => .sp
        | 1 => .om
        | _ => .acc
      xshape := ctl.testBit 29, xsparse := ctl.testBit 28, xscale := ctl.testBit 27, xfmt := ctl.testBit 26
      span := ctl / 256 % 128, base := ctl % 256, bad }

/-- The workgroup after a record has been restored; `marked q` says that granule `q` of the record carries a mark. -/
def Workgroup.ofRecord (w : Workgroup) (bs : List Byte) (marked : Nat → Bool) : Workgroup :=
  { w with
    bars := ((List.range 32).filter (fun b => !isBlockBar b)).foldl (fun m b =>
      let cnt := fieldAt bs (8 * b + 2) 2
      mset {} m b { phase := BitVec.ofNat 16 (fieldAt bs (8 * b) 2), count := if cnt = 0 then none else some cnt,
                    arrivals := fieldAt bs (8 * b + 4) 2 }) w.bars
    tiles := (List.range 256).foldl (fun m hn =>
      let off := 256 + 80 * hn
      match tileOfRecord ((bs.drop off).take 80) ((List.range 5).any (fun i => marked (off / 16 + i))) with
      | some t => mins m hn t
      | none => m) []
    taskTok := BitVec.ofNat 16 (fieldAt bs 20736 4)
    copyTok := BitVec.ofNat 16 (fieldAt bs 20740 4) }

/-- Cleared workgroup state (R412, failure 3 with SRC 10). -/
def Workgroup.cleared (w : Workgroup) : Workgroup := { w with bars := [], tiles := [], taskTok := 1, copyTok := 1 }

/-! ## Engine memory (R409, SRC 11) -/

def sideStart : Nat := 1048576
def accStart : Nat := 2129920
def engMemSize : Nat := 2392064

/-- The place of side-store octet `j`: 4,096 octets of block scales, 4,096 of metadata and 256 of band scales a slot. -/
def sidePlace (j : Nat) : Nat :=
  let slot := j / 8448
  let o := j % 8448
  if o < 4096 then sideScale slot o else if o < 8192 then sideMeta slot (o - 4096) else sideBand slot (o - 8192)

/-- Octet `i` of the image: the layout of the side stores is the device's own, so their octets are masked by free ones
(log 7). -/
def Core.engMemByte (k : Core) (i : Nat) : Byte :=
  if i < sideStart then peek k.om i
  else if i < accStart then peek k.omSide (sidePlace (i - sideStart)) ^^^ Config.sideByte (i - sideStart)
  else peek k.acc (i - accStart)

/-- The row-poison key of granule `q` of the image, outside the side stores. -/
def engMemRow (q : Nat) : Option Nat :=
  if 16 * q < sideStart then some (64 * (q / 512) + q % 512 / 8)
  else if 16 * q < accStart then none
  else
    let r := q - accStart / 16
    some (64 * (128 + r / 1024) + r % 1024 / 16)

/-- A core's engine memory from an image; a mark in a side store is an uncorrectable error there (R412, log 20). -/
def Core.ofEngMem (k : Core) (byte : Nat → Byte) (marked : Nat → Bool) : Core :=
  let om := (List.range sideStart).foldl (fun m i => poke m i (byte i)) []
  let side := (List.range (accStart - sideStart)).foldl (fun m j =>
    poke m (sidePlace j) (byte (sideStart + j) ^^^ Config.sideByte j)) []
  let acc := (List.range (engMemSize - accStart)).foldl (fun m i => poke m i (byte (accStart + i))) []
  let rows := (List.range (engMemSize / 16)).foldl (fun m q =>
    if !marked q then m
    else match engMemRow q with
      | some r => mset false m r true
      | none =>
        let slot := (16 * q - sideStart) / 8448
        (List.range 64).foldl (fun m r => mset false m (64 * slot + r) true) m) []
  let bad := (List.range ((accStart - sideStart) / 16)).foldl (fun m q =>
    if marked (sideStart / 16 + q) then mset false m q true else m) []
  { k with om, omSide := side, acc, rowPoison := rows, sideBad := bad }

/-- Every slot and accumulator row zero and poisoned (R412). -/
def Core.engMemLost (k : Core) : Core :=
  { k with om := [], omSide := [], acc := [], sideBad := [], rowPoison := (List.range (144 * 64)).map (fun r => (r, true)) }

/-! ## Images (Table 23-3) -/

/-- LEN of an image of `dlen` data bytes. -/
def imageLen (dlen : Nat) : Nat := dlen + 16 * ceilDiv dlen 256

structure ImageHdr where
  sealN : BitVec 32
  bootId : BitVec 64
  ctr : BitVec 64
  len : Nat
  qid : BitVec 16
  ctx : BitVec 16
  pos : Nat
  part : BitVec 8
  src : Nat

/-- Bytes 0–47. -/
def ImageHdr.bytes (i : ImageHdr) : List Byte :=
  natBytes 48 (bputs (0 : BitVec 384) [(352, 32, i.sealN.toNat), (288, 64, i.bootId.toNat), (224, 64, i.ctr.toNat), (192, 32, i.len),
    (176, 16, i.qid.toNat), (160, 16, i.ctx.toNat), (152, 8, i.pos), (144, 8, i.part.toNat), (136, 8, i.src), (32, 16, 1),
    (0, 32, 0x474D4958)]).toNat

def wgPos (k : Core) : Option Nat := k.wg.map (fun w => w.cy * 16 + w.cx)

/-- The 32 octets of a GCM context key. -/
def State.gcmKey (s : State) (slot : BitVec 12) : List Byte := (s.keySlot slot.toNat).data.take 32

/-- Poison and granule state in a mark byte. -/
def markByte (poison : Bool) (st : GState) : Byte :=
  (if poison then 4 else 0) ||| (match st with | .empty => 0 | .full => 1 | .failed => 2)

/-- Data to seal: bytes, mark bytes, what keeps each granule from being read, and pages that are missing. -/
structure SealSrc where
  data : List Byte
  marks : List Byte
  lack : Nat → Lack := fun _ => {}
  absents : List (Nat × Nat) := []

def State.sealSource (s : State) (c : Nat) (op : EngOp) (side : BitVec 64) (src dlen : Nat) : SealSrc × State :=
  let k := s.core c
  let n := dlen / 16
  if src = 0 then
    let a := side.toNat
    let (gm, s) := s.engRead c op (granules a dlen)
    (⟨(List.range dlen).map (fun i => gm.byte (a + i)), (List.range n).map (fun q => markByte (gm.mark (a / 16 + q)) .empty),
      fun q => gm.lack [a / 16 + q], gm.absents⟩, s)
  else if src = 1 then
    let a := side.toNat % 2 ^ 32
    (⟨peeks k.sp a dlen,
      (List.range n).map (fun q => markByte (mget false k.spPoison (a / 16 + q)) (mget .empty k.spState (a / 16 + q))),
      fun _ => {}, []⟩, s)
  else if src = 2 then
    let damaged (q : Nat) : Bool :=
      16 ≤ q && q < 1296 && (q - 16) % 5 < 4 && k.tiles.any (fun p => p.1 == (q - 16) / 5 && p.2.bad)
    (⟨(k.wg.map recordBytes).getD (zeros dlen), (List.range n).map (fun q => markByte (damaged q) .empty), fun _ => {}, []⟩, s)
  else
    (⟨(List.range dlen).map k.engMemByte,
      (List.range n).map (fun q => markByte (match engMemRow q with
        | some r => mget false k.rowPoison r
        | none => mget false k.sideBad (q - sideStart / 16)) .empty), fun _ => {}, []⟩, s)

/-- A piece with other bytes in the granule that it writes. -/
def Piece.withBytes (p : Piece) (bs : List Byte) : Piece :=
  match p.dst with
  | some (.mem sp key old poison) =>
    { p with dst := some (.mem sp key ((old.zip bs).map (fun x => (x.1.1, x.2, x.1.2.2))) poison) }
  | _ => p

/-- CPY.seal (R411), under the seal number that it took at issue. Where anything keeps a granule from being read or written, the tag
is an arbitrary one. -/
def State.planSeal (s : State) (c : Nat) (op : EngOp) (image side : BitVec 64) (src : Nat) (qid : BitVec 16) (part : BitVec 8)
    (dlen : Nat) : Plan × State :=
  let (sd, s) := s.sealSource c op side src dlen
  let payload := sd.data ++ padTo16 sd.marks
  let hdr : ImageHdr := { sealN := op.sealN, bootId := s.keys.bootId, ctr := mget 0 s.keys.saveCtr qid.toNat, len := imageLen dlen, qid,
                          ctx := op.ctx, pos := (wgPos (s.core c)).getD 0, part, src }
  let aad := hdr.bytes
  let enc := gcmEncrypt (s.gcmKey op.ksel) (aad.drop 36) aad payload
  let ok := aad ++ enc.2 ++ enc.1
  let g := dlen / 16
  let marksOf (i : Nat) : List Lack := (((List.range 256).map (· + 256 * i)).filter (· < g)).map sd.lack
  let lack (i : Nat) : Lack :=
    if i < 4 then {}
    else if i < 4 + g then sd.lack (i - 4)
    else ⟨(marksOf (i - 4 - g)).findSome? (·.fault), (marksOf (i - 4 - g)).findSome? (·.absent)⟩
  let (junk, s) := s.freeBytes16
  let (ps, s) := s.memPieces c op ((List.range (ok.length / 16)).map (fun i =>
    (image.toNat / 16 + i, wholeBytes ((ok.drop (16 * i)).take 16), false, lack i)))
  let whole := ps.all (fun p => p.fault.isNone && p.absent.isNone)
  ({ pieces := if whole then ps else ps.zipIdx.map (fun p => if p.2 = 3 then p.1.withBytes junk else p.1)
     absents := sd.absents }, s)

/-- The first check of a header that fails (R412, 1 and 2). -/
def State.imageCheck (s : State) (c : Nat) (h : List Byte) (src : Nat) (qid : BitVec 16) (part : BitVec 8) (dlen : Nat) :
    Option Cause :=
  let f (lo n : Nat) : Nat := fieldAt h lo n
  if f 36 8 ≠ s.keys.bootId.toNat || f 28 8 ≠ (mget 0 s.keys.saveCtr qid.toNat : BitVec 64).toNat then some .imgStale
  else if f 0 4 ≠ 0x474D4958 || f 4 2 ≠ 1 || f 6 11 ≠ 0 || f 17 1 ≠ src || f 18 1 ≠ part.toNat
    || some (f 19 1) ≠ wgPos (s.core c) || f 20 2 ≠ (s.core c).ctxid.toNat || f 22 2 ≠ qid.toNat || f 24 4 ≠ imageLen dlen then some .imgTag
  else none

/-- The state of a granule in a mark byte. -/
def markState (b : Byte) : GState :=
  match b.toNat % 4 with
  | 0 => .empty
  | 1 => .full
  | _ => .failed

/-- The pieces of an opened image, each data granule with its mark byte; only SRC 00 and 01 have any. -/
def State.openPieces (s : State) (c : Nat) (op : EngOp) (side : BitVec 64) (src : Nat) (gs : List (List Byte × Byte)) :
    List Piece × State :=
  if src = 0 then
    s.memPieces c op (gs.zipIdx.map (fun p => (side.toNat / 16 + p.2, wholeBytes p.1.1, p.1.2.getLsbD 2, {})))
  else if src = 1 then
    (gs.zipIdx.map (fun p =>
      { dst := some (.raw ⟨side.toNat % 2 ^ 32 / 16 + p.2, p.1.1, p.1.2.getLsbD 2⟩ (markState p.1.2)) }), s)
  else ([], s)

/-- The workgroup record restored; a marked granule of a barrier or a counter is an error in core control state (R391). -/
def State.restoreRecord (s : State) (c : Nat) (data marks : List Byte) : State :=
  let marked (q : Nat) : Bool := (marks.getD q 0).getLsbD 2
  let s := s.modCore c (fun k => { k with wg := k.wg.map (fun w => w.ofRecord data marked) })
  if (List.range 16).any marked then s.stopCore c 4 else if marked 1296 then s.stopCore c 3 else s

/-- `n` granules of scratchpad become Failed. -/
def Core.failRange (k : Core) (g n : Nat) : Core :=
  { k with spState := (List.range n).foldl (fun m q => mset GState.empty m (g + q) GState.failed) k.spState }

/-- What CPY.open does where something keeps its image from being read: nothing is written, and once it fails the granules of a
scratchpad destination become Failed (R119, R237). -/
def readFailed (c : Nat) (side : BitVec 64) (src n : Nat) (f : Option Cause) (absents : List (Nat × Nat)) : Plan :=
  { pre := f, absents
    failEnd := fun s => if src = 1 then s.modCore c (·.failRange (side.toNat % 2 ^ 32 / 16) n) else s }

/-- CPY.open (R412). -/
def State.planOpen (s : State) (c : Nat) (op : EngOp) (side image : BitVec 64) (src : Nat) (qid : BitVec 16) (part : BitVec 8)
    (dlen : Nat) : Plan × State :=
  let a := image.toNat
  let (hm, s) := s.engRead c op (granules a 64)
  if !hm.absents.isEmpty then (readFailed c side src (dlen / 16) none hm.absents, s)
  else match hm.fault (granules a 64) with
    | some f => (readFailed c side src (dlen / 16) (some f) [], s)
    | none =>
      let h := (List.range 64).map (fun i => hm.byte (a + i))
      match s.imageCheck c h src qid part dlen with
      | some f => ({ pre := some f }, s)
      | none =>
        let len := imageLen dlen
        let gs := granules (a + 64) len
        let (cm, s) := s.engRead c op gs
        if !cm.absents.isEmpty then (readFailed c side src (dlen / 16) none cm.absents, s)
        else match cm.fault gs with
          | some f => (readFailed c side src (dlen / 16) (some f) [], s)
          | none =>
            let aad := h.take 48
            let ct := (List.range len).map (fun i => cm.byte (a + 64 + i))
            let n := dlen / 16
            match gcmDecrypt (s.gcmKey op.ksel) (aad.drop 36) aad ct (h.drop 48) with
            | none =>
              let (ps, s) := s.openPieces c op side src (List.replicate n (zeros 16, (4 : Byte)))
              let lost (s : State) : State :=
                if src = 1 then s.modCore c (·.failRange (side.toNat % 2 ^ 32 / 16) n)
                else if src = 2 then s.modCore c (fun k => { k with wg := k.wg.map Workgroup.cleared })
                else if src = 3 then s.modCore c Core.engMemLost
                else s
              ({ pieces := ps, causes := [.imgTag], failEnd := lost }, s)
            | some pt =>
              let data := pt.take dlen
              let marks := pt.drop dlen
              let (ps, s) := s.openPieces c op side src
                ((List.range n).map (fun q => ((data.drop (16 * q)).take 16, marks.getD q 0)))
              let finish (s : State) : State :=
                if src = 2 then s.restoreRecord c data marks
                else if src = 3 then s.modCore c (·.ofEngMem (fun i => data.getD i 0) (fun q => (marks.getD q 0).getLsbD 2))
                else s
              ({ pieces := ps, atEnd := finish }, s)

/-! ## The plan of any operation -/

def State.plan (s : State) (c : Nat) (op : EngOp) : Plan × State :=
  match op.kind with
  | .bytes dst src len => s.planBytes c op dst src len
  | .tileIn hn src hdr => s.planTileIn c op hn src hdr
  | .tileOut dst hn hdr => s.planTileOut c op dst hn hdr
  | .gatherMem list base grain count dst => s.planGatherMem c op list base grain count dst
  | .gatherTile list base grain count hn => s.planGatherTile c op list base grain count hn
  | .sealImg image side src qid part dlen => s.planSeal c op image side src qid part dlen
  | .openImg side image src qid part dlen => s.planOpen c op side image src qid part dlen

/-- The records of a gather: the granules that its list names, none where the list cannot be read (R241). -/
def State.gathered (s : State) (c : Nat) (op : EngOp) (list base : BitVec 64) (grain count : Nat) : List (Nat × Nat) :=
  let (gm, _) := s.engRead c op (granules (list.toNat + 16) (4 * count))
  (List.range count).map (fun k =>
    let x := bytesNat ((List.range 4).map (fun i => gm.byte (list.toNat + 16 + 4 * k + i)))
    ((base.toNat + x * grain) % 2 ^ 64, grain))

/-- The memory that an operation reads, and what it writes, by address and length: registered ranges, gathered granules and supervisor
scratch alike (R207). -/
def State.opReads (s : State) (c : Nat) (op : EngOp) : List (Nat × Nat) :=
  match op.kind with
  | .bytes _ src len => [(src.toNat, len)]
  | .tileIn _ src hdr => [(src.toNat, memSpan hdr)]
  | .tileOut .. => []
  | .gatherMem list base grain count _ => (list.toNat, 16 + 4 * count) :: s.gathered c op list base grain count
  | .gatherTile list base grain count _ => (list.toNat, 16 + 4 * count) :: s.gathered c op list base grain count
  | .sealImg _ side src _ _ dlen => if src = 0 then [(side.toNat, dlen)] else []
  | .openImg _ image _ _ _ dlen => [(image.toNat, 64 + imageLen dlen)]
def EngKind.writes : EngKind → List (Nat × Nat)
  | .bytes dst _ len => [(dst.toNat, len)]
  | .tileIn .. => []
  | .tileOut dst _ hdr => [(dst.toNat, memSpan hdr)]
  | .gatherMem _ _ grain count dst => [(dst.toNat, grain * count)]
  | .gatherTile .. => []
  | .sealImg image _ _ _ _ dlen => [(image.toNat, 64 + imageLen dlen)]
  | .openImg side _ src _ _ dlen => if src = 0 then [(side.toNat, dlen)] else []

/-- Do ranges, rounded out to whole granules, meet? -/
def meetAny (xs ys : List (Nat × Nat)) : Bool :=
  xs.any (fun x => ys.any (fun y => decide (x.1 / 16 * 16 < y.1 + y.2) && decide (y.1 / 16 * 16 < x.1 + x.2)))

/-- Does an earlier live operation of the core conflict in memory with one: does one write what the other reads or writes? -/
def State.memBlocked (s : State) (c : Nat) (op : EngOp) : Bool :=
  ((s.core c).ops.takeWhile (fun o => o.token ≠ op.token)).any (fun e =>
    meetAny e.kind.writes (s.opReads c op ++ op.kind.writes) || meetAny (s.opReads c e) op.kind.writes)

/-- A live operation of a core that may run: none that it conflicts with was issued before it (R207). -/
def State.runningOp (s : State) (c : Nat) (token : BitVec 16) : Option EngOp :=
  match (s.core c).ops.find? (fun o => o.token == token) with
  | some op => if (s.core c).opBlocked false token || s.memBlocked c op then none else some op
  | none => none

/-- COPY_COMPLETE: the operation ends, or, where it needs pages that are not resident, their migrations start. -/
def execCopyComplete (core : Nat) (token : BitVec 16) (s : State) : Host.Outcome State Fault Refusal :=
  .next (match s.runningOp core token with
    | none => s
    | some op =>
      let (p, s') := s.plan core op
      if !p.missing.isEmpty then s.startPages core op p.missing
      else if p.faults.isEmpty then s'.completeOp core op p else s)

/-- COPY_FAIL: an operation that meets a fault fails (R236). -/
def execCopyFail (core : Nat) (token : BitVec 16) (s : State) : Host.Outcome State Fault Refusal :=
  .next (match s.runningOp core token with
    | none => s
    | some op =>
      let (p, s') := s.plan core op
      if p.faults.isEmpty then s else s'.failOp core op p p.faults)

/-- A granule of scratchpad that an operation may write before its end (R119, R210). -/
def Plan.early (p : Plan) (g : Nat) : Option SpWrite :=
  if p.pre.isSome then none
  else p.pieces.findSome? (fun x => match x.dst, x.fault, x.absent with
    | some (.sp w), none, none => if w.g = g then some w else none
    | _, _, _ => none)

def Out.reads : Out → Bool
  | .cxlRead _ | .peerRead .. => true
  | .request _ _ _ _ _ write => !write
  | _ => false

/-- The state after a plan of which one granule is written: the read requests since `s` stay for the operation's end. -/
def State.dropReads (t s : State) : State :=
  { t with
    out := s.out ++ (t.out.drop s.out.length).filter (fun o => !o.reads)
    bursts := t.bursts.filter (fun r => r.write || s.bursts.contains r) }

/-- ENGINE_GRANULE_WRITE: a granule becomes Full and wakes its waiters (R119, R120). -/
def execEngineGranuleWrite (core : Nat) (matrix : Bool) (token : BitVec 16) (g : Nat) (s : State) :
    Host.Outcome State Fault Refusal :=
  .next (
    if matrix then
      match (s.core core).runningTask token with
      | none => s
      | some t =>
        match (s.core core).taskResult t with
        | some (d, v, _, _) =>
          if d.lv = .sp && t.ha ≠ t.hb && !t.done.contains g then
            match (t.spWrites d v).find? (fun w => w.1.g == g && !w.2) with
            | some w => (s.modCore core (fun k =>
                let k := k.putTask t w
                { k with tasks := k.tasks.map (fun x => if x.token = token then { x with done := x.done ++ [g] } else x) })).wakeWf core
            | none => s
          else s
        | none => s
    else
      match s.runningOp core token with
      | none => s
      | some op =>
        let (p, s') := s.plan core op
        match (if op.done.contains g then none else p.early g) with
        | some w => ((s'.dropReads s).modCore core (fun k =>
            let k := k.putSp w op.view
            { k with ops := k.ops.map (fun x => if x.token = token then { x with done := x.done ++ [g] } else x) })).wakeWf core
        | none => s)

end Sys2Proof.Machine
end

