-- ==== Sys2Proof/Machine/EngineOps.lean ====
section
/-! DEFINITION. Issue of the copy and gather engines' operations: CPY, GTH, CPY.seal, CPY.open, and EWAIT
(10_memory_instructions R235–R243, 23_context_images R409, R410). -/

namespace Sys2Proof.Machine

/-! ## Accepting an operation (R208, R235) -/

def EngKind.gather : EngKind → Bool
  | .gatherMem .. => true
  | .gatherTile .. => true
  | _ => false

/-- The next copy token of the workgroup; with no workgroup resident the manual gives none: a free token (log 21). -/
def State.newToken (s : State) (c : Nat) : BitVec 16 × State :=
  match (s.core c).wg with
  | some w => (w.copyTok, s.modCore c (fun k => { k with wg := some { w with copyTok := nextToken w.copyTok } }))
  | none =>
    let (v, s) := s.freePair
    (BitVec.ofNat 16 (1 + v.toNat % 65535), s)

/-- A memory range to register; supervisor scratch is never registered (R329). -/
def memLock (dest : Bool) (a n : Nat) : List (Bool × Range) :=
  if a / 2 ^ 48 % 4096 = 0xFFE then [] else [(dest, memRange a n)]

/-- An operation that ends at issue: its token, and the failure it records, if any. It takes no engine entry, so a full engine
does not stall it (log 89). -/
def endAtIssue (s : State) (h : Hart) (dst : Dest) (fail : Option Cause) : Res :=
  let c := (h.core?).getD 0
  let (token, s) := s.newToken c
  let s := match fail with
    | some f => s.modCore c (·.recordFailure h.key token f.code)
    | none => s
  .ok (s.put32 h dst (token.setWidth 32) false)

def EngKind.seals : EngKind → Bool
  | .sealImg .. => true
  | _ => false

/-- The seal number of a key slot, which advances (R408, R411). -/
def State.takeSeal (s : State) (slot : Nat) : BitVec 32 × State :=
  let n : BitVec 32 := mget 0 s.keys.sealN slot
  (n, s.modKeys (fun ks => { ks with sealN := mset 0 ks.sealN slot (n + 1) }))

/-- Accept a checked operation, or stall: a full engine, a full range-lock table, or own stores still queued (R210).
`fill` completes the wildcard fields of a destination tile. A seal takes its key slot's next seal number (R411). -/
def acceptOp (s : State) (h : Hart) (dst : Dest) (kind : EngKind) (ranges : List (Bool × Range)) (fill : Option (Nat × Geo)) : Res :=
  let c := (h.core?).getD 0
  let k := s.core c
  let busy := (k.ops.filter (fun o => o.kind.gather == kind.gather)).length
  if 32 ≤ busy || 64 < k.locks.length + ranges.length || !(s.thread h).storeQ.isEmpty then .stall s
  else
    let (token, s) := s.newToken c
    let (n, s) := if kind.seals then s.takeSeal k.ksel.toNat else (0, s)
    let s := s.modCore c (fun (k : Core) =>
      let k : Core := { k with ops := k.ops ++ [{ token, tid := h.key, kind, ctx := k.ctxid, ksel := k.ksel, view := (s.thread h).mv.floor, sealN := n }]
                               locks := k.locks ++ ranges.map (fun r => ⟨false, token, r.1, r.2⟩) }
      match fill with
      | some (hn, g) => match k.tile? hn with
        | some t => if t.wild.any then k.setTile hn (some (t.fill g)) else k
        | none => k
      | none => k)
    .ok (s.put32 h dst (token.setWidth 32) false)

/-! ## CPY (R238–R240) -/

/-- A byte copy. -/
def cpyBytes (s : State) (h : Hart) (a b : Pair) (len : Nat) (dst : Dest) (ps : List (Bool × Nat)) : Res :=
  let last : BitVec 64 := BitVec.ofNat 64 (len - 1)
  let bad := if len = 0 then none else [b, b + last, a, a + last].find? outOfRange
  match lowestTrap [(bad.isSome, .addrRange, bad.getD 0), poisonTrap ps] with
  | some (c, v) => .trap c v
  | none =>
    if len = 0 then endAtIssue s h dst none
    else acceptOp s h dst (.bytes a b len) (memLock false b.toNat len ++ memLock true a.toNat len) none

/-- The conditions that the handle of a tile copy meets. -/
def handleFaults (t : Option Tile) (hv : Word) (source : Bool) : List (Bool × Cause × Pair) :=
  let hn : Pair := hv.setWidth 64
  match t with
  | none => [(true, .handleFree, hn)]
  | some t => [(!t.ok, .hdrCheck, hn), (t.ok && (!descOk (some t.lv) t.hdr t.wild || (source && t.wild.any)), .hdrUnsupported, hn),
      (t.lv ≠ .sp, .tileLevel, hn)]

/-- The conditions on the memory header of a tile copy, alone and against the tile. -/
def copyHeaderFaults (m : Header) (addr : BitVec 64) (t : Option Tile) (hv : Word) (into : Bool) : List (Bool × Cause × Pair) :=
  let hn : Pair := hv.setWidth 64
  let own : List (Bool × Cause × Pair) := [(!Hd.ok m, .hdrCheck, addr),
    (Hd.ok m && !(descOk (some .sp) m {} && layoutOk m), .hdrUnsupported, addr)]
  match t with
  | none => own
  | some t =>
    let g := geoOf m
    let d := geoOf t.hdr
    let differs := (!t.xfmt && d.fmt ≠ g.fmt) || (!t.xscale && d.scale ≠ g.scale) || (!t.xsparse && d.sparse ≠ g.sparse)
      || (!t.xshape && (d.rows ≠ g.rows || d.cols ≠ g.cols))
    own ++ [(Hd.ok m && t.ok && differs, .hdrMismatch, hn)] ++ (match (if into && Hd.ok m then t.fillFault g else none) with
      | some c => [(true, c, hn)]
      | none => [])

/-- A tile copy whose sources have been read; `ap` is the poison of the address's pair. The source's header comes before the
destination's (R108). -/
def cpyTile (s : State) (h : Hart) (a b : Pair) (c : Word) (col : Bool) (dst : Dest) (ap : Bool) (ps : List (Bool × Nat)) : Res :=
  let into := !c.getLsbD 31
  let hv : Word := (if into then a else b).setWidth 32
  let addr : BitVec 64 := if into then b else a
  let t := (s.coreOf h).tile? hv.toNat
  let hf := handleFaults t hv (!into)
  let early := hf ++ [poisonTrap ps]
  match s.checkGranules h addr 64 4 ap [] with
  | (.trap cause v, s') =>
    match lowestTrap ([(!(ap && cause == .poisonUse), cause, v)] ++ early) with
    | some (x, y) => .trapIn s' x y
    | none => .trapIn s' cause v
  | (.absent e, s') =>
    match lowestTrap early with
    | some (x, y) => .trapIn s' x y
    | none => .park (s'.startPromotion (s'.ctxOf h).toNat addr e none) (.page (s'.ctxOf h) addr (.cpy a b c col dst))
  | (.at p key, s') => s'.withGranules h p key 4 fun bs _ s' =>
    let m : Header := BitVec.ofNat 512 (bytesNat bs)
    let cf := copyHeaderFaults m addr t hv into
    match lowestTrap ((if into then cf ++ hf else hf ++ cf) ++ [poisonTrap ps]), t with
    | some (x, y), _ => .trapIn s' x y
    | none, none => .trapIn s' .handleFree (hv.setWidth 64)
    | none, some t =>
      let span := memSpan m
      if into then
        acceptOp s' h dst (.tileIn hv.toNat addr m) (memLock false addr.toNat span ++ [(true, .banks t.base (t.base + t.span))])
          (some (hv.toNat, geoOf m))
      else
        acceptOp s' h dst (.tileOut addr hv.toNat m) ([(false, .banks t.base (t.base + t.span))] ++ memLock true addr.toNat span) none

def laneCpy (f : Fields) (col : Bool) (h : Hart) (s : State) : Res :=
  guardOps s h ([(f.a, .pair), (f.b, .pair), (f.c, .w32)] ++ f.dst .w32) <|
    let a := s.opPair h f.a
    let b := s.opPair h f.b
    let c := s.op32 h f.c
    let pa := s.opPoison h f.a .pair
    let pb := s.opPoison h f.b .pair
    let ps := [(pa, 0), (pb, 1), (s.opPoison h f.c .w32, 2)]
    if c.getLsbD 30 then
      let into := !c.getLsbD 31
      cpyTile s h a b c col f.dest (if into then pb else pa) ps
    else cpyBytes s h a b (c.toNat % 2 ^ 24) f.dest ps

/-! ## GTH (R241, R242) -/

/-- The conditions on the destination of a gather. A tile with wildcard fields is a destination, completed by their stored values
(R124, log 90). Those of the tile's shape hold only at level 0, for a handle that is not poisoned and whose header's check holds (R223).
ADDR_RANGE of a memory destination names the first address where that is out of range, else the last byte: which, the manual leaves
open (DESIGN CHOICE, log 90). -/
def gatherDestFaults (t : Option Tile) (a : Pair) (pa : Bool) (c : Word) (grain count : Nat) : List (Bool × Cause × Pair) :=
  if c.getLsbD 29 then
    let hv : Word := a.setWidth 32
    handleFaults t hv false ++ (match t with
      | none => []
      | some t =>
        let g := geoOf t.hdr
        let fit := t.ok && t.lv = .sp && !pa
        [(fit && (g.scale ≠ 0 || g.sparse || g.rb % grain ≠ 0), .hdrUnsupported, hv.setWidth 64),
         (fit && g.rows * g.rb < count * grain, .spBounds, spTval hv.toNat g.rows 0)]
          ++ (match (if t.ok then t.fillFault g else none) with
            | some x => [(true, x, hv.setWidth 64)]
            | none => []))
  else
    [(a.toNat % grain ≠ 0, .addrAlign, a), (outOfRange (a + BitVec.ofNat 64 (count * grain - 1)) || outOfRange a, .addrRange,
      if outOfRange a then a else a + BitVec.ofNat 64 (count * grain - 1))]

/-- A gather of at least one record whose sources have been read. A poisoned list header is a poisoned base: POISON_USE with the
field of the list, b (Table 22-2). -/
def gthWith (s : State) (h : Hart) (a b : Pair) (c : Word) (dst : Dest) (pa pb : Bool) (ps : List (Bool × Nat)) : Res :=
  let grain := 16 * 2 ^ (c.toNat / 2 ^ 30)
  let count := c.toNat % 65536
  let hn := a.toNat % 2 ^ 32
  let t := (s.coreOf h).tile? hn
  let dest := gatherDestFaults t a pa c grain count
  let early := dest ++ [poisonTrap ps]
  match s.checkGranules h b 16 1 pb [] with
  | (.trap cause v, s') =>
    match lowestTrap (dest ++ [(!(pb && cause == .poisonUse), cause, v), poisonTrap ps]) with
    | some (x, y) => .trapIn s' x y
    | none => .trapIn s' cause v
  | (.absent e, s') =>
    match lowestTrap early with
    | some (x, y) => .trapIn s' x y
    | none => .park (s'.startPromotion (s'.ctxOf h).toNat b e none) (.page (s'.ctxOf h) b (.gth a b c dst))
  | (.at p key, s') => s'.withGranules h p key 1 fun bs marked s' =>
    let base : BitVec 64 := BitVec.ofNat 64 (bytesNat (bs.take 8))
    let own : List (Bool × Cause × Pair) := [(base.toNat % grain ≠ 0, .addrAlign, base), (outOfRange base, .addrRange, base)]
    match lowestTrap (dest ++ own ++ [poisonTrap (ps ++ [(marked, 1)])]) with
    | some (x, y) => .trapIn s' x y
    | none =>
      let src := memLock false b.toNat (16 + 4 * count)
      if c.getLsbD 29 then
        match t with
        | some t => acceptOp s' h dst (.gatherTile b base grain count hn) (src ++ [(true, .banks t.base (t.base + t.span))])
            (some (hn, geoOf t.hdr))
        | none => .trapIn s' .handleFree (BitVec.ofNat 64 hn)
      else acceptOp s' h dst (.gatherMem b base grain count a) (src ++ memLock true a.toNat (count * grain)) none

def laneGth (f : Fields) (h : Hart) (s : State) : Res :=
  guardOps s h ([(f.a, .pair), (f.b, .pair), (f.c, .w32)] ++ f.dst .w32) <|
    let c := s.op32 h f.c
    let pa := s.opPoison h f.a .pair
    let pb := s.opPoison h f.b .pair
    let ps := [(pa, 0), (pb, 1), (s.opPoison h f.c .w32, 2)]
    if c.toNat % 65536 = 0 then firstTrap [poisonTrap ps] (endAtIssue s h f.dest none)
    else gthWith s h (s.opPair h f.a) (s.opPair h f.b) c f.dest pa pb ps

/-! ## EWAIT (R243) -/

def laneEwait (f : Fields) (h : Hart) (s : State) : Res :=
  guardOps s h ([(f.b, .w32)] ++ f.dst .w32) <| firstTrap [poisonTrap [(s.opPoison h f.b .w32, 1)]] <|
    let t : BitVec 16 := (s.op32 h f.b).setWidth 16
    if (s.coreOf h).ewaits h.key t then .park s (.ewait t f.dest)
    else .ok (s.modThread h (fun th => (th.clearWindow.takeFailure f.dest).seeOp t (mget 0 (s.coreOf h).engView t.toNat)))

/-! ## CPY.seal and CPY.open (R409, R410) -/

/-- May queue `q` be named by an image of a context? It is valid and the context owns it. -/
def State.queueOwned (s : State) (q x : Nat) : Bool :=
  match s.qDesc? q with
  | some d => QD.ctx s d == x
  | none => false

/-- The cause that fails a seal or an open at issue. -/
def State.imageKeyFault (s : State) (c : Nat) (qid : Nat) (sealing : Bool) : Bool :=
  let k := s.core c
  let slot := k.ksel.toNat
  let e := s.keySlot slot
  slot = 0 || e.kind ≠ .gcm || e.owner ≠ k.ctxid || !s.queueOwned qid k.ctxid.toNat
    || (sealing && (mget 0 s.keys.sealN slot : BitVec 32) = 0xFFFFFFFF)

/-- Have the workgroup's tasks and its threads' operations ended, and its threads' stores left their queues, so that a save may capture
it (R179, R218)? -/
def Core.drained (k : Core) : Bool :=
  k.tasks.isEmpty && k.ops.all (fun o => decide (960 ≤ o.tid)) && k.threads.all (fun p => p.2.storeQ.isEmpty)

/-- Is the workgroup of a core being saved (R287, R404)? -/
def Core.saving (k : Core) : Bool :=
  match k.wg with
  | some w => w.preempt ≠ .none
  | none => false

/-- The image of a seal is one of the save's: its pages are known from now on (R415). -/
def State.noteImage (s : State) (c image len : Nat) : State :=
  match (s.core c).wg with
  | some w =>
    if (s.core c).saving then s.modSlot w.slot (fun sl => { sl with grant := sl.grant.map (fun g =>
      { g with images := g.images ++ [((s.core c).ctxid.toNat, image, 64 + len)] }) })
    else s
  | none => s

/-- A seal or an open, from its image's address, its other side and its control word. One that captures or restores a workgroup's own
state, and every one of a save, waits for the drain (R404). An open that fails at issue ends its restore (R413), and leaves the granules of its
destination, for which it registered no range, as they are (log 124). -/
def imageOp (sealing : Bool) (image side : BitVec 64) (ctl : Pair) (h : Hart) (dst : Dest) (ps : List (Bool × Nat)) (s : State) : Res :=
  let c := (h.core?).getD 0
  let k := s.core c
  let src := bget ctl 48 2
  let qid : BitVec 16 := BitVec.ofNat 16 (bget ctl 32 16)
  let part : BitVec 8 := BitVec.ofNat 8 (bget ctl 24 8)
  let dlen := bget ctl 0 24
  let len := imageLen dlen
  let raw := side.toNat % 2 ^ 32
  let (v, s') := s.freePair
  let imgEnd := image + BitVec.ofNat 64 (63 + len)
  let sideEnd := side + BitVec.ofNat 64 (dlen - 1)
  match lowestTrap [
      (image.toNat % 64 ≠ 0, .addrAlign, image), (src = 0 && side.toNat % 16 ≠ 0, .addrAlign, side),
      (src = 1 && raw % 16 ≠ 0, .addrAlign, side), (dlen = 0 || dlen % 16 ≠ 0, .addrAlign, v),
      (outOfRange image, .addrRange, image), (outOfRange imgEnd, .addrRange, imgEnd),
      (src = 0 && outOfRange side, .addrRange, side), (src = 0 && outOfRange sideEnd, .addrRange, sideEnd),
      (src = 1 && k.bankLimit * bankBytes < raw + dlen, .spBounds, v), (src = 2 && dlen ≠ 20752, .spBounds, v),
      (src = 3 && dlen ≠ engMemSize, .spBounds, v), poisonTrap ps] with
  | some (x, y) => .trapIn s' x y
  | none =>
    if s.imageKeyFault c qid.toNat sealing then
      match endAtIssue s h dst (some .keySlot) with
      | .ok t => .ok (if sealing then t else t.restoreLost c .keySlot)
      | r => r
    else if (src ≠ 0 || k.saving) && !k.drained then .stall s
    else
      let sideRange (dest : Bool) : List (Bool × Range) :=
        if src = 0 then memLock dest side.toNat dlen
        else if src = 1 then [(dest, .banks (raw / bankBytes) (ceilDiv (raw + dlen) bankBytes))]
        else []
      let ranges := if src = 3 then [] else sideRange (!sealing) ++ memLock sealing image.toNat (64 + len)
      if sealing then (acceptOp s h dst (.sealImg image side src qid part dlen) ranges none).andThen (·.noteImage c image.toNat len)
      else acceptOp s h dst (.openImg side image src qid part dlen) ranges none

def laneImage (sealing : Bool) (f : Fields) (h : Hart) (s : State) : Res :=
  guardOps s h ([(f.a, .pair), (f.b, .pair), (f.c, .pair)] ++ f.dst .w32) <|
    let a := s.opPair h f.a
    let b := s.opPair h f.b
    let ps := [(s.opPoison h f.a .pair, 0), (s.opPoison h f.b .pair, 1), (s.opPoison h f.c .pair, 2)]
    if sealing then imageOp true a b (s.opPair h f.c) h f.dest ps s else imageOp false b a (s.opPair h f.c) h f.dest ps s

/-! ## The instructions -/

def execCpy (f : DF) (col : Bool) (s : State) : Host.Outcome State Fault Refusal :=
  issue 0 .compute (.cpy f col) (laneCpy f.fields col) s
def execGth (f : DF) (s : State) : Host.Outcome State Fault Refusal := issue 0 .compute (.gth f) (laneGth f.fields) s
def execEwait (f : DF) (s : State) : Host.Outcome State Fault Refusal := issue 0 .compute (.ewait f) (laneEwait f.fields) s
def execCpySeal (f : DF) (s : State) : Host.Outcome State Fault Refusal :=
  issue 1 .compute (.cpySeal f) (laneImage true f.fields) s
def execCpyOpen (f : DF) (s : State) : Host.Outcome State Fault Refusal :=
  issue 1 .compute (.cpyOpen f) (laneImage false f.fields) s

end Sys2Proof.Machine
end

