-- ==== Sys2Proof/Machine/Resume.lean ====
section
/-! DEFINITION. Formed accesses of parked threads (R224, R249): what their wake does, and the formed wait as save-record
words (23_context_images R406). -/

namespace Sys2Proof.Machine

/-! ## Completing a formed access -/

/-- Let every store of a hart, and every entry of its core order, take effect in order. -/
def State.drainAll (s : State) (h : Hart) : State :=
  let s := (List.range (s.thread h).storeQ.length).foldl (fun s _ => s.leaveQueue h) s
  (List.range (s.order h).length).foldl (fun s _ => s.goHome h 0) s

/-- A thread stays parked, on `w`. -/
def State.stayParked (s : State) (h : Hart) (w : Wait) : State := s.modThread h (fun th => { th with run := .parked w })

/-- What a performed access does to its parked thread; not yet possible leaves it parked. -/
def State.settlePerf (s : State) (h : Hart) (a : Access) (r : Perf) : State :=
  match r with
  | .done t f => t.wake h f
  | .stall _ => s
  | .wait t => t.stayParked h (.waitv a)
  | .sent t => t.wake h id

/-- A formed access looks at its page again (R224). RANGE_LOCK is decided when it issues and not again here (log 94). -/
def State.resumeAccess (s : State) (h : Hart) (a : Access) : State :=
  match s.place h a.kind.need a.addr.toNat with
  | (.fault c, s) => match s.headerCondition h a c with
    | some (t, f) => t.wake h f
    | none => s.takeTrap h c a.addr (s.thread h).pc
  | (.absent e, s) =>
    (s.startPromotion (s.ctxOf h).toNat a.addr e none).stayParked h (.page (s.ctxOf h) a.addr (.access a))
  | (.at p key, s) =>
    match s.perform h a p key with
    | .stall _ =>
      let t := s.drainAll h
      t.settlePerf h a (t.perform h a p key)
    | r => s.settlePerf h a r

/-- What the meaning of a parked instruction answers at its wake. -/
def State.settleRes (s : State) (h : Hart) (r : Res) : State :=
  match r with
  | .ok t => t.wake h id
  | .jump t _ => t.wake h id
  | .trap c v => s.takeTrap h c v (s.thread h).pc
  | .trapIn t c v => t.takeTrap h c v (t.thread h).pc
  | .park t w => t.stayParked h w
  | .stall _ => s

/-- Is the hart's workgroup under a kill, so that nothing of it goes on (R402)? -/
def State.underKill (s : State) : Hart → Bool
  | .user c _ => match (s.core c).wg with
    | some w => w.killed
    | none => true
  | _ => false

/-- The parked instruction of a formed access or wait is taken up again. -/
def State.resume (s : State) (h : Hart) : State :=
  if s.underKill h then s
  else match (s.thread h).run with
    | .parked (.waitv a) => s.resumeAccess h a
    | .parked (.page _ _ (.access a)) => s.resumeAccess h a
    | .parked (.page _ _ p) =>
      let s := s.drainAll h
      s.settleRes h (match p with
        | .access _ => .stall s
        | .talloc addr hv hp m dst =>
          match s.checkGranules h addr 64 4 false [] with
          | (.trap c v, s') => .trapIn s' c v
          | (.absent e, s') => .park (s'.startPromotion (s'.ctxOf h).toNat addr e none) (.page (s'.ctxOf h) addr p)
          | (.at pl key, s') => s'.withGranules h pl key 4 (fun bs _ s' =>
              tallocWith s' h addr (BitVec.ofNat 512 (bytesNat bs)) hv m dst hp)
        | .cpy a b c col dst => cpyTile s h a b c col dst false []
        | .gth a b c dst => gthWith s h a b c dst false false [])
    | _ => s

/-- WAITV_REREAD: a formed wait looks again; one whose page's migration has ended goes on the same way. -/
def execWaitvReread (h : Hart) (s : State) : Host.Outcome State Fault Refusal :=
  .next (match (s.thread h).run with
    | .parked (.waitv _) => s.resume h
    | .parked (.page x va _) =>
      if s.io.migs.any (fun m => m.ctx == x && m.va.toNat / 65536 == va.toNat / 65536) then s else s.resume h
    | _ => s)

/-! ## The formed wait as words 0x400–0x40F (Table 23-2, log 24) -/

def bit (b : Bool) : Nat := if b then 1 else 0
def loW {n : Nat} (v : BitVec n) : Word := v.extractLsb' 0 32
def wordAt {n : Nat} (v : BitVec n) (k : Nat) : Word := v.extractLsb' (32 * k) 32

/-- Destination and instruction length, kept in word 15 of the kinds that have a destination. -/
def destWord (d : Dest) (len : Nat) : Word := bputs 0 [(0, 8, d.d.toNat), (8, 1, bit d.n), (9, 4, len)]
def wordDest (w : Word) : Dest := ⟨BitVec.ofNat 8 (bget w 0 8), w.getLsbD 8⟩

def opcOf (n : Nat) : Opc := (Opc.ofCode n).getD .add
def scopeOf (n : Nat) : Scope := (Scope.ofCode n).getD .sys

/-- The kind of a formed access and its modifiers in one word; 8, 9 and 10 are TALLOC, CPY and GTH. -/
def accWord (a : Access) : Word :=
  let (k, opc, u, x, y) : Nat × Nat × Nat × Nat × Nat := match a.kind with
    | .load sx sc => (0, 0, 0, bit sx, bit sc)
    | .store => (1, 0, 0, 0, 0)
    | .atom o u => (2, o.code, bit u, 0, 0)
    | .cas _ => (3, 0, 0, 0, 0)
    | .red o u => (4, o.code, bit u, 0, 0)
    | .redSc => (5, 0, 0, 0, 0)
    | .waitv => (6, 0, 0, 0, 0)
  bputs 0 [(0, 4, k), (4, 4, opc), (8, 1, u), (9, 1, x), (10, 1, y), (11, 1, bit a.dpoison), (12, 1, bit a.acq), (13, 1, bit a.rel),
    (14, 3, a.scope.code)]

def accWords (a : Access) : List Word :=
  let e : BitVec 128 := match a.kind with
    | .cas x => x
    | _ => 0
  [loW a.addr, wordAt a.addr 1, BitVec.ofNat 32 a.size] ++ (List.range 4).map (wordAt a.data) ++ (List.range 4).map (wordAt e)
    ++ [accWord a]

def levelCode : Level → Nat
  | .sp => 0 | .om => 1 | .acc => 2
def levelOf : Nat → Level
  | 0 => .sp | 1 => .om | _ => .acc

/-- Wait kind and words 1, 2, … of a park whose instruction is `len` bytes long (R406). The kinds with no destination leave word 15
zero: a barrier keeps the length beside its number, MWAIT beside its token (log 24). -/
def Wait.record (len : Nat) : Wait → Nat × List Word × Option Dest
  | .barrier b lvl t => (1, [bputs 0 [(0, 8, b), (8, 4, len)], BitVec.ofNat 32 lvl, t.setWidth 32], none)
  | .ldtWf a => (2, [BitVec.ofNat 32 a.h, BitVec.ofNat 32 a.row, BitVec.ofNat 32 a.col, BitVec.ofNat 32 a.size,
      bputs 0 [(0, 1, bit a.column), (1, 1, bit a.sx), (2, 1, bit a.clr), (3, 1, bit a.acq)]], some a.dst)
  | .page _ _ (.access a) => (3, accWords a, some a.dst)
  | .page _ _ (.talloc addr hv hp m dst) => (3, [loW addr, wordAt addr 1, hv,
      bputs 0 [(0, 2, levelCode m.lv), (2, 1, bit m.xshape), (3, 1, bit m.xsparse), (4, 1, bit m.xscale), (5, 1, bit m.xfmt),
        (6, 7, m.span.toNat), (13, 1, bit hp)], 0, 0, 0, 0, 0, 0, 0, 8], some dst)
  | .page _ _ (.cpy a b c col dst) =>
      (3, [loW a, wordAt a 1, loW b, wordAt b 1, c, BitVec.ofNat 32 (bit col), 0, 0, 0, 0, 0, 9], some dst)
  | .page _ _ (.gth a b c dst) => (3, [loW a, wordAt a 1, loW b, wordAt b 1, c, 0, 0, 0, 0, 0, 0, 10], some dst)
  | .waitv a => (4, accWords a, some a.dst)
  | .mwait t => (5, [bputs 0 [(0, 16, t.toNat), (17, 4, len)]], none)
  | .mwaitAll => (5, [bputs 0 [(16, 1, 1), (17, 4, len)]], none)
  | .ewait t d => (6, [t.setWidth 32], some d)
  | .xlane => (7, [], none)
  | .svcMb code arg d => (8, [code.setWidth 32, arg], some d)
  | .tdispDone start stop d => (9, [loW start, wordAt start 1, loW stop, wordAt stop 1], some d)
  | .tdisp _ => (0, [], none)
  | .yield => (0, [], none)
  | .supIdle => (0, [], none)
  | .group => (0, [], none)

/-- Has a WRTH named a wait kind other than 0 for the thread's later WAKE? -/
def Thread.waitWritten (th : Thread) : Bool := th.rearmed && (mget 0 th.rearm 0x400 : Word) ≠ 0

/-- Word `j` of a thread's wait: what has been written for a later WAKE, else what it is parked on. -/
def Thread.waitWord (th : Thread) (j : Nat) : Word :=
  match if th.rearmed then .ready else th.run with
  | .parked w =>
    let len := (th.npc - th.pc).toNat
    let (kind, ws, d) := w.record len
    if j = 0 then BitVec.ofNat 32 kind
    else if j = 15 then (match d with
      | some d => destWord d len
      | none => 0)
    else ws.getD (j - 1) 0
  | _ => mget 0 th.rearm (0x400 + j)

/-- A written word of a thread's wait; the words that are not written stay those of the wait from which it was stopped (R406). -/
def Thread.setWaitWord (th : Thread) (j : Nat) (v : Word) : Thread :=
  let kept := (List.range 16).foldl (fun m i => mset 0 m (0x400 + i) (th.waitWord i)) th.rearm
  { th with rearm := mset 0 kept (0x400 + j) v, rearmed := true }

/-- The access that words 1–12 hold. -/
def accOf (w : Nat → Word) : Access :=
  let k := w 12
  let u := k.getLsbD 8
  let quad (i : Nat) : BitVec 128 := w (i + 3) ++ w (i + 2) ++ w (i + 1) ++ w i
  let kind : AccKind := match bget k 0 4 with
    | 0 => .load (k.getLsbD 9) (k.getLsbD 10)
    | 1 => .store
    | 2 => .atom (opcOf (bget k 4 4)) u
    | 3 => .cas (quad 8)
    | 4 => .red (opcOf (bget k 4 4)) u
    | 5 => .redSc
    | _ => .waitv
  { kind, addr := (w 2 ++ w 1 : BitVec 64), size := (w 3).toNat, data := quad 4, dpoison := k.getLsbD 11
    acq := k.getLsbD 12, rel := k.getLsbD 13, scope := scopeOf (bget k 14 3), dst := wordDest (w 15) }

/-- The park that written words name; kind 7 executes its instruction again, so it names none (R168). -/
def waitOf (ctx : BitVec 16) (w : Nat → Word) : Option Wait :=
  let d := wordDest (w 15)
  let pr (i : Nat) : Pair := pairOf (w i) (w (i + 1))
  match (w 0).toNat with
  | 1 => some (.barrier (bget (w 1) 0 8) (w 2).toNat ((w 3).setWidth 16))
  | 2 => some (.ldtWf { h := (w 1).toNat, row := (w 2).toNat, col := (w 3).toNat, size := (w 4).toNat, column := (w 5).getLsbD 0,
                        sx := (w 5).getLsbD 1, clr := (w 5).getLsbD 2, acq := (w 5).getLsbD 3, dst := d })
  | 3 => match bget (w 12) 0 4 with
    | 8 =>
      let m := w 4
      let md : AllocMod :=
        { lv := levelOf (bget m 0 2), xshape := m.getLsbD 2, xsparse := m.getLsbD 3, xscale := m.getLsbD 4
          xfmt := m.getLsbD 5, span := BitVec.ofNat 7 (bget m 6 7) }
      some (.page ctx (pr 1) (.talloc (pr 1) (w 3) (m.getLsbD 13) md d))
    | 9 => some (.page ctx (pr 3) (.cpy (pr 1) (pr 3) (w 5) ((w 6).getLsbD 0) d))
    | 10 => some (.page ctx (pr 3) (.gth (pr 1) (pr 3) (w 5) d))
    | _ => some (.page ctx (pr 1) (.access (accOf w)))
  | 4 => some (.waitv (accOf w))
  | 5 => some (if (w 1).getLsbD 16 then .mwaitAll else .mwait ((w 1).setWidth 16))
  | 6 => some (.ewait ((w 1).setWidth 16) d)
  | 8 => some (.svcMb ((w 1).setWidth 16) (w 2) d)
  | 9 => some (.tdispDone (pr 1) (pr 3) d)
  | _ => none

/-- The length of the parked instruction that written words name. -/
def waitLen (w : Nat → Word) : Nat :=
  match (w 0).toNat with
  | 1 => bget (w 1) 8 4
  | 5 => bget (w 1) 17 4
  | _ => bget (w 15) 9 4

/-- A mailbox request that a save found unread is posted again, before those that the save recorded after it (R312, R413). -/
def Core.repost (k : Core) (r : MboxReq) : Core :=
  let order := match k.wg with
    | some w => w.mboxOrder
    | none => []
  let place (t : Nat) : Nat := order.findIdx (· == t)
  let before := k.mbox.takeWhile (fun x => place x.tid ≤ place r.tid)
  Core.wakeSup { k with mbox := before ++ [r] ++ k.mbox.drop before.length }

/-- A thread parked again after a restore: what its wait meets now. -/
def State.recheck (s : State) (c t : Nat) : State :=
  let h : Hart := .user c t
  match (s.thread h).run with
  | .parked (.barrier b lvl target) =>
    let x := s.barrier c b lvl
    if phaseDone x.phase target then s.wake h (·.leaveBarrier b x) else s
  | .parked (.ldtWf _) => s.wakeWfOne h
  | .parked (.page ..) => s.resume h
  | .parked (.waitv _) => s.resume h
  | .parked (.mwait _) => s.wakeTasks c
  | .parked .mwaitAll => s.wakeTasks c
  | .parked (.ewait ..) => s.wakeOps c
  | .parked (.svcMb code arg _) => s.modCore c (fun k =>
      if k.mbox.any (·.tid == t) || k.mboxRead.contains t then k else k.repost ⟨t, code, arg⟩)
  | .parked (.tdispDone start stop d) => s.wake h (·.takeChunk d start stop)
  | _ => s

/-- What WRTHs have written for a thread's WAKE is used up. -/
def Thread.noRearm (th : Thread) : Thread := { th with rearm := [], rearmed := false }

/-- The wait that a WRTH has written is armed again (R406), also in a thread that was stopped from Trapped, which leaves TRQ (log 24); a
thread of kind 7 executes its cross-lane instruction again, in
lane order with the others of its row (R168). -/
def State.rearm (s : State) (c t : Nat) : State :=
  let h : Hart := .user c t
  let th := s.thread h
  let word (j : Nat) : Word := mget 0 th.rearm (0x400 + j)
  let s := (s.modThread h (·.noRearm)).modCore c (·.unqueue (· == t))
  match waitOf (s.core c).ctxid word with
  | some w => (s.modThread h (fun th =>
      { th with run := .parked w, causeActive := false, npc := th.pc + BitVec.ofNat 64 (waitLen word) })).recheck c t
  | none => if word 0 = 7 then s.modThread h (fun th => { th with run := .ready, causeActive := false, rearrive := true }) else s

/-- The mailbox requests that a save found unread are posted again in their recorded order, before any thread of the workgroup goes on
(R413, step 5): each thread whose written wait is of kind 8, those that the record names first. -/
def State.postKept (s : State) (c : Nat) (w : Workgroup) : State :=
  (w.mboxOrder ++ (List.range w.nth).filter (fun t => !w.mboxOrder.contains t)).foldl (fun s t =>
    let th := (s.core c).thread t
    if th.stopped && th.waitWritten && mget 0 th.rearm 0x400 = 8 then s.rearm c t else s) s

end Sys2Proof.Machine
end

