-- ==== Sys2Proof/Machine/Fetch.lean ====
section
/-! DEFINITION. Fetching an instruction: every parcel translated and read before any field is decoded (R51, R52, R391),
and which agent can issue. -/

namespace Sys2Proof.Machine

/-- The hart whose state stands for an agent: lane 0 for a supervisor group. -/
def agentHart : Agent → Hart
  | .user c t => .user c t
  | .sup c => .sup c 0
  | .mgmt => .mgmt

/-- How a fetch ends. -/
inductive FetchRes where
  | instr (i : Instr)
  | undecodable (first : Word)
  | trap (c : Cause) (v : Pair)
  | held (pteAddr : Nat)
  deriving DecidableEq, Repr

/-- Where a parcel lies. The management core fetches from ROM and SRAM alone (R368). -/
def State.fetchPlace (s : State) (h : Hart) (va : Nat) : PlaceRes × State :=
  if 2 ^ 60 ≤ va then (.fault .fetchFault, s)
  else match s.place h .fetch va, h with
    | (.at (.rom k) key, s'), _ => (.at (.rom k) key, s')
    | (.at (.sram k) key, s'), _ => (.at (.sram k) key, s')
    | (.at p key, s'), .mgmt => (.fault .fetchFault, let _ := (p, key); s')
    | (.fault _, s'), _ => (.fault .fetchFault, s')
    | r, _ => r

/-- The MemRd of a fetch from the capacity tier, a read of no thread's: one for a line, not again for a parcel that follows in it (R262). -/
def State.fetchLine (s : State) (p : Place) : State :=
  match p with
  | .dev pa =>
    let line : Out := .cxlRead (BitVec.ofNat 64 (pa / 64 * 64))
    if isCxl pa && s.out.getLast? ≠ some line then s.emit line else s
  | _ => s

/-- The home instant from which on a hart's fetches may return what its code held: the start of its workgroup, or of its core for an agent
(R52). -/
def State.codeSince (s : State) : Hart → Nat
  | .user c _ => match (s.core c).wg with
    | some w => w.since
    | none => 0
  | .sup c _ => (s.core c).since
  | .mgmt => 0

/-- What a parcel held before stores that are home: of device memory since the launch began (R52), bytes under other key material being
free (log 13); of supervisor scratch since the core started; of SRAM before the stores of the management core that no FENCE.acqrel
follows (R383). -/
def State.oldParcels (s : State) (h : Hart) (p : Place) (key : Nat) : List (List Byte × Bool) :=
  let o := p.space.2 % 16
  let cut (bs : List Byte) : List Byte := (bs.drop o).take 2
  match p with
  | .dev pa => ((s.log (granule pa)).olds.takeWhile (fun x => decide (s.codeSince h < x.stop))).map (fun x =>
      (if x.tag = s.keyTag key then cut x.bytes else [Config.foreignByte pa, Config.foreignByte (pa + 1)], x.mark))
  | .supScratch k => ((s.coreOf h).supOld.filter (fun x => x.1 == k / 16)).map (fun x => (cut x.2.1, x.2.2))
  | .sram k => (s.mgmt.sramOld.filter (fun x => x.1 == k / 16)).map (fun x => (cut x.2.1, x.2.2))
  | _ => []

/-- One of several values, freely. -/
def State.pickOne {α : Type} (s : State) (x : α) (rest : List α) : α × State :=
  if rest.isEmpty then (x, s)
  else
    let (v, s) := s.freePair
    ((x :: rest).getD (v.toNat % (rest.length + 1)) x, s)

/-- Read one parcel, with the mark of the value taken. Fetch is not ordered with stores: a parcel is what its place holds, what a store of the
same core that is not home yet makes of it, or what it held before stores that are home, a free choice for each parcel (R52, R383,
log 93). -/
def State.readParcel (s : State) (h : Hart) (p : Place) (key : Nat) : List Byte × Bool × State :=
  let (sp, a) := p.space
  let (base, mark, s) : List Byte × Bool × State := match p with
    | .dev pa => (s.fetchLine p).homeGranule key (granule pa)
    | .supScratch k => (peeks (s.coreOf h).supScratch (k / 16 * 16) 16, mget false (s.coreOf h).supScratchPoison (k / 16), s)
    | .sram k => (peeks s.mgmt.sram (k / 16 * 16) 16, mget false s.mgmt.sramPoison (k / 16), s)
    | .rom k => (peeks s.mgmt.rom (k / 16 * 16) 16, false, s)
    | .flash _ | .ctl _ => (List.replicate 16 0, false, s)
  let o := a % 16
  let es := match p with
    | .rom _ => []
    | _ => s.order h ++ (s.thread h).storeQ
  let now : List Byte × Bool := ((base.drop o).take 2, mark)
  let pending := (List.range es.length).map (fun i =>
    let es := es.take (i + 1)
    ([overlayByte es sp a (base.getD o 0), overlayByte es sp (a + 1) (base.getD (o + 1) 0)], overlayMark es sp (a / 16) mark))
  let (r, s) := s.pickOne now ((pending ++ s.oldParcels h p key).filter (· ≠ now))
  (r.1, r.2, s)

/-- Translate the parcels at `va`, `va + 2`, …; stops at the first fault, else at the first page not resident. -/
def State.fetchPlaces (s : State) (h : Hart) : Nat → Nat → List (Place × Nat) × Option Cause × Option Nat × State
  | _, 0 => ([], none, none, s)
  | va, n + 1 =>
    let (r, s) := s.fetchPlace h va
    let (ps, f, ab, s) := s.fetchPlaces h (va + 2) n
    match r with
    | .at p key => ((p, key) :: ps, f, ab, s)
    | .absent e => (ps, f, some e, s)
    | .fault c => (ps, some c, ab, s)

/-- Read parcels in order; the mark is set when any granule is poisoned. -/
def State.readParcels (s : State) (h : Hart) : List (Place × Nat) → List Byte × Bool × State
  | [] => ([], false, s)
  | (p, key) :: rest =>
    let (bs, m, s) := s.readParcel h p key
    let (more, m', s) := s.readParcels h rest
    (bs ++ more, m || m', s)

/-- Fetch and decode the instruction at a hart's pc (R52, R391). -/
def State.fetch (s : State) (h : Hart) : FetchRes × State :=
  let pc := s.pc h
  let va := pc.toNat
  match s.fetchPlace h va with
  | (.fault _, s) => (.trap .fetchFault pc, s)
  | (.absent e, s) => (.held e, s)
  | (.at p key, s) =>
    let (first, bad, s) := s.readParcel h p key
    if bad then (.trap .poisonUse 4, s)
    else
      let n := parcelCount (BitVec.ofNat 16 (bytesNat first))
      match s.fetchPlaces h (va + 2) (n - 1) with
      | (_, some _, _, s) => (.trap .fetchFault pc, s)
      | (_, none, some e, s) => (.held e, s)
      | (ps, none, none, s) =>
        let (more, bad, s) := s.readParcels h ps
        if bad then (.trap .poisonUse 4, s)
        else
          match decode (first ++ more) with
          | .ok (i, _) => (.instr i, s)
          | .error _ => (.undecodable (BitVec.ofNat 32 (bytesNat ((first ++ more).take 4))), s)

/-! ## Which agent can issue (R44, R47, R284) -/

/-- Does a hart wait for a peer module's answer (R263)? -/
def State.peerHeld (s : State) (h : Hart) : Bool := s.io.peers.any (fun p => p.h == h)

/-- A thread that is Ready and neither stopped nor held at its fetch. -/
def State.hartReady (s : State) (h : Hart) : Bool :=
  let th := s.thread h
  th.run == .ready && !th.stopped && !s.fetchHeld h && !s.peerHeld h

/-- Agents that may issue: no compute core's before the Summer stage (R422). -/
def State.agentReady (s : State) : Agent → Bool
  | .user c t => s.mgmt.stage == .summer && (s.core c).status == .running && (s.core c).hasThread t && s.hartReady (.user c t)
  | .sup c => s.mgmt.stage == .summer && (s.core c).status == .running && (s.core c).started && allLanes.all (fun l => (s.core c).lanesDone.contains l || s.hartReady (.sup c l))
  | .mgmt => !s.mgmt.halted && s.hartReady .mgmt

/-- The agents of a core that can issue, the supervisor group first. -/
def State.readyOn (s : State) (c : Nat) : List Agent :=
  let k := s.core c
  let users := match k.wg with
    | some w => (List.range w.nth).map (fun t => Agent.user c t)
    | none => []
  (Agent.sup c :: users).filter s.agentReady

/-- The first agent that can issue: the management core, then the cores in ascending order. -/
def State.firstReady (s : State) : Option Agent :=
  if s.agentReady .mgmt then some .mgmt
  else (s.cores.findSome? (fun p => (s.readyOn p.1).head?))

/-! ## Placing an instruction where the next fetch reads it -/

/-- Store one byte at a place. -/
def State.pokePlace (s : State) (h : Hart) (p : Place) (key : Nat) (b : Byte) : State :=
  match p with
  | .dev pa => { s with mem := poke s.mem pa b, memKey := mset 0 s.memKey (granule pa) (s.keyTag key),
                        memPoison := mset false s.memPoison (granule pa) false }
  | .supScratch k => match h.core? with
    | some c => s.modCore c (fun kk => { kk with supScratch := poke kk.supScratch k b })
    | none => s
  | .sram k => s.modMgmt (fun m => { m with sram := poke m.sram k b })
  | .rom k => s.modMgmt (fun m => { m with rom := poke m.rom k b })
  | .flash k => s.modMgmt (fun m => { m with flash := poke m.flash k b })
  | .ctl _ => s

/-- Store bytes where a hart's fetch at `va`, `va + 1`, … reads them. -/
def State.placeCode (s : State) (h : Hart) : Nat → List Byte → State
  | _, [] => s
  | va, b :: bs =>
    let s := match (s.fetchPlace h va).1 with
      | .at p key => s.pokePlace h p key b
      | _ => s
    s.placeCode h (va + 1) bs

end Sys2Proof.Machine
end

