-- ==== Sys2Proof/Machine/Manage.lean ====
section
/-! DEFINITION. What the management core's registers do: the key store (17_contexts_and_privilege R331, R332), killing,
restarting and retiring (22_errors R399–R402), stages, power and heat (25_start_and_power R421–R427), device reset
(20_trust R371, R372). Each is one operation, which a WRSR and the event of the unit share. -/

namespace Sys2Proof.Machine

/-! ## The key store (R331, Table 17-2) -/

/-- A write of KSD: eight bytes enter the staging buffer of 64; a ninth write pushes the first out (log 25). -/
def State.stageKey (s : State) (v : BitVec 64) : State :=
  s.modMgmt (fun m =>
    let b := m.ksd ++ natBytes 8 v.toNat
    { m with ksd := b.drop (b.length - 64) })

def execKeyDataWrite (v : BitVec 64) (s : State) : Host.Outcome State Fault Refusal := .next (s.stageKey v)

/-- Is a memory access or a sealed copy under a slot in flight? -/
def State.keyInFlight (s : State) (k : Nat) : Bool :=
  let uses (e : StoreEnt) : Bool := e.space == .global && e.key == k
  s.cores.any (fun p => p.2.coreOrder.any uses || p.2.threads.any (fun t => t.2.storeQ.any uses)
    || p.2.ops.any (fun o => o.ksel.toNat == k && match o.kind with
      | .sealImg .. => true
      | .openImg .. => true
      | _ => false))
    || s.mgmt.order.any uses || s.mgmt.thread.storeQ.any uses

def kindOfBits : BitVec 2 → Option KeyKind
  | 0 => some .empty | 1 => some .xts | 2 => some .gcm | _ => none
def bitsOfKind : KeyKind → Nat
  | .empty => 0 | .xts => 1 | .gcm => 2

/-- The material of a kind in the staging buffer. -/
def keyMaterial (kind : KeyKind) (b : List Byte) : List Byte :=
  match kind with
  | .empty => []
  | .xts => (b ++ zeros (64 - b.length)).take 64
  | .gcm => (b ++ zeros (64 - b.length)).take 32

/-- GO: slot 0 and kind 11 load nothing and are logged, and the staging buffer stays as it was (the model's choice, log 117); else the
slot takes the buffer, which is zeroed. -/
def State.loadKey (s : State) (slot : BitVec 12) (kind : BitVec 2) (owner : BitVec 16) : State :=
  match kindOfBits kind with
  | some k =>
    if slot = 0 then s.logRaw { ev := 0x04 }
    else
      let n := slot.toNat
      (s.modKeys (fun ks => { ks with
        slots := mset ⟨.empty, 0, []⟩ ks.slots n ⟨k, owner, keyMaterial k s.mgmt.ksd⟩
        loads := mset 0 ks.loads n (mget 0 ks.loads n + 1) })).modMgmt (fun m => { m with ksd := [] })
  | none => s.logRaw { ev := 0x04 }

/-- KEY_SLOT_LOAD: takes place once nothing is in flight under the slot. -/
def execKeySlotLoad (slot : BitVec 12) (kind : BitVec 2) (owner : BitVec 16) (s : State) : Host.Outcome State Fault Refusal :=
  .next (if s.keyInFlight slot.toNat then s else s.loadKey slot kind owner)

/-- What RDSR of KSC gives for the slot that KSX selects. -/
def State.keyStatus (s : State) : Word :=
  let n := s.mgmt.ksx.toNat
  let e := s.keySlot n
  bputs 0 [(16, 2, bitsOfKind e.kind), (0, 16, e.owner.toNat)]

/-! ## Guilt (R332) -/

/-- A write of GLIM: 0 stores 1; contexts at or above the limit become barred. -/
def State.setGuiltLimit (s : State) (v : Word) : State :=
  let lim := Nat.max 1 (bget v 0 8)
  let s := s.modMgmt (fun m => { m with glim := BitVec.ofNat 8 lim })
  (s.io.ctxs.map (·.1)).foldl (fun s x => if lim ≤ CtxF.guilt (s.ctxRec x) then s.bar x else s) s

def execGuiltLimitWrite (v : Word) (s : State) : Host.Outcome State Fault Refusal := .next (s.setGuiltLimit v)

/-- CTXM.CLR: GUILT and BARRED become zero; the context's slots may become pending. -/
def State.clearGuilt (s : State) (x : Nat) : State :=
  (s.setCtxRec x (bputs (s.ctxRec x) [(108, 8, 0), (107, 1, 0)])).stampPending s

def execGuiltClear (ctx : BitVec 16) (s : State) : Host.Outcome State Fault Refusal := .next (s.clearGuilt ctx.toNat)

def execContextRunWrite (ctx : BitVec 16) (run : BitVec 2) (s : State) : Host.Outcome State Fault Refusal :=
  .next (s.writeRun ctx.toNat run.toNat)

/-! ## The error log's reader (R394) -/

/-- A write of ELC: above COUNT stores COUNT, below READ is ignored. -/
def State.consumeLog (s : State) (v : Word) : State :=
  s.modMgmt (fun m =>
    let w := if s.errors.elp.toNat < v.toNat then s.errors.elp else v
    if w.toNat < m.elc.toNat then m else { m with elc := w })

def execErrorLogConsume (v : Word) (s : State) : Host.Outcome State Fault Refusal := .next (s.consumeLog v)

/-! ## Cores: release, restart, retire (R399, R400, R402) -/

/-- A core whose workgroup has ended goes back to the scheduler (R272, R402). -/
def State.releaseCore (s : State) (c : Nat) : State :=
  match (s.core c).wg with
  | none => s
  | some w =>
    let s := (s.modCore c (fun k => { k with wg := none, claims := k.claims.filter (960 ≤ ·) })).dropFetches (Hart.userOf c)
    let s := s.dropPeers (Hart.userOf c)
    let s := match (s.slot w.slot).grant with
      | some g =>
        let held := g.held.filter (· ≠ c)
        if g.killed && held.isEmpty then s.endGrant w.slot
        else s.modSlot w.slot (fun sl => { sl with grant := some { g with held } })
      | none => s
    let busy := s.wgCores.any (fun c' => match (s.core c').wg with
      | some v => v.killed && v.ctx == w.ctx
      | none => false)
    if w.killed && w.ctx == s.mgmt.ctxkId && !busy then s.modMgmt (fun m => { m with ctxkGo := false }) else s

/-- The entry of the supervisor firmware: an instruction address (log 5). -/
def supEntryPc : BitVec 64 := Config.supEntry 0 &&& 0x0FFFFFFFFFFFFFFE

/-- A core as a restart leaves it: everything zero, the supervisor group at its firmware's entry. -/
def startedCore : Core := { supPc := supEntryPc, started := true }

/-- What outlasts the threads of a core: the stores already on their way (R198), with the requests that they have still to send, and what
its fences have reached. -/
def Core.carry (k fresh : Core) : Core :=
  { fresh with coreOrder := k.coreOrder, seq := k.seq, fenceView := k.fenceView, stored := k.stored }

/-- The queued stores of every thread of a core leave their queues (R198), and its loads that came from beneath pending stores keep the
places of those alone: their threads end. -/
def State.endThreads (s : State) (c : Nat) : State :=
  let s := ((s.core c).threads.map (·.1)).foldl (fun s t => s.leaveAll (hartOf c t)) s
  { s with holds := s.holds.map (fun r => if r.h.core? == some c then { r with ord := 0, seq := (s.core c).seq } else r) }

/-- A core starts afresh. Stores that are already on their way still arrive, and no invalidation of its earlier threads goes on
(R338). -/
def State.freshCore (s : State) (c : Nat) : State :=
  let s := (s.releaseCore c).endThreads c
  let s := (s.dropFetches (fun h => h.core? == some c)).dropPeers (fun h => h.core? == some c)
  (s.setCore c ((s.core c).carry { startedCore with since := s.instant })).dropDrainsOf c

/-- Restart: only from STATE 01. -/
def State.restartCore (s : State) (c : Nat) : State := if (s.core c).status = .stopped then s.freshCore c else s

def execCoreRestart (core : Nat) (s : State) : Host.Outcome State Fault Refusal := .next (s.restartCore core)
def execCoreRetire (core : Nat) (s : State) : Host.Outcome State Fault Refusal := .next (s.retireCore core)

/-- CTXK.GO: the code of the kill is the one its reason gives, never a reserved one (R50); ignored while GO reads 1. -/
def execContextKill (ctx : BitVec 16) (code : BitVec 8) (s : State) : Host.Outcome State Fault Refusal :=
  .next (if s.mgmt.ctxkGo || !assignedCode code then s else s.killContext ctx.toNat code 0)

/-- The assigned codes of Table 2-8. -/
def assignedCodes : List (BitVec 8) := ((List.range 256).map (BitVec.ofNat 8)).filter assignedCode

/-- A kill that a WRSR to CTXK asks for: the manual names no CODE and no VALUE for it, so the value is free and the code is a
free one of those assigned (R50, log 26). -/
def State.killByRegister (s : State) (x : Nat) : State :=
  let (code, s) := s.freePair
  let (v, s) := s.freePair
  s.killContext x (assignedCodes.getD (code.toNat % assignedCodes.length) 0) v

/-! ## Measurements (R372) -/

/-- A measurement register: 48 bytes. MEAS0 is computed from the ROM. -/
def State.meas (s : State) (k : Nat) : List Byte :=
  if k = 0 then sha384 (zeros 48 ++ sha384 (peeks s.mgmt.rom 0 0x40000)) else (mget (zeros 48) s.keys.meas k ++ zeros 48).take 48

def State.setMeas (s : State) (k : Nat) (v : List Byte) : State :=
  s.modKeys (fun ks => { ks with meas := mset (zeros 48) ks.meas k v })

/-! ## Stages (R421–R424) -/

/-- MEAS1 after a refused image (R374). -/
def refusedMeas : List Byte := sha384 (zeros 48 ++ List.replicate 48 0xFF)

/-- The advance conditions of Table 25-1; after a trip the device stays in Winter until it has cooled (R427). -/
def State.mayAdvance (s : State) : Bool :=
  match s.mgmt.stage with
  | .winter => s.meas 1 ≠ zeros 48 && s.meas 1 ≠ refusedMeas && !s.mgmt.cooling
  | .spring => s.meas 3 ≠ zeros 48 && s.io.slotb ≠ 0
  | .summer => false

/-- Summer starts the supervisor group of every core that is not retired. -/
def State.startCores (s : State) : State :=
  allCores.foldl (fun s c =>
    let k := s.core c
    if k.status = .retired || (k.started && k.status = .running) then s
    else s.freshCore c) s

/-- The Spring stage tests the positions found retired at the last device reset (R399). What each test gives is free; a position that
fails is logged and retired again (log 118). -/
def State.retestCores (s : State) : State :=
  s.mgmt.retiredPos.foldl (fun s c =>
    let (pass, s) := s.freeBit
    if pass then s else (s.logEvent 0x01 Cause.selftestFail.code (BitVec.ofNat 64 c)).retireCore c)
    (s.modMgmt (fun m => { m with retiredPos := [] }))

/-- The core at the origin of a record's region. -/
def originCore (r : BitVec 128) : Nat := 16 * BR.by_ r + BR.bx r

/-- Post a queue-error event of a context to the agent of the region's origin core. -/
def State.postQueueError (s : State) (k : Nat) (x : BitVec 16) : State :=
  (s.modSlot k (fun sl => { sl with qerrPosted := sl.qerrPosted ++ [x] })).modCore (originCore (s.slot k).bindRec)
    (·.post (.queueError k))

/-- Post a queue-error event, or hold it while the slot's head packet awaits its verdict (R278). -/
def State.deferQueueError (s : State) (k : Nat) (x : BitVec 16) : State :=
  if (s.slot k).awaits then s.modSlot k (fun sl => { sl with qerrHeld := sl.qerrHeld ++ [x] }) else s.postQueueError k x

/-- Queue-error events kept for a queue reach the agent of the region that now serves it (R278). -/
def State.postQueueErrors (s : State) (k : Nat) : State :=
  let q := BR.qid (s.slot k).bindRec
  let n := mget 0 s.sched.qerrUnbound q
  let x : BitVec 16 := BitVec.ofNat 16 (match s.qDesc? q with
    | some d => QD.ctx s d
    | none => 0)
  let s := s.modSched (fun sc => { sc with qerrUnbound := mset 0 sc.qerrUnbound q 0 })
  (List.range n).foldl (fun s _ => s.deferQueueError k x) s

/-- A record takes effect: its queue is pending no more for want of a record (R270), the queue of a barred context records CTX_BARRED
(R332), the events kept for the queue are posted (R278), and its ACT is carried out (R275). -/
def State.takeRecord (s : State) (k : Nat) : State :=
  let r := (s.slot k).bindRec
  if !BR.v r then s
  else
    let s := s.modSched (fun sc => { sc with pending := mset false sc.pending (BR.qid r) false })
    let s := match s.qDesc? (BR.qid r) with
      | some d => if CtxF.barred (s.ctxRec (QD.ctx s d)) then s.recordBarred (QD.ctx s d) else s
      | none => s
    (s.postQueueErrors k).actOnRecord k

/-- The Summer stage: the records written before it take effect, and every slot that is pending counts from now (R422). -/
def State.takeRecords (s : State) : State :=
  allSlots.foldl (fun s k => let t := s.takeRecord k; if t.slotPending k then t.stampSlot k else t) s

/-- The advance to the next stage. The end of Winter fixes the port modes (R15); with Summer every core that is not retired starts, the
bind records take effect (R422), and virtio-net tells the host that its link is up (R362). -/
def State.advanceStage (s : State) : State :=
  if s.mayAdvance then
    match s.mgmt.stage with
    | .winter => ((s.modMgmt (fun m => { m with stage := .spring })).modIo (fun io => { io with modesFixed := true })).retestCores
    | .spring => ((s.modMgmt (fun m => { m with stage := .summer })).startCores).takeRecords.hostMsix 1 2
    | .summer => s
  else s

def execStageAdvance (s : State) : Host.Outcome State Fault Refusal := .next s.advanceStage

/-- Stop every core that is not retired, and kill every resident context with the error that led to it (R391, Table 22-5). -/
def State.stopAll (s : State) (code : BitVec 8) (value : BitVec 64) : State :=
  let ctxs := dedup (s.wgCores.filterMap (fun c => (s.core c).wg.map (·.ctx.toNat)))
  let s := (s.cores.map (·.1)).foldl (fun s c => if (s.core c).status = .retired then s else s.haltCore c .stopped) s
  ctxs.foldl (fun s x => s.killContext x code value) s

/-- Back to the end of the Spring stage (R424); a device that has not left it, or is in Winter, stays in its stage (R421). -/
def State.toSpring (s : State) (code : BitVec 8) (value : BitVec 64) : State :=
  let t := s.stopAll code value
  if s.mgmt.stage = .summer then (t.modMgmt (fun m => { m with stage := .spring })).hostMsix 1 2 else t

/-- Is port `p` a root port under a PMODE value (Table 1-3)? -/
def rootPort (modes : BitVec 32) (p : Nat) : Bool := 1 ≤ portMode modes p && portMode modes p ≤ 3

/-- The I/O die tables at their reset values and the links of the root ports down (R424); the port modes hold until the next
device reset (R15), and with them the module ID. What the host has set up over its own link, which stays up, stays with it (log 101). -/
def ioReset (io : Io) : Io :=
  { ecam := io.ecam, pmode := io.pmode, modesFixed := io.modesFixed, modId := io.modId, hostRegs := io.hostRegs
    virtqs := io.virtqs, hostFeatures := io.hostFeatures, hostStatus := io.hostStatus
    links := io.links.filter (fun p => !rootPort io.pmode (p.1 % 8)) }

/-- A core as a return to Winter leaves it: a retired one retired, and its stores that are already on their way (R198). -/
def Core.atWinter (k : Core) : Core := k.carry { status := if k.status = .retired then .retired else .running }

/-- The threads of every core and of the management core end. -/
def State.endAllThreads (s : State) : State :=
  let s := ((s.cores.map (·.1)).foldl State.endThreads s).leaveAll .mgmt
  { s with holds := s.holds.map (fun r => if r.h == .mgmt then { r with ord := 0, seq := s.mgmt.orderSeq } else r) }

/-- Back to the Winter stage (R424): cores and tables as at reset; MEAS0, BOOTID, seal numbers, SAVECTR, key slots, the
error log, memory and the stores already on their way to it stay (log 27). A management core halted by a second trap stays halted until a device reset (R48). -/
def State.toWinter (s : State) : State :=
  let s := s.endAllThreads
  { s with
    agenda := s.agenda, issueQ := [], cur := .mgmt, stalled := false
    cores := s.cores.foldl (fun m p => mset {} m p.1 p.2.atWinter) []
    mgmt := { s.mgmt with
      thread := { pc := 0x100 }, mtvec := 0x40, order := s.mgmt.order.filter (fun e => e.space == .global)
      sram := [], sramPoison := [], sramOld := [], loaded := [], stage := .winter, ctxkGo := false }
    keys := { s.keys with meas := [] }
    sched := {}
    io := ioReset s.io
    spdmDoe := { cnt := s.spdmDoe.cnt }
    spdmI3c := { cnt := s.spdmI3c.cnt }
    scanI3c := false }

/-! ## Power and heat (R423, R425, R427) -/

/-- A write of PLIM: WATTS, bits 11:0, clamped to 600–2,800; the reserved bits are ignored (R4). -/
def State.setPowerLimit (s : State) (v : Word) : State :=
  s.modMgmt (fun m => { m with plim := BitVec.ofNat 12 (Nat.max 600 (Nat.min 2800 (bget v 0 12))) })

def execPowerLimitWrite (v : Word) (s : State) : Host.Outcome State Fault Refusal := .next (s.setPowerLimit v)

/-- The highest duty allowed. -/
def dutyCap (hot : Bool) : Nat := if hot then 8 else 16

/-- One measurement: a duty after it. -/
def dutyAfter (limit watts : Nat) (hot : Bool) (d : Nat) : Nat :=
  if limit < watts then Nat.max 4 (d - 1)
  else if 100 * watts < 95 * limit then Nat.min (dutyCap hot) (d + 1)
  else d

def execPowerSample (watts : Nat) (s : State) : Host.Outcome State Fault Refusal :=
  .next (s.modMgmt (fun m => { m with
    duty0 := dutyAfter m.plim.toNat watts m.hot m.duty0
    duty1 := dutyAfter m.plim.toNat watts m.hot m.duty1 }))

/-- A new temperature: from 95 °C each duty is capped until it falls below 90 °C, and so long does a trip's Winter last. -/
def Mgmt.heat (m : Mgmt) (temp : BitVec 8) : Mgmt :=
  let hot := if 95 ≤ temp.toNat then true else if temp.toNat < 90 then false else m.hot
  { m with temp, hot, cooling := m.cooling && 90 ≤ temp.toNat
           duty0 := Nat.min (dutyCap hot) m.duty0, duty1 := Nat.min (dutyCap hot) m.duty1 }

/-- The device takes a new temperature, and with 110 °C the trip: TRIP is set and the device returns to Winter. -/
def State.setTemp (s : State) (temp : BitVec 8) : State :=
  let s := s.modMgmt (·.heat temp)
  if 110 ≤ temp.toNat then (s.modMgmt (fun m => { m with trip := true, cooling := true })).toWinter else s

/-- TEMP reaches 95 °C; it falls below 90 °C; it reaches 110 °C. What each event does follows from the temperature it brings. -/
def execThermalCap (temp : BitVec 8) (s : State) : Host.Outcome State Fault Refusal := .next (s.setTemp temp)
def execThermalCapLift (temp : BitVec 8) (s : State) : Host.Outcome State Fault Refusal := .next (s.setTemp temp)
def execThermalTrip (temp : BitVec 8) (s : State) : Host.Outcome State Fault Refusal := .next (s.setTemp temp)

/-! ## Device reset (R371, R372, R408) -/

/-- The positions that a device reset finds retired, with those that no Spring stage has tested since (R399). -/
def State.retiredNow (s : State) : List Nat :=
  let now := (s.cores.filter (fun p => p.2.status == .retired)).map (·.1)
  now ++ s.mgmt.retiredPos.filter (fun c => !now.contains c)

/-- ROM, boot flash, the positions to test again, the contents of device memory, what has left the device and the schedule outlast a reset (log 28); the
count of key loads keeps old material apart from new. BOOTID is drawn anew. -/
def State.deviceReset (s : State) : State :=
  let (id, s) := s.freePair
  { State.reset with
    agenda := s.agenda, free := s.free, mem := s.mem, memPoison := s.memPoison, memKey := s.memKey, out := s.out
    mgmt := { State.reset.mgmt with rom := s.mgmt.rom, flash := s.mgmt.flash, retiredPos := s.retiredNow }
    keys := { bootId := id, loads := s.keys.loads.map (fun p => (p.1, p.2 + 1)) } }

def execDeviceReset (s : State) : Host.Outcome State Fault Refusal := .next s.deviceReset

/-- MSCTL.SEND (R361). -/
def execMsctlSend (s : State) : Host.Outcome State Fault Refusal := .next s.sendMgmt

end Sys2Proof.Machine
end

