-- ==== Sys2Proof/Machine/System.lean ====
section
/-! DEFINITION. Special registers (02_threads_and_state R39–R42, 17_contexts_and_privilege R336) and the privileged
instructions of class 110 (R335–R343, 18_root_complex R354). -/

namespace Sys2Proof.Machine

/-! ## Special registers: which, where, how wide (R39) -/

/-- 64-bit or not, and where present; `none` for a number that no chapter assigns. -/
def srInfo (n : Nat) : Option (Bool × Presence) :=
  if n = 0x000 || n = 0x001 || n = 0x400 then some (false, .all)
  else if n = 0x401 || n = 0x402 then some (true, .all)
  else if n = 0x002 || n = 0x003 || (0x403 ≤ n && n ≤ 0x406) then some (false, .compute)
  else if 0x407 ≤ n && n ≤ 0x409 then some (true, .compute)
  else if n = 0x800 || n = 0x802 || n = 0x80C then some (true, .mgmt)
  else if 0x801 ≤ n && n ≤ 0x811 then some (false, .mgmt)
  else none

def Hart.agent : Hart → Agent
  | .user c t => .user c t
  | .sup c _ => .sup c
  | .mgmt => .mgmt

/-- UND for an unassigned or absent register, PRIV below its level. -/
def srGate (h : Hart) (n : Nat) : Option Cause :=
  match srInfo n with
  | none => some .und
  | some (_, p) => gate (n / 1024) p (Hart.agent h)

def srWidth (n : Nat) : OpW := match srInfo n with
  | some (true, _) => .pair
  | _ => .w32

/-! ## Reading (R40, R336) -/

def Thread.cause (th : Thread) : Word := bputs 0 [(31, 1, bit th.causeActive), (0, 8, th.causeCode.toNat)]

/-- CORC: the state of the core it names. -/
def State.coreState (s : State) : Nat := match (s.core s.mgmt.corc.toNat).status with
  | .running => 0 | .stopped => 1 | .retired => 2

/-- The registers of the management core (Tables 17-2, 20-2, 22-4, 25-2). -/
def State.readMgmt (s : State) (n : Nat) : Pair :=
  let m := s.mgmt
  let z {w : Nat} (v : BitVec w) : Pair := v.setWidth 64
  match n with
  | 0x800 => m.mtvec
  | 0x801 => z m.ksx
  | 0x803 => z s.keyStatus
  | 0x804 => z m.glim
  | 0x805 => z m.ctxx
  | 0x806 =>
    let r := s.ctxRec m.ctxx.toNat
    bputs 0 [(9, 2, CtxF.run r), (8, 1, bit (CtxF.barred r)), (0, 8, CtxF.guilt r)]
  | 0x807 => z m.fusx
  | 0x808 => if 12 ≤ m.fusx.toNat && m.fusx.toNat < 28 then z (Config.fuseWord m.fusx.toNat) else 0
  | 0x809 => z s.errors.elp
  | 0x80A => z m.elc
  | 0x80B => z m.elx
  | 0x80C => wordOf (mget 0 s.errors.log (bget m.elx 0 8) : BitVec 256) (bget m.elx 8 2)
  | 0x80D => bputs 0 [(31, 1, bit m.ctxkGo), (0, 16, m.ctxkId.toNat)]
  | 0x80E => bputs 0 [(8, 2, s.coreState), (0, 8, m.corc.toNat)]
  | 0x80F => s.stgWord
  | 0x810 => z m.plim
  | 0x811 => bputs 0 [(24, 8, m.temp.toNat), (10, 1, bit m.trip), (5, 5, m.duty1), (0, 5, m.duty0)]
  | _ => 0

/-- A special register as RDSR returns it; TRQ and MBOX have constructors of their own. With no workgroup resident VER
of NBV is free (log 29). -/
def State.readSr (s : State) (h : Hart) (n : Nat) : Pair :=
  let th := s.thread h
  let k := s.coreOf h
  match n with
  | 0x000 => th.fmode.setWidth 64
  | 0x001 => th.flags.setWidth 64
  | 0x002 => match k.wg with
    | some w => if w.nbv then 1 else 0
    | none => if Config.idleNbv s.free then 1 else 0
  | 0x003 => th.qpct.setWidth 64
  | 0x400 => th.cause.setWidth 64
  | 0x401 => th.epc
  | 0x402 => th.tval
  | 0x403 => k.ctxid.setWidth 64
  | 0x404 => k.ksel.setWidth 64
  | 0x406 => k.mtqx.setWidth 64
  | 0x407 => k.taskBits k.mtqx.toNat
  | _ => s.readMgmt n

/-- Write a result of a special register's width. -/
def State.putSr (s : State) (h : Hart) (d : Dest) (w : OpW) (v : Pair) : State :=
  match w with
  | .pair => s.putPair h d v false
  | _ => s.put32 h d (v.setWidth 32) false

def laneRdsr (f : Fields) (n : Nat) (first : Word) (h : Hart) (s : State) : Res :=
  match srGate h n with
  | some c => .trap c (first.setWidth 64)
  | none => guardOps s h (f.dst (srWidth n)) (.ok (s.putSr h f.dest (srWidth n) (s.readSr h n)))

/-! ## Writing (R41, R336) -/

/-- An address register: bit 0 and bits 63:60 are stored as zero. -/
def codeAddr (v : BitVec 64) : BitVec 64 := v &&& 0x0FFFFFFFFFFFFFFE

/-- A write of QPCT: a field above 10,000 stores 10,000; bits 31:14 are ignored (R4). -/
def qpctOf (v : Word) : BitVec 14 := BitVec.ofNat 14 (Nat.min 10000 (bget v 0 14))

/-- CTXM: CLR, then RUN. -/
def State.writeCtxm (s : State) (v : Word) : State :=
  let x := s.mgmt.ctxx.toNat
  let s := if v.getLsbD 11 then s.clearGuilt x else s
  s.writeRun x (bget v 9 2)

/-- CORC: the core number is stored, then the command acts on that core. -/
def State.writeCorc (s : State) (v : Word) : State :=
  let c := bget v 0 8
  let s := s.modMgmt (fun m => { m with corc := BitVec.ofNat 8 c })
  match bget v 30 2 with
  | 1 => s.restartCore c
  | 2 => s.retireCore c
  | _ => s

/-- CTXK: ignored while GO reads 1. -/
def State.writeCtxk (s : State) (v : Word) : State :=
  if s.mgmt.ctxkGo then s
  else
    let s := s.modMgmt (fun m => { m with ctxkId := v.setWidth 16 })
    if v.getLsbD 31 then s.killByRegister (bget v 0 16) else s

/-- The registers of the management core; a KSC.GO waits for what is in flight under the slot. -/
def State.writeMgmt (s : State) (n : Nat) (v : Pair) : Res :=
  let w : Word := v.setWidth 32
  match n with
  | 0x800 => .ok (s.modMgmt (fun m => { m with mtvec := codeAddr v }))
  | 0x801 => .ok (s.modMgmt (fun m => { m with ksx := w.setWidth 12 }))
  | 0x802 => .ok (s.stageKey v)
  | 0x803 =>
    let kind : BitVec 2 := BitVec.ofNat 2 (bget w 16 2)
    let owner : BitVec 16 := w.setWidth 16
    let slot := s.mgmt.ksx
    if w.getLsbD 31 && s.keyInFlight slot.toNat then .stall s
    else .ok (if w.getLsbD 31 then s.loadKey slot kind owner else s)
  | 0x804 => .ok (s.setGuiltLimit w)
  | 0x805 => .ok (s.modMgmt (fun m => { m with ctxx := w.setWidth 16 }))
  | 0x806 => .ok (s.writeCtxm w)
  | 0x807 => .ok (s.modMgmt (fun m => { m with fusx := w.setWidth 5 }))
  | 0x80A => .ok (s.consumeLog w)
  | 0x80B => .ok (s.modMgmt (fun m => { m with elx := w.setWidth 10 }))
  | 0x80D => .ok (s.writeCtxk w)
  | 0x80E => .ok (s.writeCorc w)
  | 0x80F => .ok (if w.getLsbD 2 then s.advanceStage else s)
  | 0x810 => .ok (s.setPowerLimit w)
  | _ => .ok s

/-- A write of a special register; MBRPL has a constructor of its own. -/
def State.writeSr (s : State) (h : Hart) (n : Nat) (v : Pair) : Res :=
  let w : Word := v.setWidth 32
  let th (f : Thread → Thread) : Res := .ok (s.modThread h f)
  let core (f : Core → Core) : Res := match h.core? with
    | some c => .ok (s.modCore c f)
    | none => .ok s
  match n with
  | 0x000 => th (fun t => { t with fmode := w.setWidth 3 })
  | 0x001 => th (fun t => { t with flags := w.setWidth 7 })
  | 0x003 => th (fun t => { t with qpct := qpctOf w })
  | 0x400 => th (fun t => { t with causeCode := w.setWidth 8 })
  | 0x401 => th (fun t => { t with epc := codeAddr v })
  | 0x402 => th (fun t => { t with tval := v })
  | 0x403 => core (fun k => { k with ctxid := w.setWidth 16 })
  | 0x404 => core (fun k => { k with ksel := w.setWidth 12 })
  | 0x406 => core (fun k => { k with mtqx := w.setWidth 6 })
  | 0x407 => .ok s
  | _ => s.writeMgmt n v

def laneWrsr (f : Fields) (n : Nat) (first : Word) (h : Hart) (s : State) : Res :=
  match srGate h n with
  | some c => .trap c (first.setWidth 64)
  | none =>
    let w := srWidth n
    guardOps s h [(f.b, w)] <|
      firstTrap [(n = 0x002 || n = 0x405 || n = 0x408, .srRo, BitVec.ofNat 64 n), poisonTrap [(s.opPoison h f.b w, 1)]] <|
        s.writeSr h n (if w = .pair then s.opPair h f.b else (s.op32 h f.b).setWidth 64)

/-! ## TRQ, MBOX and MBRPL (R42, R312) -/

def laneTrqRead (f : Fields) (h : Hart) (s : State) : Res :=
  guardOps s h (f.dst .w32) <|
    match (s.coreOf h).trq, h.core? with
    | t :: rest, some c =>
      .ok ((s.modCore c (fun k => { k with trq := rest, trqOld := k.trqOld - 1 })).put32 h f.dest (bputs 0 [(6, 4, 1 + t / 64), (0, 6, t % 64)]) false)
    | _, _ => .ok (s.put32 h f.dest 0x80000000 false)

def laneMboxRead (f : Fields) (h : Hart) (s : State) : Res :=
  guardOps s h (f.dst .pair) <|
    match (s.coreOf h).mbox, h.core? with
    | r :: rest, some c =>
      .ok ((s.modCore c (fun k => { k with mbox := rest, mboxRead := k.mboxRead ++ [r.tid] })).putPair h f.dest
        (bputs 0 [(48, 10, r.tid), (32, 16, r.code.toNat), (0, 32, r.arg.toNat)]) false)
    | _, _ => .ok (s.putPair h f.dest 0x8000000000000000 false)

/-- The floor that the stores of a core's agent have reached: the highest of its lanes'. -/
def Core.agentFloor (k : Core) : Nat := allLanes.foldl (fun m l => Nat.max m (k.thread (supKey l)).mv.floor) 0

/-- The reply of MBRPL: the named thread wakes when it is parked at an SVC.mb whose request has been read. Every agent store before it
happens before the thread's next instruction, with all that happens before those (R204, R312). -/
def State.replyMbox (s : State) (c t : Nat) (v : Word) : State :=
  match (s.thread (.user c t)).run with
  | .parked (.svcMb _ _ dst) =>
    if (s.core c).mboxRead.contains t then
      (s.modCore c (fun k => { k with mboxRead := k.mboxRead.filter (· ≠ t) })).wake (.user c t)
        (fun th => { th.put32 dst v false with mv := th.mv.raise (s.core c).agentFloor })
    else s
  | _ => s

/-- Have the store queues of a core's agent, all 64 lanes, drained (R312)? -/
def Core.agentDrained (k : Core) : Bool := allLanes.all (fun l => (k.thread (supKey l)).storeQ.isEmpty)

def laneMbrpl (f : Fields) (h : Hart) (s : State) : Res :=
  guardOps s h [(f.b, .pair)] <| firstTrap [poisonTrap [(s.opPoison h f.b .pair, 1)]] <|
    match h.core? with
    | none => .ok s
    | some c =>
      if !(s.core c).agentDrained then .stall s
      else
        let v := s.opPair h f.b
        .ok (s.replyMbox c (bget v 32 10) v.lo)

/-! ## ERET and TLBI (R337, R338) -/

def laneEret (s : State) : Res := .jump s.returnMgmt s.mgmt.thread.epc

/-- Start an invalidation once earlier accesses are performed; the next try ends it when its drain has ended. -/
def tlbiGo (kind : TlbiKind) (addr : BitVec 64) (ctx : BitVec 16) (h : Hart) (s : State) : Res :=
  match s.drainOf (.hart h) with
  | some d => if s.drained d then .ok (s.dropDrain (.hart h)) else .stall s
  | none =>
    if !s.orderHome h then .stall s
    else
      let t := s.startDrain (.hart h) kind addr ctx
      match t.drainOf (.hart h) with
      | some d => if t.drained d then .ok (t.dropDrain (.hart h)) else .stall t
      | none => .ok t

def laneTlbi (kind : TlbiKind) (f : Fields) (h : Hart) (s : State) : Res :=
  let aw : List OpUse := if kind = .page then [(f.a, .pair)] else []
  let bw : List OpUse := if kind = .all then [] else [(f.b, .w32)]
  guardOps s h (aw ++ bw) <|
    let addr : BitVec 64 := if kind = .page then s.opPair h f.a else 0
    firstTrap [(kind = .page && outOfRange addr, .addrRange, addr),
        poisonTrap [(kind = .page && s.opPoison h f.a .pair, 0), (kind ≠ .all && s.opPoison h f.b .w32, 1)]] <|
      tlbiGo kind addr ((s.op32 h f.b).setWidth 16) h s

/-! ## Items of a thread's state (Tables 17-5, 23-2) -/

/-- The number of item 0x300. -/
def Thread.stateNum (th : Thread) : Nat :=
  if th.stopped then 3
  else match th.run with
    | .ready => 0 | .parked _ => 1 | .trapped => 2 | .exited => 4

def phaseNum : SavePhase → Nat
  | .none => 0 | .inside => 1 | .finished => 2

/-- Value words of a latch: an empty one gives what WRTH has left there. -/
def Thread.latchWord (th : Thread) (k : Nat) (high : Bool) : Word :=
  match th.latch k with
  | some l => if high then l.val.hi else l.val.lo
  | none => mget 0 th.rearm ((if high then 0x208 else 0x200) + k)

/-- An item as RDTH returns it, for a thread of the workgroup with `regs` registers. -/
def Thread.item (th : Thread) (regs : Nat) (trqPos : Option Nat) (i : Nat) : Word :=
  if i < 0x100 then (if i < regs then th.reg i else 0)
  else if i < 0x200 then (if i - 0x100 < regs then BitVec.ofNat 32 (bit (th.regPoison (i - 0x100))) else 0)
  else if i < 0x208 then th.latchWord (i - 0x200) false
  else if i < 0x210 then th.latchWord (i - 0x208) true
  else if i < 0x218 then
    match th.latch (i - 0x210) with
    | none => 1
    | some l => bputs 0 [(1, 1, bit l.wide), (2, 1, bit l.poison)]
  else if 0x400 ≤ i && i < 0x410 then th.waitWord (i - 0x400)
  else if 0x420 ≤ i && i < 0x440 then
    match mget none th.arrive (i - 0x420) with
    | none => 0
    | some p => bputs 0 [(0, 16, p.toNat), (16, 1, 1)]
  else if 0x440 ≤ i && i < 0x460 then
    let b := i - 0x440
    let lv := mget none th.barLvl b
    bputs 0 [(0, 16, (mget 0 th.seen b).toNat), (16, 4, lv.getD 0), (20, 1, bit lv.isSome)]
  else match i with
    | 0x300 => BitVec.ofNat 32 th.stateNum
    | 0x301 => loW th.pc
    | 0x302 => wordAt th.pc 1
    | 0x303 => th.fmode.setWidth 32
    | 0x304 => th.flags.setWidth 32
    | 0x305 => th.qpct.setWidth 32
    | 0x306 => th.cause
    | 0x307 => loW th.epc
    | 0x308 => wordAt th.epc 1
    | 0x309 => loW th.tval
    | 0x30A => wordAt th.tval 1
    | 0x30B => th.engFlags.setWidth 32
    | 0x30C => th.failWord
    | 0x410 => match trqPos with
      | some p => BitVec.ofNat 32 p
      | none => 0xFFFFFFFF
    | 0x411 => if th.save.phase = .none then 0 else bputs 0 [(0, 2, phaseNum th.save.phase), (8, 8, th.save.entry)]
    | 0x412 => loW th.save.resume
    | 0x413 => wordAt th.save.resume 1
    | 0x414 => loW th.save.area
    | 0x415 => wordAt th.save.area 1
    | _ => 0

/-- In which states of the target a WRTH of an item takes effect. -/
def itemWritable (i : Nat) (n : Nat) : Bool :=
  if i < 0x200 || (0x303 ≤ i && i ≤ 0x305) then n = 1 || n = 2 || n = 3
  else if 0x306 ≤ i && i ≤ 0x30A then n = 2 || n = 3
  else if i = 0x300 then false
  else n = 3

/-- The low or the high half of a 64-bit register replaced. -/
def setHalf (old : BitVec 64) (high : Bool) (v : Word) : BitVec 64 :=
  if high then pairOf (Pair.lo old) v else pairOf v (Pair.hi old)

def Thread.setLatch (th : Thread) (k : Nat) (l : Option Latch) : Thread := { th with latches := th.latches.set k l }

/-- A value word of a latch; that of an empty latch is kept until the latch is filled. -/
def Thread.setLatchWord (th : Thread) (k : Nat) (high : Bool) (v : Word) : Thread :=
  match th.latch k with
  | some l => th.setLatch k (some { l with val := setHalf l.val high v })
  | none => { th with rearm := mset 0 th.rearm ((if high then 0x208 else 0x200) + k) v }

/-- The markers of a latch: empty, width, poison. -/
def Thread.setLatchMark (th : Thread) (k : Nat) (v : Word) : Thread :=
  let val := pairOf (th.latchWord k false) (th.latchWord k true)
  if v.getLsbD 0 then
    { th.setLatch k none with rearm := mset 0 (mset 0 th.rearm (0x200 + k) val.lo) (0x208 + k) val.hi }
  else th.setLatch k (some ⟨val, v.getLsbD 1, v.getLsbD 2⟩)

/-- A WRTH of an item of the thread itself, by the fields' access codes. -/
def Thread.setItem (th : Thread) (regs : Nat) (i : Nat) (v : Word) : Thread :=
  if i < 0x100 then (if i < regs then { th with regs := mset 0 th.regs i v } else th)
  else if i < 0x200 then
    (if i - 0x100 < regs then { th with poison := mset false th.poison (i - 0x100) (v.getLsbD 0) } else th)
  else if i < 0x208 then th.setLatchWord (i - 0x200) false v
  else if i < 0x210 then th.setLatchWord (i - 0x208) true v
  else if i < 0x218 then th.setLatchMark (i - 0x210) v
  else if 0x400 ≤ i && i < 0x410 then th.setWaitWord (i - 0x400) v
  else if 0x420 ≤ i && i < 0x440 then
    { th with arrive := mset none th.arrive (i - 0x420) (if v.getLsbD 16 then some (v.setWidth 16) else none) }
  else if 0x440 ≤ i && i < 0x460 then
    { th with seen := mset 0 th.seen (i - 0x440) (v.setWidth 16)
              barLvl := mset none th.barLvl (i - 0x440) (if v.getLsbD 20 then some (bget v 16 4) else none) }
  else match i with
    | 0x301 => { th with pc := setHalf th.pc false v &&& ~~~(1 : BitVec 64) }
    | 0x302 => { th with pc := setHalf th.pc true v }
    | 0x303 => { th with fmode := v.setWidth 3 }
    | 0x304 => { th with flags := v.setWidth 7 }
    | 0x305 => { th with qpct := qpctOf v }
    | 0x306 => { th with causeCode := v.setWidth 8 }
    | 0x307 => { th with epc := codeAddr (setHalf th.epc false v) }
    | 0x308 => { th with epc := codeAddr (setHalf th.epc true v) }
    | 0x309 => { th with tval := setHalf th.tval false v }
    | 0x30A => { th with tval := setHalf th.tval true v }
    | 0x30B => { th with engFlags := v.setWidth 7 }
    | 0x30C => { th with fail := v.getLsbD 31, failToken := BitVec.ofNat 16 (bget v 8 16), failCode := v.setWidth 8 }
    | 0x411 => { th with save := { th.save with
        phase := match bget v 0 2 with
          | 1 => .inside
          | 2 => .finished
          | _ => .none
        entry := bget v 8 8 } }
    | 0x412 => { th with save := { th.save with resume := setHalf th.save.resume false v } }
    | 0x413 => { th with save := { th.save with resume := setHalf th.save.resume true v } }
    | 0x414 => { th with save := { th.save with area := setHalf th.save.area false v } }
    | 0x415 => { th with save := { th.save with area := setHalf th.save.area true v } }
    | _ => th

/-- The place in TRQ that a WRTH gave a thread, kept until its WAKE; else the place `i` where it stands. -/
def Core.trqPlace (k : Core) (t i : Nat) : Nat :=
  let v : Word := mget 0 (k.thread t).rearm 0x410
  if v = 0 then i else v.toNat - 1

/-- A written place in TRQ: the thread is Trapped again and queued in the order of the places that the save recorded, in whatever order
they are written (R49). -/
def Core.queueTrap (k : Core) (t : Nat) (v : Word) : Core :=
  let k := k.unqueue (· == t)
  if v = 0xFFFFFFFF then k
  else
    let rest := k.trq
    let before := (rest.zipIdx.takeWhile (fun p => k.trqPlace p.1 p.2 < v.toNat)).length
    { k.modThread t (fun th => { th with run := .trapped, causeActive := true, rearm := mset 0 th.rearm 0x410 (v + 1) }) with
      trq := rest.take before ++ [t] ++ rest.drop before, trqOld := rest.length + 1 }

/-- A written CAUSE; one with ACTIVE set, of a workgroup under restore, puts its thread back in Trapped, also where it had
already left TRQ (R49, log 92). -/
def Core.restoreCause (k : Core) (t : Nat) (v : Word) : Core :=
  let back := v.getLsbD 31 && (k.thread t).stopped && (k.thread t).run == .ready && match k.wg with
    | some w => w.restoring
    | none => false
  if back then k.modThread t (fun th => { th with run := .trapped, causeActive := true }) else k

/-- The workgroup's register count, where the thread exists. -/
def Core.target (k : Core) (t : Nat) : Option Workgroup := if k.hasThread t then k.wg else none

/-- Is a save of the workgroup under way that may not capture a thread yet: its store queue, an engine operation of the
workgroup, or its claim of the dispenser still in flight (R218, R310, log 95)? -/
def Core.captureHeld (k : Core) (w : Workgroup) (t : Nat) : Bool :=
  let th := k.thread t
  let saving := match w.preempt with
    | .armed | .forced _ => true
    | .none | .deferring => false
  saving && th.stopped && (!th.storeQ.isEmpty || !k.tasks.isEmpty || !k.ops.isEmpty || th.claiming)

/-- Does an unanswered load from a peer module hold the capture of a stopped thread of the executing core (R218)? -/
def State.saveHolds (s : State) (h : Hart) (t : Nat) : Bool :=
  match h.core? with
  | some c => ((s.core c).thread t).stopped && s.io.peers.any (fun r => r.h == .user c t)
  | none => false

def laneRdth (f : Fields) (h : Hart) (s : State) : Res :=
  guardOps s h ([(f.b, .w32), (f.c, .w32)] ++ f.dst .w32) <|
    firstTrap [poisonTrap [(s.opPoison h f.b .w32, 1), (s.opPoison h f.c .w32, 2)]] <|
      let k := s.coreOf h
      let t := (s.op32 h f.b).toNat % 1024
      let i := (s.op32 h f.c).toNat % 4096
      match k.target t with
      | some w =>
        if i ≠ 0x300 && (k.captureHeld w t || s.saveHolds h t) then .stall s
        else .ok (s.put32 h f.dest ((k.thread t).item w.regs (k.trq.findIdx? (· == t)) i) false)
      | none => .ok (s.put32 h f.dest (if i = 0x300 then 5 else 0) false)

def laneWrth (f : Fields) (h : Hart) (s : State) : Res :=
  let d : Opd := .reg f.d
  guardOps s h [(f.b, .w32), (f.c, .w32), (d, .w32)] <|
    firstTrap [poisonTrap [(s.opPoison h f.b .w32, 1), (s.opPoison h f.c .w32, 2), (s.opPoison h d .w32, 3)]] <|
      let k := s.coreOf h
      let t := (s.op32 h f.b).toNat % 1024
      let i := (s.op32 h f.c).toNat % 4096
      let v := s.op32 h d
      .ok (match k.target t, h.core? with
        | some w, some c =>
          if itemWritable i (k.thread t).stateNum then
            s.modCore c (fun k => if i = 0x410 then k.queueTrap t v
              else
                let k := k.modThread t (·.setItem w.regs i v)
                if i = 0x306 then k.restoreCause t v else k)
          else s
        | _, _ => s)

/-! ## WAKE and PARK (R340, R413) -/

/-- Entries that the save held for the workgroup on a core are bound to it, and their PEND joins C (R355). The arrivals that PEND
counted are releases at sys scope of all that has been performed, as direct ones are (R214, R216). -/
def State.bindHeld (s : State) (c : Nat) (entries : List Nat) : State :=
  entries.foldl (fun s n =>
    let e := s.irq n
    if IrqF.state e = 2 then
      let b := 24 + IrqF.bar e
      let x := s.barrier c b 0
      (s.setIrq n (bputs e [(60, 2, 1), (12, 16, 0), (4, 8, c)])).advanceBarrier c b 0
        { x with phase := x.phase + BitVec.ofNat 16 (IrqF.pend e), doneView := if IrqF.pend e = 0 then x.doneView else s.instant }
    else s) s

/-- The entries that are held for a position of a resumed launch. -/
def State.heldEntries (s : State) (w : Workgroup) : List Nat :=
  match s.grantOf w with
  | some g => ((g.heldIrqs.filter (fun p => p.1 == w.cy * 16 + w.cx)).map (·.2)).flatten
  | none => []

/-- A thread that was stopped while its claim of the dispenser was answered takes its chunk (R310). -/
def State.takeAnswer (s : State) (h : Hart) : State :=
  match (s.thread h).run with
  | .parked (.tdispDone start stop d) => s.wake h (·.takeChunk d start stop)
  | _ => s

/-- The steps of R413 that come before the first WAKE of a restored workgroup: its held interrupt entries are bound, and the mailbox
requests that were not read are posted. -/
def State.beforeWake (s : State) (c : Nat) (w : Workgroup) : State :=
  if w.restoring then (s.bindHeld c (s.heldEntries w)).postKept c w else s

/-- A Stopped thread goes back to the state from which it was stopped; one whose save routine had finished starts at
RESTORE (R314), a wait that was written is armed again (R406), and one restored inside its save routine goes on with it (R315). -/
def State.wakeStopped (s : State) (c t : Nat) (w : Workgroup) : State :=
  let h : Hart := .user c t
  let s := s.beforeWake c w
  let th := s.thread h
  let s := s.modThread h (fun th => { th with
    stopped := false, age := 0, save := { th.save with again := th.save.again || (w.restoring && th.save.phase == .inside) } })
  let s := if th.save.phase = .finished then s.modThread h (fun th => (th.startRestore w).noRearm)
    else if th.waitWritten && th.run ≠ .exited then s.rearm c t
    else (s.modThread h (·.noRearm)).takeAnswer h
  s.modCore c (fun k => { k with wg := k.wg.map (fun w =>
    if (List.range w.nth).any (fun t => (k.thread t).stopped) then w else { w with restoring := false }) })

def State.wakeThread (s : State) (c t : Nat) (w : Workgroup) : State :=
  let h : Hart := .user c t
  let th := s.thread h
  if w.killed then s
  else if th.stopped then s.wakeStopped c t w
  else if th.run = .trapped then
    s.modCore c (fun k => (k.modThread t (fun th => { th.noRearm with run := .ready, causeActive := false, pc := th.epc, age := 0 })).unqueue
      (· == t))
  else s

def State.parkThread (s : State) (c t : Nat) : State :=
  let th := s.thread (.user c t)
  if th.stopped || th.run = .exited then s
  else (s.modThread (.user c t) (fun th => { th with stopped := true })).dropFetches (· == .user c t)

/-- WAKE and PARK of the thread that b names. -/
def laneTarget (act : Nat → Nat → Workgroup → State → State) (f : Fields) (h : Hart) (s : State) : Res :=
  guardOps s h [(f.b, .w32)] <| firstTrap [poisonTrap [(s.opPoison h f.b .w32, 1)]] <|
    let t := (s.op32 h f.b).toNat % 1024
    .ok (match (s.coreOf h).target t, h.core? with
      | some w, some c => act c t w s
      | _, _ => s)

/-! ## IRQB (R354) -/

/-- The reason of a refusal, 0 for none. -/
def irqbReason (s : State) (c : Nat) (n : Nat) (bindTo : Option Nat) : Nat :=
  let e := s.irq n
  let x := (s.core c).ctxid.toNat
  if 4095 < n then 1
  else if !(IrqF.v e) then 2
  else if (s.core c).wg.isNone || x = 0 || IrqF.ctx e ≠ x then 3
  else match bindTo with
    | some k =>
      if k < 24 || 31 < k then 5
      else if IrqF.state e ≠ 0 && (IrqF.core e ≠ c || IrqF.bar e ≠ k - 24) then 4
      else 0
    | none => if IrqF.state e ≠ 1 || IrqF.core e ≠ c then 6 else 0

def laneIrqb (isBind : Bool) (f : Fields) (h : Hart) (s : State) : Res :=
  let cw : List OpUse := if isBind then [(f.c, .w32)] else []
  guardOps s h ([(f.b, .w32)] ++ cw ++ f.dst .w32) <|
    firstTrap [poisonTrap [(s.opPoison h f.b .w32, 1), (isBind && s.opPoison h f.c .w32, 2)]] <|
      let n := (s.op32 h f.b).toNat
      let k := (s.op32 h f.c).toNat
      match h.core? with
      | none => .ok s
      | some c =>
        let r := irqbReason s c n (if isBind then some k else none)
        if r = 0 then
          let s := if isBind then (s.dropHeld n).setIrq n (bputs (s.irq n) [(60, 2, 1), (4, 8, c), (1, 3, k - 24)]) else s.unbindIrq n
          .ok (s.put32 h f.dest 0 false)
        else .ok (s.put32 h f.dest (BitVec.ofNat 32 (r * 2 ^ 28 + n % 4096 * 65536 + 0xC1)) false)

/-! ## BIND (R269, R270, R275, R342) -/

/-- Bits 67:64, 60:36 and 1:0. -/
def bindReserved (r : BitVec 128) : Bool := bget r 64 4 ≠ 0 || bget r 36 25 ≠ 0 || bget r 0 2 ≠ 0

def State.bindFormed (s : State) (r : BitVec 128) : Bool :=
  BR.bwl r ≤ 4 && BR.bhl r ≤ 4 && BR.bx r % 2 ^ BR.bwl r = 0 && BR.by_ r % 2 ^ BR.bhl r = 0 && (s.qDesc? (BR.qid r)).isSome

/-- The status of a write of record `k`. -/
def State.bindStatus (s : State) (k : Nat) (r : BitVec 128) : Nat :=
  let old := (s.slot k).bindRec
  let granted := match (s.slot k).grant with
    | some g => g.launch
    | none => false
  if 63 < k then 4
  else if !BR.v r then (if granted then 3 else 0)
  else if !s.bindFormed r || bindReserved r || BR.act r = 3
    || (match s.qDesc? (BR.qid r) with
        | some d => QD.ctx s d = 0
        | none => true) then 1
  else match s.slotOfQueue? (BR.qid r) with
    | some k' => if k' ≠ k then 2 else if granted && bindMoved r old then 3 else 0
    | none => if granted && bindMoved r old then 3 else 0
where
  bindMoved (r old : BitVec 128) : Bool :=
    BR.qid r ≠ BR.qid old || BR.bx r ≠ BR.bx old || BR.by_ r ≠ BR.by_ old || BR.bwl r ≠ BR.bwl old || BR.bhl r ≠ BR.bhl old
      || BR.gang r ≠ BR.gang old

/-- A slot's fetch ends with its binding: nothing waits for its page any more. -/
def State.dropFetch (s : State) (k : Nat) : State :=
  (s.modSlot k (fun sl => { sl with window := [], fetchFault := false })).modIo (fun io =>
    { io with migs := io.migs.map (fun m => { m with waiters := m.waiters.filter (· ≠ .slot k) }) })

/-- Write a record; a slot that changes its queue starts with an empty fetch window, and the events it held for the old one are kept
for the BIND that next names that (R278). -/
def State.writeBindRec (s : State) (k : Nat) (r : BitVec 128) : State :=
  let old := (s.slot k).bindRec
  let s := if BR.v old && (!BR.v r || BR.qid old ≠ BR.qid r) then s.unbindErrors k else s
  let s := if !BR.v r || !BR.v old || BR.qid old ≠ BR.qid r then s.dropFetch k else s
  s.modSlot k (fun sl => { sl with bindRec := if BR.v r then r else 0, noticed := false })

/-- BIND's write. From the Summer stage on the record takes effect at once, and a slot that is pending under another queue, or was not
pending before, counts from now (R273); before it takes effect with that stage (R422). -/
def State.writeBind (s : State) (k : Nat) (r : BitVec 128) : State :=
  let t := s.writeBindRec k r
  if s.mgmt.stage ≠ .summer then t
  else
    let t := t.takeRecord k
    if BR.qid (s.slot k).bindRec ≠ BR.qid r && t.slotPending k then t.stampSlot k else t.stampPending s

def laneBind (f : Fields) (h : Hart) (s : State) : Res :=
  guardOps s h ([(f.a, .quad), (f.b, .w32)] ++ f.dst .w32) <|
    firstTrap [poisonTrap [(s.opPoison h f.a .quad, 0), (s.opPoison h f.b .w32, 1)]] <|
      if !s.storesHome h then .stall s
      else
        let r := s.opQuad h f.a
        let k := (s.op32 h f.b).toNat
        let st := s.bindStatus k r
        let s := if st = 0 then s.writeBind k r else s
        .ok (s.put32 h f.dest (BitVec.ofNat 32 st) false)

/-! ## SELFT (R343) -/

/-- Is the index of an identifier in range for its KIND? Unassigned bits must be zero (log 30). -/
def selftIndexOk (kind idx : Nat) : Bool :=
  match kind with
  | 0 => idx / 4096 < 192 && idx / 1024 % 4 = 0
  | 1 => idx / 1024 % 4 = 0
  | 2 => idx / 64 % 64 = 0 && (idx / 2 ^ 19 = 0 || idx / 4096 % 128 < 16)
  | 3 => idx < 64
  | 4 => idx / 65536 < 12 && idx % 1024 = 0
  | 5 => true
  | _ => false

def laneSelft (f : Fields) (h : Hart) (s : State) : Res :=
  guardOps s h ([(f.b, .w32), (f.c, .w32)] ++ f.dst .w32) <|
    firstTrap [poisonTrap [(s.opPoison h f.b .w32, 1), (s.opPoison h f.c .w32, 2)]] <|
      let id := s.op32 h f.b
      let kind := bget id 28 4
      let refused := !selftIndexOk kind (bget id 0 20) || (match h.core? with
        | some c => kind = 4 || kind = 5 || bget id 20 8 ≠ c
        | none => false)
      if refused then .ok (s.put32 h f.dest 2 false)
      else
        let (bad, s) := s.freeBit
        .ok (s.put32 h f.dest (if bad then 1 else 0) false)

/-! ## The instructions -/

/-- Any opcode, OPW value or class 111 encoding that is not assigned, and any encoding that R65 refuses, raises UND. -/
def execUnassignedOpcode (first : Word) (s : State) : Host.Outcome State Fault Refusal :=
  .next (let h := agentHart s.cur
    s.takeTrap h .und (first.setWidth 64) (s.pc h))

def execRdsr (f : DF) (sr : BitVec 12) (s : State) : Host.Outcome State Fault Refusal :=
  issue 0 .all (.rdsr f sr) (laneRdsr f.fields sr.toNat (Instr.rdsr f sr).first32) s
def execWrsr (f : DF) (sr : BitVec 12) (s : State) : Host.Outcome State Fault Refusal :=
  issue 0 .all (.wrsr f sr) (laneWrsr f.fields sr.toNat (Instr.wrsr f sr).first32) s
def execTrqRead (f : DF) (s : State) : Host.Outcome State Fault Refusal := issue 1 .compute (.trqRead f) (laneTrqRead f.fields) s
def execMboxRead (f : DF) (s : State) : Host.Outcome State Fault Refusal := issue 1 .compute (.mboxRead f) (laneMboxRead f.fields) s
def execMbrplWrite (f : DF) (s : State) : Host.Outcome State Fault Refusal := issue 1 .compute (.mbrplWrite f) (laneMbrpl f.fields) s
def execEret (f : DF) (s : State) : Host.Outcome State Fault Refusal := issue 2 .all (.eret f) (fun _ s => laneEret s) s
def execTlbiPage (f : DF) (s : State) : Host.Outcome State Fault Refusal := issue 1 .all (.tlbiPage f) (laneTlbi .page f.fields) s
def execTlbiCtx (f : DF) (s : State) : Host.Outcome State Fault Refusal := issue 1 .all (.tlbiCtx f) (laneTlbi .ctx f.fields) s
def execTlbiAll (f : DF) (s : State) : Host.Outcome State Fault Refusal := issue 1 .all (.tlbiAll f) (laneTlbi .all f.fields) s
def execRdth (f : DF) (s : State) : Host.Outcome State Fault Refusal := issue 1 .compute (.rdth f) (laneRdth f.fields) s
def execWrth (f : DF) (s : State) : Host.Outcome State Fault Refusal := issue 1 .compute (.wrth f) (laneWrth f.fields) s
def execWake (f : DF) (s : State) : Host.Outcome State Fault Refusal :=
  issue 1 .compute (.wake f) (laneTarget (fun c t w s => s.wakeThread c t w) f.fields) s
def execPark (f : DF) (s : State) : Host.Outcome State Fault Refusal :=
  issue 1 .compute (.park f) (laneTarget (fun c t _ s => s.parkThread c t) f.fields) s
def execIrqbBind (f : DF) (s : State) : Host.Outcome State Fault Refusal := issue 1 .compute (.irqbBind f) (laneIrqb true f.fields) s
def execIrqbUnbind (f : DF) (s : State) : Host.Outcome State Fault Refusal :=
  issue 1 .compute (.irqbUnbind f) (laneIrqb false f.fields) s
def execBind (f : DF) (s : State) : Host.Outcome State Fault Refusal := issue 2 .all (.bind f) (laneBind f.fields) s
def execSelft (f : DF) (s : State) : Host.Outcome State Fault Refusal := issue 1 .all (.selft f) (laneSelft f.fields) s

end Sys2Proof.Machine
end

