-- ==== Sys2Proof/Machine/Scheduler.lean ====
section
/-! DEFINITION. The hardware queue scheduler (12_scheduling R264–R289): doorbell values, the fetch window, grants,
verdicts, the start and the end of workgroups and launches, and pre-emption. What a supervisor agent does by instructions of its own firmware (claims, verdicts, EXITS, completion writes) is no event here. -/

namespace Sys2Proof.Machine

/-! ## Command packets (Table 12-2) -/

namespace Pk
def kind (p : BitVec 512) : Nat := bget p 0 8
def wlog (p : BitVec 512) : Nat := bget p 16 4
def hlog (p : BitVec 512) : Nat := bget p 20 4
def carve (p : BitVec 512) : Nat := bget p 24 2
def chunk (p : BitVec 512) : Nat := bget p 32 32
def kaddr (p : BitVec 512) : BitVec 64 := p.extractLsb' 64 64
def args (p : BitVec 512) : BitVec 64 := p.extractLsb' 128 64
def extx (p : BitVec 512) : Nat := bget p 192 20
def exty (p : BitVec 512) : Nat := bget p 224 20
def extz (p : BitVec 512) : Nat := bget p 256 20
def caddr (p : BitVec 512) : BitVec 64 := p.extractLsb' 320 64

/-- Reserved fields. -/
def reserved (p : BitVec 512) : Bool :=
  bget p 448 64 ≠ 0 || bget p 276 44 ≠ 0 || bget p 244 12 ≠ 0 || bget p 212 12 ≠ 0 || bget p 26 6 ≠ 0 || bget p 8 8 ≠ 0

/-- Does an address field break its alignment or range? -/
def badAddr (a : BitVec 64) (align : Nat) : Bool := a.toNat % align ≠ 0 || outOfRange a

/-- Step 2 of R277: PACKET_MALFORMED. -/
def malformed (p : BitVec 512) : Bool :=
  reserved p || match kind p with
    | 0 => p ≠ 0
    | 1 => 4 < wlog p || 4 < hlog p || carve p = 3 || badAddr (kaddr p) 64 || badAddr (args p) 16 || badAddr (caddr p) 8
        || chunk p = 0 || 2 ^ 20 < chunk p
    | 2 => bget p 8 312 ≠ 0 || caddr p = 0 || badAddr (caddr p) 8
    | _ => true

/-- Is CADDR valid: 8-byte aligned, bits 63:60 zero, not 0? -/
def caddrValid (p : BitVec 512) : Bool := caddr p ≠ 0 && !badAddr (caddr p) 8

def dispenser (p : BitVec 512) : Dispenser := ⟨extx p + 1, exty p + 1, extz p + 1, chunk p, 0⟩
end Pk

/-! ## Queue errors (R266, R267, R278) -/

/-- ECODE and ESEQ of an event; those of the error that stopped the queue stay (R266). -/
def State.recordError (s : State) (d code seq : Nat) : State := if QD.err s d then s else QD.setError s d code seq

/-- The scheduler records ECODE and ESEQ, sets ERR, and posts the event at once, holds it, or keeps it for the BIND that
next names the queue. A queue already stopped keeps its error (R266). -/
def State.queueError (s : State) (q d : Nat) (c : Cause) (seq : Nat) : State :=
  if QD.err s d then s
  else
    let s := QD.setError (QD.setStatus s d true (QD.hstate s d)) d c.code.toNat seq
    match s.slotOfQueue? q with
    | some k => s.deferQueueError k (BitVec.ofNat 16 (QD.ctx s d))
    | none => s.modSched (fun sc => { sc with qerrUnbound := mset 0 sc.qerrUnbound q (mget 0 sc.qerrUnbound q + 1) })

/-- QUEUE_ERROR_EVENT_POST: a held event goes out once the pending verdict has been written. -/
def execQueueErrorEventPost (slot : Nat) (s : State) : Host.Outcome State Fault Refusal :=
  .next (match (s.slot slot).qerrHeld with
    | x :: rest =>
      if (s.slot slot).awaits then s
      else (s.modSlot slot (fun sl => { sl with qerrHeld := rest })).postQueueError slot x
    | [] => s)

/-! ## Pending slots and their demands (R272) -/

/-- The head packet in a slot's window, where it has been fetched. -/
def State.head? (s : State) (k : Nat) : Option Fetched :=
  match s.qDesc? (BR.qid (s.slot k).bindRec) with
  | some d => (s.slot k).window.find? (fun f => f.seq.toNat == QD.ridx s d)
  | none => none

/-- The saved head launch of a queue. -/
def State.savedLaunch (s : State) (q : Nat) : Option SavedLaunch :=
  match s.qDesc? q with
  | some d => if QD.hstate s d = 2 then mget none s.sched.saved q else none
  | none => none

/-- The demand of a slot: a rectangle of 2^W × 2^H cores, or the origin agent alone (`none` inside); unknown until the
head has been fetched. -/
def State.demand (s : State) (k : Nat) : Option (Option (Nat × Nat)) :=
  match s.head? k with
  | none => none
  | some f => match s.savedLaunch (BR.qid (s.slot k).bindRec) with
    | some l => some (some (l.wlog, l.hlog))
    | none =>
      if Pk.kind f.bits = 1 && Pk.wlog f.bits ≤ 4 && Pk.hlog f.bits ≤ 4 then some (some (Pk.wlog f.bits, Pk.hlog f.bits))
      else some none

/-- The cores of a rectangle, by position. -/
def rectCores (x0 y0 wlog hlog : Nat) : List Nat :=
  (List.range (2 ^ hlog)).flatMap (fun y => (List.range (2 ^ wlog)).map (fun x => 16 * (y0 + y) + (x0 + x)))

/-- The cores that a slot's rectangle demand covers. -/
def State.demandCores (s : State) (k : Nat) : List Nat :=
  let r := (s.slot k).bindRec
  match s.demand k with
  | some (some (w, h)) => rectCores (BR.bx r) (BR.by_ r) w h
  | _ => []

/-- Cores held by any slot (R272). -/
def State.heldCores (s : State) : List Nat :=
  allSlots.flatMap (fun k => match (s.slot k).grant with
    | some g => g.held
    | none => [])

/-- Can no record change but a rewrite make the demand grantable: larger than its region, or over a retired core? -/
def State.demandBlocked (s : State) (k : Nat) : Bool :=
  let r := (s.slot k).bindRec
  match s.demand k with
  | some (some (w, h)) => BR.bwl r < w || BR.bhl r < h || (s.demandCores k).any (fun c => (s.core c).status == .retired)
  | _ => false

/-- May the demand be granted now (R273)? -/
def State.grantable (s : State) (k : Nat) : Bool :=
  s.slotPending k && (s.demand k).isSome && !s.demandBlocked k && (s.demandCores k).all (fun c => !s.heldCores.contains c)

/-- The order of R273 among competing slots. -/
def State.goesFirst (s : State) (k k' : Nat) : Bool :=
  let p := BR.prio (s.slot k).bindRec
  let p' := BR.prio (s.slot k').bindRec
  let t := (s.slot k).since
  let t' := (s.slot k').since
  p' < p || (p = p' && (t < t' || (t = t' && k < k')))

/-- Does a slot that goes first compete for the same cores? -/
def State.outranked (s : State) (k : Nat) : Bool :=
  let cs := s.demandCores k
  allSlots.any (fun k' => k' ≠ k && s.grantable k' && s.goesFirst k' k && (s.demandCores k').any cs.contains)

/-! ## Granting (R276) -/

/-- The packet in a slot's area: a poisoned one is copied with its marks (R389); nothing is written outside installed memory (R253). -/
def State.writePacket (s : State) (k : Nat) (f : Fetched) : State :=
  if s.unitReaches (s.slotArea k + 64) then s.homeAccess 0 (fullBytes (s.slotArea k + 64) (natBytes 64 f.bits.toNat)) f.poison { sched := true } else s

/-- The position of a core in a launch's rectangle, as a number. -/
def positionOf (x0 y0 c : Nat) : Nat := 16 * (c / 16 - y0) + (c % 16 - x0)

/-- Grant a slot's demand: PACKET, CTX, placement, SEQ, CLAIM and EXITS are written, and a slot event goes to every
demanded core. -/
def State.grantSlot (s : State) (k : Nat) (f : Fetched) (dm : Option (Nat × Nat)) : State :=
  let r := (s.slot k).bindRec
  let q := BR.qid r
  match s.qDesc? q with
  | none => s
  | some d =>
    let ctx := QD.ctx s d
    let saved := s.savedLaunch q
    let (w, h) := dm.getD (0, 0)
    let x0 := BR.bx r
    let y0 := BR.by_ r
    let a := s.slotArea k
    let s := s.writePacket k f
    let own : Origin := { sched := true }
    let s := s.unitWrite 0 (a + 24) (natBytes 4 (x0 + 16 * y0 + 256 * w + 2048 * h + 65536 * ctx)) own
    let s := s.unitWrite 0 a (natBytes 4 0 ++ natBytes 4 f.seq.toNat) own
    let s := s.unitWrite 0 (a + 8) (natBytes 4 (match saved with
      | some l => l.exits.toNat
      | none => 0)) own
    let s := QD.setStatus s d (QD.err s d) 1
    let cores := if dm.isSome then rectCores x0 y0 w h else []
    let ended : List Nat := match saved with
      | some l => l.ended
      | none => []
    let isOver (c : Nat) : Bool := ended.contains (positionOf x0 y0 c)
    let base : Grant :=
      { launch := dm.isSome, x0, y0, wlog := w, hlog := h, seq := f.seq, qid := BitVec.ofNat 16 q, ctx := BitVec.ofNat 16 ctx
        n := if dm.isSome then 2 ^ (w + h) else 1
        held := cores.filter (fun c => !isOver c), disp := Pk.dispenser f.bits }
    let g : Grant := match saved with
      | some l => { base with disp := l.disp, bars := l.bars, ended := l.ended, exitedAt := l.exitedAt, heldIrqs := l.heldIrqs, kept := l.kept
                              resumed := true, verdictDone := true }
      | none => base
    let s := s.modSched (fun sc => { sc with saved := mset none sc.saved q none })
    let s := s.modSlot k (fun sl => { sl with grant := some g, areaOf := some g.qid, expired := false })
    (if dm.isSome then cores else [originCore r]).foldl (fun s c =>
      s.modCore c (·.post (if saved.isSome then .restore k f.seq (isOver c) else .slotEvent k f.seq false))) s

/-- SLOT_GRANT: in the order of R273, and from the Summer stage on (R422). -/
def execSlotGrant (slot : Nat) (s : State) : Host.Outcome State Fault Refusal :=
  .next (if s.mgmt.stage ≠ .summer || 64 ≤ slot || !s.slotPending slot then s
    else match s.head? slot, s.demand slot with
      | some f, some dm =>
        if s.demandBlocked slot then
          if (s.slot slot).noticed then s
          else (s.emit (.slotNotice slot)).modSlot slot (fun sl => { sl with noticed := true })
        else if !s.grantable slot || (dm.isSome && s.outranked slot) then s
        else s.grantSlot slot f dm
      | _, _ => s)

/-! ## Doorbell values (R266, R270) -/

/-- A doorbell value for a queue. R270 speaks of every doorbell on an unbound queue, so the pending bit is set and the notice posted for
a value that otherwise does nothing, or is dropped, as well (DESIGN CHOICE, log 113). -/
def State.ringQueue (s : State) (q w : Nat) : State :=
  match s.qDesc? q with
  | none => s.logRaw { ev := 0x0D, value := BitVec.ofNat 64 q }
  | some d =>
    let was := s
    let dist := (w + 2 ^ 32 - QD.widx s d) % 2 ^ 32
    let room := 2 ^ QD.sizelog s d - (QD.widx s d + 2 ^ 32 - QD.ridx s d) % 2 ^ 32
    let s :=
      if dist = 0 then s
      else if dist ≤ room then QD.setWidx s d w
      else if QD.err s d then s.logRaw { ev := 0x0D, value := BitVec.ofNat 64 q }
      else s.queueError q d .packetMalformed (QD.widx s d)
    let s :=
      if (s.slotOfQueue? q).isSome || mget false s.sched.pending q then s
      else (s.modSched (fun sc => { sc with pending := mset false sc.pending q true })).emit (.queueNotice (BitVec.ofNat 16 q))
    s.stampPending was

/-- QUEUE_DOORBELL: only threads ring doorbells, and none runs before the Summer stage (R422). -/
def execQueueDoorbell (qid : BitVec 16) (value : Word) (s : State) : Host.Outcome State Fault Refusal :=
  .next (if s.mgmt.stage = .summer then s.ringQueue qid.toNat value.toNat else s)

/-! ## The fetch window (R267) -/

/-- The packets of a window that are still ahead. -/
def trimWindow (w : List Fetched) (ridx : Nat) : List Fetched := w.dropWhile (fun f => f.seq.toNat ≠ ridx)

/-- Read sixteen-byte granules of device memory under a key: the bytes, and whether any holds a mark. -/
def State.readGranules (s : State) (key pa : Nat) : Nat → List Byte × Bool × State
  | 0 => ([], false, s)
  | n + 1 =>
    let (bs, m, s) := s.homeGranule key (granule pa)
    let (more, m', s) := s.readGranules key (pa + 16) n
    (bs ++ more, m || m', s)

/-- Fetch the next packet of a slot's queue into its window. -/
def State.fetchPacket (s : State) (k d : Nat) : State :=
  let q := BR.qid (s.slot k).bindRec
  let ridx := QD.ridx s d
  let win := trimWindow (s.slot k).window ridx
  let seq := (ridx + win.length) % 2 ^ 32
  if 4 ≤ win.length || (QD.widx s d + 2 ^ 32 - ridx) % 2 ^ 32 ≤ win.length then s
  else
    let va := (QD.ring s d + 64 * (seq % 2 ^ QD.sizelog s d)) % 2 ^ 64
    if 2 ^ 60 ≤ va then s.queueError q d .slotFetch seq
    else match s.translate .iommu (QD.ctx s d) true .unitLoad va with
      | (.pa p key, s) =>
        let (bs, m, s) := (s.cxlReads p 64).readGranules key p 4
        s.modSlot k (fun sl => { sl with window := win ++ [⟨BitVec.ofNat 32 seq, BitVec.ofNat 512 (bytesNat bs), m⟩] })
      | (.absent e, s) =>
        let s := (s.modSlot k (fun sl => { sl with fetchFault := true })).recordError d Cause.slotFetch.code.toNat seq
        s.startPromotion (QD.ctx s d) (BitVec.ofNat 64 va) e (some (.slot k))
      | (.fault _, s) => s.queueError q d .slotFetch seq

/-- PACKET_FETCH: a bound queue that is neither stopped nor fetch-faulted; the scheduler opens, and bind records take effect,
in the Summer stage (Table 25-1). -/
def execPacketFetch (slot : Nat) (s : State) : Host.Outcome State Fault Refusal :=
  .next (let sl := s.slot slot
    if s.mgmt.stage = .summer && slot < 64 && BR.v sl.bindRec && !sl.fetchFault then
      match s.qDesc? (BR.qid sl.bindRec) with
      | some d => if QD.err s d then s else s.fetchPacket slot d
      | none => s
    else s)

/-- SLOT_FETCH_RESUME: the migration that the slot waited for has ended. -/
def execSlotFetchResume (slot : Nat) (s : State) : Host.Outcome State Fault Refusal :=
  .next (if (s.slot slot).fetchFault && s.io.migs.all (fun m => !m.waiters.contains (.slot slot)) then
    (s.modSlot slot (fun sl => { sl with fetchFault := false })).stampPending s
  else s)

/-! ## Verdicts and refusals (R278) -/

/-- The head packet is finished: HSTATE 00, RIDX one further, the cores released, and the slot acts on its ACT. The slot
of a barred context then records CTX_BARRED (R278, R332). -/
def State.finishHead (s : State) (k : Nat) (g : Grant) : State :=
  let was := s
  let s := match s.qDesc? g.qid.toNat with
    | some d => QD.setRidx (QD.setStatus s d (QD.err s d) 0) d ((g.seq.toNat + 1) % 2 ^ 32)
    | none => s
  let s := (s.endGrant k).stampPending was
  if CtxF.barred (s.ctxRec g.ctx.toNat) then s.recordBarred g.ctx.toNat else s

/-- The refused head packet is finished once its refusal word is written, waits for its page no more, or is logged as one that
could not be written. The word is a release at sys scope. -/
def State.writeRefusal (s : State) (k : Nat) (g : Grant) (x : Nat) (caddr word : BitVec 64) : State :=
  let done (s : State) : State := (s.modSlot k (fun sl => { sl with refusal := none })).finishHead k g
  match s.translate .iommu x true .unitStore caddr.toNat with
  | (.pa p key, s) => done (s.unitWrite key p (natBytes 8 word.toNat) { rel := some .sys })
  | (.absent e, s) =>
    (s.modSlot k (fun sl => { sl with refusal := some (x, caddr, word) })).startPromotion x caddr e (some (.refusal k))
  | (.fault _, s) => done (s.logRaw { ev := 0x0D, ctx := x, value := caddr })

/-- REFUSAL_WORD_WRITE: a refusal word that waited for its page. -/
def execRefusalWordWrite (slot : Nat) (s : State) : Host.Outcome State Fault Refusal :=
  .next (match (s.slot slot).refusal, (s.slot slot).grant with
    | some (x, a, w), some g =>
      if s.io.migs.any (fun m => m.waiters.contains (.refusal slot)) then s else s.writeRefusal slot g x a w
    | _, _ => s)

/-- A verdict on a slot's head packet; a refused head stays until its refusal word has been dealt with (R278). -/
def State.headVerdict (s : State) (k : Nat) (g : Grant) (code : Byte) (guilt : Bool) : State :=
  if code = 0 then
    if g.launch then s.modSlot k (fun sl => { sl with grant := some { g with verdictDone := true } }) else s.finishHead k g
  else
    let packet : BitVec 512 := s.peekMem (s.slotArea k + 64) 64 512
    let s := if guilt then s.raiseGuilt g.ctx.toNat else s
    let s := match s.qDesc? g.qid.toNat with
      | some d => s.recordError d code.toNat g.seq.toNat
      | none => s
    let g : Grant := { g with verdictDone := true, refused := true }
    let s := s.modSlot k (fun sl => { sl with grant := some g })
    let word : BitVec 64 := bputs 0 [(56, 8, 0xFF), (32, 8, code.toNat), (0, 32, g.seq.toNat)]
    if Pk.caddrValid packet then s.writeRefusal k g g.ctx.toNat (Pk.caddr packet) word else s.finishHead k g

/-- VERDICT_APPLY: the oldest write of VCODE and VGUILT is carried out for the item that it answered: the claimed head, or a queue-error
event of a context. -/
def execVerdictApply (slot : Nat) (s : State) : Host.Outcome State Fault Refusal :=
  .next (match (s.slot slot).verdicts with
    | [] => s
    | v :: rest =>
      let s := s.modSlot slot (fun sl => { sl with verdicts := rest })
      match v.event, (s.slot slot).grant with
      | some x, _ => if v.guilt then s.raiseGuilt x.toNat else s
      | none, some g => if (s.slot slot).awaits then s.headVerdict slot g v.code v.guilt else s
      | none, none => s)

/-! ## The kernel header and the verdict of R277 -/

namespace Kh
def magicOk (h : BitVec 512) : Bool := bget h 0 32 = 0x4B584C4E && bget h 32 16 = 1
def nbv (h : BitVec 512) : Bool := h.getLsbD 48
def entry (h : BitVec 512) : Nat := bget h 64 32
def regs (h : BitVec 512) : Nat := bget h 96 16
def threads (h : BitVec 512) : Nat := bget h 112 16
def carve (h : BitVec 512) : Nat := bget h 128 8
def nsafe (h : BitVec 512) : Nat := bget h 136 8
def fmode (h : BitVec 512) : Nat := bget h 144 8
def codesize (h : BitVec 512) : Nat := bget h 160 32
def argsize (h : BitVec 512) : Nat := bget h 192 32
def check (h : BitVec 512) : Nat := bget h 496 16

/-- An offset of the code region (R28), even. -/
def inCode (h : BitVec 512) (off : Nat) : Bool :=
  off % 2 = 0 && 64 + 16 * nsafe h ≤ off && off < 64 + 16 * nsafe h + codesize h

/-- The fields of Table 2-1 within their ranges. -/
def rangesOk (h : BitVec 512) : Bool :=
  bget h 49 15 = 0 && bget h 152 8 = 0 && bget h 224 272 = 0 && 16 ≤ regs h && regs h ≤ 256 && regs h % 16 = 0
    && 1 ≤ threads h && threads h ≤ 960 && carve h ≤ 2 && fmode h < 8 && 0 < codesize h && codesize h % 2 = 0
    && argsize h ≤ 4096 && argsize h % 16 = 0
end Kh

/-- A safe-point entry (Table 2-2). -/
def safePoint (bs : List Byte) : SafePoint := ⟨fieldAt bs 0 4, fieldAt bs 4 4, fieldAt bs 8 4⟩

def safePoints (h : BitVec 512) (table : List Byte) : List SafePoint :=
  (List.range (Kh.nsafe h)).map (fun i => safePoint ((table.drop (16 * i)).take 16))

/-- Does R29 accept the header and its safe-point table? -/
def kernelOk (h : BitVec 512) (table : List Byte) : Bool :=
  Kh.magicOk h && Kh.rangesOk h && Kh.inCode h (Kh.entry h)
    && (safePoints h table).all (fun p => Kh.inCode h p.save && Kh.inCode h p.restore && p.live ≤ 65536 && p.live % 16 = 0)
    && (List.range (Kh.nsafe h)).all (fun i => fieldAt table (16 * i + 12) 4 = 0)
    && Kh.check h = (table.foldl crcByte (crc16 (natBytes 62 h.toNat)))

/-- What an agent reads of a context's memory: bytes and a mark, a page that is not resident, or a translation condition. -/
inductive AgentRead where
  | ok (bs : List Byte) (mark : Bool)
  | absent (pteAddr va : Nat)
  | bad
  deriving DecidableEq, Repr

/-- Read `n` granules at an address through a context's tables, at S level. -/
def State.agentRead (s : State) (c x va : Nat) : Nat → AgentRead × State
  | 0 => (.ok [] false, s)
  | n + 1 =>
    if 2 ^ 60 ≤ va then (.bad, s)
    else match s.translate (.core c) x false .load va with
      | (.pa p key, s) =>
        let (bs, m, s) := s.homeGranule key (granule p)
        match s.agentRead c x (va + 16) n with
        | (.ok more m', s) => (.ok (bs ++ more) (m || m'), s)
        | r => r
      | (.absent e, s) => (.absent e va, s)
      | (.fault _, s) => (.bad, s)

/-- Has a migration failed that an agent's read of the claimed kernel header waited for (R277, step 3)? -/
def State.headerLost (s : State) (k : Nat) : Bool :=
  match (s.slot k).grant with
  | some g => g.headerLost
  | none => false

/-- What an agent of a claimed LAUNCH finds: a kernel to start, a refusal with its code and VGUILT, or a page to wait for. -/
inductive AgentVerdict where
  | accept (hdr : BitVec 512) (safe : List SafePoint)
  | refuse (c : Cause) (guilt : Bool)
  | wait (pteAddr va : Nat)
  deriving DecidableEq, Repr

/-- VCODE and VGUILT as the claim-0 agent's firmware writes them (R277, R278). -/
def AgentVerdict.written : AgentVerdict → Option (Byte × Bool)
  | .accept .. => some (0, false)
  | .refuse c guilt => some (c.code, guilt)
  | .wait .. => none

/-- The checks of R277 in their order, for the packet in slot `k`'s area, by the agent of core `c`. -/
def State.agentVerdict (s : State) (c k x : Nat) : AgentVerdict × State :=
  let a := s.slotArea k + 64
  let p : BitVec 512 := s.peekMem a 64 512
  if (granules a 64).any (fun g => mget false s.memPoison g || s.subFailed (16 * g)) then (.refuse .poisonUse false, s)
  else if Pk.malformed p then (.refuse .packetMalformed true, s)
  else if s.headerLost k then (.refuse .migrateFail false, s)
  else
    let ka := (Pk.kaddr p).toNat
    match s.agentRead c x ka 4 with
    | (.bad, s) => (.refuse .packetMalformed true, s)
    | (.absent e va, s) => (.wait e va, s)
    | (.ok hb hm, s) =>
      let h : BitVec 512 := BitVec.ofNat 512 (bytesNat hb)
      match s.agentRead c x (ka + 64) (Kh.nsafe h) with
      | (.bad, s) => (.refuse .packetMalformed true, s)
      | (.absent e va, s) => (.wait e va, s)
      | (.ok tb tm, s) =>
        if hm || tm then (.refuse .poisonUse false, s)
        else if !kernelOk h tb then (.refuse .kernelHdr true, s)
        else if Kh.carve h ≠ Pk.carve p then (.refuse .packetMalformed true, s)
        else (.accept h (safePoints h tb), s)

/-! ## The start of a workgroup (R30, R280) -/

/-- The slot whose granted launch holds a core that has no workgroup yet. -/
def State.launchOf (s : State) (c : Nat) : Option (Nat × Grant) :=
  allSlots.findSome? (fun k => match (s.slot k).grant with
    | some g => if g.launch && !g.killed && g.held.contains c then some (k, g) else none
    | none => none)

/-- A thread as it starts (Table 2-3), after all that has been performed: the launch or the restore orders it (R218, R280). -/
def newThread (w : Workgroup) (h : BitVec 512) (now : Nat) : Thread :=
  { regs := startRegs w, fmode := BitVec.ofNat 3 (Kh.fmode h), pc := w.hdr + BitVec.ofNat 64 (Kh.entry h), mv := { floor := now } }

/-- The threads of a starting workgroup: those of a resumed launch are Stopped until their WAKE, or Exited as they were. A thread whose
save routine had finished keeps its redirection, so that its WAKE starts it at RESTORE with the same area (R314, R419). The count of a
thread's stores goes on from that of the thread before it: the orders of stores are those of one thread each. -/
def startThreads (old : List (Nat × Thread)) (w : Workgroup) (h : BitVec 512) (gone : List Nat) (saves : List (Nat × SaveInfo))
    (now : Nat) : List (Nat × Thread) :=
  (List.range w.nth).foldl (fun m t =>
    let th : Thread := { newThread w h now with stores := (mget {} old t).stores, save := ((saves.find? (fun p => p.1 == t)).map (·.2)).getD {} }
    mset {} m t (if gone.contains t then { th with run := .exited } else { th with stopped := w.restoring }))
    (old.filter (fun p => 960 ≤ p.1))

/-- A workgroup starts on a core. -/
def State.startWorkgroup (s : State) (c k : Nat) (g : Grant) (h : BitVec 512) (safe : List SafePoint) : State :=
  let p : BitVec 512 := s.peekMem (s.slotArea k + 64) 64 512
  let cx := c % 16 - g.x0
  let cy := c / 16 - g.y0
  let kept : KeptWg := ((g.kept.find? (fun p => p.1 == 16 * cy + cx)).map (·.2)).getD {}
  let w : Workgroup :=
    { ctx := g.ctx, slot := k, cx, cy, rw := 2 ^ g.wlog, rh := 2 ^ g.hlog, nth := Kh.threads h, regs := Kh.regs h
      hdr := Pk.kaddr p, args := Pk.args p, safe, nbv := Kh.nbv h, restoring := g.resumed, mboxOrder := kept.mbox
      since := s.instant }
  let gone := ((g.exitedAt.filter (fun e => e.1 == 16 * cy + cx)).map (·.2)).flatten
  s.modCore c (fun kk => { kk with
    wg := some w, carve := Kh.carve h, threads := startThreads kk.threads w h gone kept.saves s.instant, trq := [], trqOld := 0, mbox := [], mboxRead := []
    hdrOf := none, groups := kk.groups.filter (fun x => x.row = 0) })

/-- WORKGROUP_START: the agent of a held core that has claimed an accepted head and written its CTXID starts the workgroup. -/
def execWorkgroupStart (core : Nat) (s : State) : Host.Outcome State Fault Refusal :=
  .next (let kk := s.core core
    match s.launchOf core with
    | some (k, g) =>
      if kk.wg.isNone && kk.started && kk.status = .running && kk.ctxid = g.ctx && g.claimants.contains core then
        match s.agentVerdict core k g.ctx.toNat with
        | (.accept h safe, s) => if g.verdictDone && !g.refused then s.startWorkgroup core k g h safe else s
        | (.wait e va, s) => s.startPromotion g.ctx.toNat (BitVec.ofNat 64 va) e (some (.header core))
        | (.refuse .., s) => s
      else s
    | none => s)

/-! ## The end of a workgroup and of a launch (R281, R402) -/

/-- Queues empty, and no engine work left. -/
def Core.quiet (k : Core) (w : Workgroup) : Bool :=
  (List.range w.nth).all (fun t => (k.thread t).storeQ.isEmpty) && k.tasks.isEmpty && k.ops.isEmpty

/-- Entries bound to a core's workgroup. -/
def State.boundIrqs (s : State) (c : Nat) : List Nat :=
  (s.io.irqs.filter (fun p => IrqF.state p.2 == 1 && IrqF.core p.2 == c)).map (·.1)

/-- WORKGROUP_END: every thread exited (or its context killed), its queues empty, its engine work ended. -/
def execWorkgroupEnd (core : Nat) (s : State) : Host.Outcome State Fault Refusal :=
  .next (let k := s.core core
    match k.wg with
    | some w =>
      if (w.killed || (List.range w.nth).all (fun t => (k.thread t).run == .exited)) && k.quiet w then
        let held := if w.restoring then s.heldEntries w else []
        let s := (s.boundIrqs core ++ held).foldl (fun s n => s.unbindIrq n) s
        let s := if w.killed then s else s.modSlot w.slot (fun sl => { sl with grant := sl.grant.map (fun g =>
          { g with ended := g.ended ++ [16 * w.cy + w.cx] }) })
        s.releaseCore core
      else s
    | none => s)

/-- LAUNCH_END: EXITS has reached n. -/
def execLaunchEnd (slot : Nat) (s : State) : Host.Outcome State Fault Refusal :=
  .next (match (s.slot slot).grant with
    | some g => if g.launch && !g.killed && g.verdictDone && !g.refused && g.held.isEmpty && g.n ≤ s.slotExits slot then s.finishHead slot g else s
    | none => s)

/-! ## Pre-emption (R274, R287, R288) -/

/-- SLICE_EXPIRY: the slice has ended; once it has, a pending slot of equal or higher PRIO that demands a held core has the launch
pre-empted. -/
def execSliceExpiry (slot : Nat) (s : State) : Host.Outcome State Fault Refusal :=
  .next (match (s.slot slot).grant with
    | some g =>
      if g.launch && BR.slice (s.slot slot).bindRec ≠ 0 then
        let s := s.modSlot slot (fun sl => { sl with expired := true })
        let rival := allSlots.any (fun k => k ≠ slot && s.slotPending k
          && BR.prio (s.slot slot).bindRec ≤ BR.prio (s.slot k).bindRec && (s.demandCores k).any g.held.contains)
        if rival then s.modSlot slot (fun sl => { sl with grant := some { g with preemptReq := true } }) else s
      else s
    | none => s)

/-- Is a barrier 0–23 of the workgroup on a core partly arrived? -/
def State.partlyArrived (s : State) (w : Workgroup) : Bool :=
  w.bars.any (fun b => b.1 < 16 && 0 < b.2.arrivals)
    || (match s.grantOf w with
      | some g => g.bars.any (fun b => 0 < b.bar.arrivals && blockOrigin w b.lvl == (b.ox, b.oy))
      | none => false)

/-- Is a resumed launch still being restored: some workgroup of it has not yet started, or still waits for its last WAKE (R413)? -/
def State.launchRestoring (s : State) (g : Grant) : Bool :=
  g.resumed && g.held.any (fun c => match (s.core c).wg with
    | some w => w.restoring
    | none => true)

/-- PREEMPT_DELIVERY: SAVECTR advances before the first agent hears of it (R408); the workgroup defers, arms, or, with
DEFER = 0 and a barrier partly arrived, is forced at once. A launch still being restored hears of it when that has ended (R413). -/
def execPreemptDelivery (slot : Nat) (core : Nat) (s : State) : Host.Outcome State Fault Refusal :=
  .next (match (s.slot slot).grant, (s.core core).wg with
    | some g, some w =>
      if g.launch && g.preemptReq && !g.killed && g.held.contains core && !g.delivered.contains core && w.slot = slot
          && !s.launchRestoring g then
        let q := g.qid.toNat
        let s := if g.delivered.isEmpty then
          s.modKeys (fun ks => { ks with saveCtr := mset 0 ks.saveCtr q (mget 0 ks.saveCtr q + 1) }) else s
        let p : Preempt :=
          if !s.partlyArrived w then .armed else if BR.defer (s.slot slot).bindRec = 0 then .forced false else .deferring
        let s := s.modSlot slot (fun sl => { sl with grant := some { g with delivered := g.delivered ++ [core] } })
        s.modCore core (fun k => { k with wg := some { w with preempt := p } }.post (.preempt slot))
      else s
    | _, _ => s)

/-- Change what pre-emption the workgroup on a core is under. -/
def State.setPreempt (s : State) (c : Nat) (p : Preempt) : State :=
  s.modCore c (fun k => { k with wg := k.wg.map (fun w => { w with preempt := p }) })

/-- No barrier 0–23 of a deferring workgroup is partly arrived any more: it arms. -/
def State.armDue (s : State) (c : Nat) : State :=
  match (s.core c).wg with
  | some w => if w.preempt = .deferring && !s.partlyArrived w then s.setPreempt c .armed else s
  | none => s

/-- WORKGROUP_ARM; each clk of the core looks as well (`execIssueSelect`), so that arming does not lag. -/
def execWorkgroupArm (core : Nat) (s : State) : Host.Outcome State Fault Refusal := .next (s.armDue core)

/-- DEFER_EXPIRY: the deferral limit; a workgroup with no barrier partly arrived has armed by then (R287). -/
def execDeferExpiry (core : Nat) (s : State) : Host.Outcome State Fault Refusal :=
  .next (match (s.core core).wg with
    | some w =>
      if w.preempt = .deferring then s.setPreempt core (if s.partlyArrived w then .forced false else .armed) else s
    | none => s)

/-- Has a thread exited or finished its save routine? -/
def Thread.saveDone (th : Thread) : Bool := th.run == .exited || th.save.phase == .finished

/-- DEADLINE_EXPIRY: the safe-point deadline with a save routine unfinished. -/
def execDeadlineExpiry (core : Nat) (s : State) : Host.Outcome State Fault Refusal :=
  .next (let k := s.core core
    match k.wg with
    | some w =>
      if w.preempt = .armed && (List.range w.nth).any (fun t => !(k.thread t).saveDone) then s.setPreempt core (.forced true) else s
    | none => s)

/-- Has the workgroup on a core been saved: every thread exited, finished or stopped, no claim unanswered (R310), nothing of it
in flight, every store that its threads can have read home, so that the restore comes after them at sys scope (R218), and the agent
through with its seals, back at its EXIT (R418, log 112)? -/
def Core.saved (k : Core) (w : Workgroup) : Bool :=
  (List.range w.nth).all (fun t => ((k.thread t).saveDone || (k.thread t).stopped) && !(k.thread t).claiming) && k.quiet w
    && k.coreOrder.isEmpty && w.served && (match w.preempt with
    | .none => false
    | .deferring => false
    | _ => true)

/-- What the record of a save keeps of the workgroup on a core beside its images. -/
def Core.kept (k : Core) (w : Workgroup) : KeptWg :=
  { mbox := k.mbox.map (·.tid)
    saves := ((List.range w.nth).filter (fun t => (k.thread t).save.phase == .finished)).map (fun t => (t, (k.thread t).save)) }

/-- The workgroup of a saved launch leaves its core, and with it its unread requests (R312) and what its trapped threads have in TRQ: its
bound entries become held, with the arrivals that they keep (R355). -/
def State.leaveCore (s : State) (c : Nat) : State :=
  let s := (s.boundIrqs c).foldl (fun s n => s.setIrq n (bput (s.irq n) 60 2 2)) s
  (s.modCore c (fun k => { k with wg := none, trq := [], trqOld := 0, claims := k.claims.filter (960 ≤ ·), mbox := [], mboxRead := [] })).dropFetches (Hart.userOf c)

/-- LAUNCH_SAVED: every workgroup that has not ended is saved. -/
def execLaunchSaved (slot : Nat) (s : State) : Host.Outcome State Fault Refusal :=
  .next (match (s.slot slot).grant with
    | some g =>
      let ready := g.held.all (fun c => match (s.core c).wg with
        | some w => g.delivered.contains c && (s.core c).saved w && s.io.peers.all (fun r => !Hart.userOf c r.h)
        | none => false)
      if g.launch && g.preemptReq && !g.killed && !g.held.isEmpty && ready then
        let was := s
        let q := g.qid.toNat
        let pos (c : Nat) : Nat := positionOf g.x0 g.y0 c
        let exited := g.held.map (fun c => (pos c, match (s.core c).wg with
          | some w => (List.range w.nth).filter (fun t => ((s.core c).thread t).run == .exited)
          | none => []))
        let irqs := g.held.map (fun c => (pos c, s.boundIrqs c))
        let kept := g.held.filterMap (fun c => (s.core c).wg.map (fun w => (pos c, (s.core c).kept w)))
        let l : SavedLaunch := ⟨slot, g.seq, g.wlog, g.hlog, BitVec.ofNat 32 (s.slotExits slot), g.disp, g.bars, g.ended, exited, irqs, kept⟩
        let s := g.held.foldl (fun s c => s.leaveCore c) s
        let s := match s.qDesc? q with
          | some d => QD.setStatus s d (QD.err s d) 2
          | none => s
        let s := s.modSched (fun sc => { sc with saved := mset none sc.saved q (some l) })
        (s.endGrant slot).stampPending was
      else s
    | none => s)

end Sys2Proof.Machine
end

