-- ==== Sys2Proof/Machine/Migration.lean ====
section
/-! DEFINITION. The fault unit (11_translation_and_tiers R256, R258): demotions, the steps of a migration, and what its
end does to those who wait for it. -/

namespace Sys2Proof.Machine

/-! ## Who waits for a page -/

/-- The address of the leaf that translates an address of a context. -/
def State.pteOf (s : State) (x va : Nat) : Option Nat :=
  match s.walk (CtxF.root (s.ctxRec x)) va with
  | .leaf _ _ ea => some ea
  | .fault _ => none

/-- Is a parked access on the page of a migration? -/
def State.onPage (s : State) (m : Migration) (x : BitVec 16) (va : BitVec 64) : Bool :=
  (x == m.ctx && va.toNat / 65536 == m.va.toNat / 65536) || s.pteOf x.toNat va.toNat == some m.pteAddr

/-- The harts parked on the page of a migration, with the address each formed. -/
def State.pageWaiters (s : State) (m : Migration) : List (Hart × BitVec 64) :=
  s.cores.flatMap (fun p => p.2.threads.filterMap (fun t => match t.2.run with
    | .parked (.page x va _) => if s.onPage m x va then some (hartOf p.1 t.1, va) else none
    | _ => none))

/-! ## Frames -/

/-- A freed frame goes to the ring of its tier; one behind a peer window to none (R256). -/
def State.freeFrame (s : State) (pa : Nat) : State :=
  if tierOf pa = 0 then s.appendFrame true (BitVec.ofNat 64 pa)
  else if tierOf pa = 1 then s.appendFrame false (BitVec.ofNat 64 pa)
  else s

/-- Copy a granule under the key of its leaf, with its mark (R225, R254). Its coherence order goes on in the new place (R217). -/
def State.moveGranule (s : State) (key src dst : Nat) : State :=
  let (bs, mark, s) := s.homeGranule key src
  if s.subFailed (16 * dst) then s
  else { s with
    mem := pokes s.mem (16 * dst) bs
    memPoison := mset false s.memPoison dst mark
    memKey := mset 0 s.memKey dst (s.keyTag key)
    hist := mset {} s.hist dst (s.log src) }

/-- What is known of the granules of one frame, after its page has moved to another. -/
def moveKnown (src dst : Nat) (m : List (Nat × Nat)) : List (Nat × Nat) :=
  let within (f g : Nat) : Bool := g / 4096 == f / 65536
  (m.filter (fun p => within src p.1)).foldl (fun l p => mset 0 l (dst / 16 + p.1 % 4096) p.2)
    (m.filter (fun p => !within src p.1 && !within dst p.1))

def MemView.movePage (v : MemView) (src dst : Nat) : MemView :=
  { v with readAt := moveKnown src dst v.readAt, stale := moveKnown src dst v.stale }

def Thread.movePage (th : Thread) (src dst : Nat) : Thread := { th with mv := th.mv.movePage src dst }

/-- Read a 64-byte line of the page at its source: from the capacity tier a MemRd (R262), from a peer module a request over the
window (R263, R356). -/
def State.readLine (s : State) (pa : Nat) : State :=
  match if isPeer pa then s.peerWindow? pa else none with
  | some w => s.emit (.peerRead (w / 32) (s.peerBus w pa) 64)
  | none => s.cxlReads pa 64

/-- Copy one line, given by its first granules; into the capacity tier it is a MemWr (R262). -/
def State.moveLine (s : State) (key src dst : Nat) : State :=
  let s := (List.range 4).foldl (fun s i => s.moveGranule key (src + i) (dst + i)) (s.readLine (16 * src))
  if isCxl (16 * dst) then
    s.emit (.cxlWrite (BitVec.ofNat 64 (16 * dst)) (peeks s.mem (16 * dst) 64) ((List.range 4).any (fun i => mget false s.memPoison (dst + i))))
  else s

/-- Copy a page to another frame; a frame outside the installed ranges is never accessed (R253). What threads know of the page
goes with it. -/
def State.copyPage (s : State) (key src dst : Nat) : State :=
  if s.installed dst && s.installed (dst + 65535) then
    let s := (List.range 1024).foldl (fun s i => s.moveLine key (src / 16 + 4 * i) (dst / 16 + 4 * i)) s
    { s with
      cores := s.cores.map (fun p => (p.1, { p.2 with threads := p.2.threads.map (fun t => (t.1, t.2.movePage src dst)) }))
      mgmt := { s.mgmt with thread := s.mgmt.thread.movePage src dst } }
  else s

def State.setMig (s : State) (i : Nat) (m : Migration) : State := s.modIo (fun io => { io with migs := io.migs.set i m })
def State.dropMig (s : State) (i : Nat) : State := s.modIo (fun io => { io with migs := io.migs.eraseIdx i })

/-! ## Demotion -/

/-- Start the demotion of a resident page: RES 0, MIG 1, and the TLBI drain of the page (R217). -/
def State.startDemotion (s : State) (x : Nat) (va : BitVec 64) (ea : Nat) : State :=
  let e := bputs (s.peekMem ea 8 64) [(8, 1, 0), (9, 1, 1)]
  let page := va &&& ~~~(0xFFFF : BitVec 64)
  let s := s.pokeMem ea 8 e
  let s := s.modIo (fun io => { io with migs := io.migs ++
    [{ ctx := BitVec.ofNat 16 x, va := page, pteAddr := ea, promote := false, entry := e }] })
  (s.startDrain (.demote ea) .page page (BitVec.ofNat 16 x)).settleDrains

/-- A demotion request: joins what is in progress, is refused for PIN, or starts. -/
def State.requestDemotion (s : State) (x : Nat) (va : BitVec 64) : State :=
  match s.walk (CtxF.root (s.ctxRec x)) va.toNat with
  | .fault _ => s
  | .leaf e level ea =>
    if s.io.migs.any (fun m => m.pteAddr == ea) then
      s.modIo (fun io => { io with migs := io.migs.map (fun m =>
        if m.pteAddr = ea && m.promote then { m with demoteAfter := true } else m) })
    else if level ≠ 0 || !Pte.res e then s
    else if Pte.pin e then s.logRaw { ev := 0x09, ctx := x, value := va }
    else s.startDemotion x va ea

/-- An act of the system cores: none in the Winter stage, which holds them in reset (R421, R424). A queue that it makes pending
counts as pending from now (R273). -/
def State.bySystem (s : State) (act : State → State) : State :=
  if s.mgmt.stage = .winter then s else (act s).stampPending s

def execDemotionRequest (ctx : BitVec 16) (va : BitVec 64) (s : State) : Host.Outcome State Fault Refusal :=
  .next (s.bySystem (·.requestDemotion ctx.toNat va))

/-! ## The steps of a migration -/

/-- MIGRATION_FRAME_TAKE: a demotion first waits for its drain; then a frame is taken and the page copied. -/
def execMigrationFrameTake (idx : Nat) (s : State) : Host.Outcome State Fault Refusal :=
  .next (match s.io.migs[idx]? with
    | none => s
    | some m =>
      if m.frame.isSome || (m.promote && s.sourceLost m) then s
      else
        let s := s.settleDrains
        if !m.promote && (s.drainOf (.demote m.pteAddr)).isSome then s
        else match s.takeFrame m.promote with
          | none => s
          | some (f, s) =>
            let s := s.setMig idx { m with frame := some f }
            s.copyPage (Pte.key m.entry) (Pte.addr m.entry) f.toNat)

/-- Is the entry as the last CAS left it? -/
def State.entryKept (s : State) (m : Migration) : Bool := s.peekMem m.pteAddr 8 64 == m.entry

/-- The outcome of a migration for a waiter that no thread's park stands for. -/
def State.tellWaiter (s : State) (ok : Bool) (w : MigWaiter) : State :=
  match w with
  | .pri rid _ => s.emit (.prgReply rid ok)
  | .fetch h => if ok || s.underKill h || (s.thread h).stopped then s else s.takeTrap h .migrateFail (s.pc h) (s.pc h)
  | .slot k =>
    if ok then s
    else
      let q := BR.qid (s.slot k).bindRec
      let s := s.modSlot k (fun sl => { sl with fetchFault := false })
      match s.qDesc? q with
      | some d => s.queueError q d .slotFetch ((QD.ridx s d + (trimWindow (s.slot k).window (QD.ridx s d)).length) % 2 ^ 32)
      | none => s
  | .refusal k =>
    if ok then s
    else match (s.slot k).refusal, (s.slot k).grant with
      | some (x, a, _), some g =>
        ((s.modSlot k (fun sl => { sl with refusal := none })).logRaw { ev := 0x0D, ctx := x, value := a }).finishHead k g
      | _, _ => s
  | .header c =>
    if ok then s
    else match s.launchOf c with
      | some (k, _) => s.loseHeader k c
      | none => s
  | .engine c token =>
    if ok then s
    else match (s.core c).ops.find? (fun o => o.token == token) with
      | some op =>
        let (p, s) := s.plan c op
        s.failOp c op p [.migrateFail]
      | none => s

/-- A parked instruction whose page's migration has failed: MIGRATE_FAIL, but for an agent's read of a claimed kernel header. -/
def State.failPark (s : State) (h : Hart) (va : BitVec 64) : State :=
  if s.underKill h then s
  else match (match (s.thread h).run with
      | .parked (.page _ _ (.access a)) => s.headerCondition h a .migrateFail
      | _ => none) with
    | some (t, f) => t.wake h f
    | none => s.takeTrap h .migrateFail va (s.thread h).pc

/-- The migration `m`, taken off the list, has failed: the frame goes back and its waiters are told; those that trap do so in one clk
(R42). Table 11-3 gives a failure of
promotions alone: a demotion whose closing CAS finds the entry changed returns its frame, leaves the entry, lets the threads parked
on the page try again, and answers no page request (the model's choice, log 114). -/
def State.failMigration (s : State) (m : Migration) : State :=
  let ws := s.pageWaiters m
  let s := if s.entryKept m then s.pokeMem m.pteAddr 8 (bput m.entry 9 1 0) else s
  let s := match m.frame with
    | some f => s.appendFrame m.promote f
    | none => s
  if m.promote then
    let s := ws.foldl (fun s w => s.failPark w.1 w.2) s
    m.waiters.foldl (fun s w => s.tellWaiter false w) s
  else ws.foldl (fun s w => s.resume w.1) s

/-- The migration `m`, taken off the list, has copied its page to `f`: the entry is rewritten and its waiters go on. -/
def State.finishMigration (s : State) (m : Migration) (f : BitVec 64) : State :=
  let place : List (Nat × Nat × Nat) := [(14, 34, f.toNat / 2 ^ 14), (9, 1, 0)]
  let e := bputs m.entry (place ++ if m.promote then [(6, 2, 0), (8, 1, 1)] else [(6, 2, 1)])
  let s := (s.pokeMem m.pteAddr 8 e).freeFrame (Pte.addr m.entry)
  let ws := s.pageWaiters m
  if m.promote then
    let s := m.waiters.foldl (fun s w => s.tellWaiter true w) s
    let s := ws.foldl (fun s w => s.resume w.1) s
    if m.demoteAfter then s.requestDemotion m.ctx.toNat m.va else s
  else if m.promoteAfter || !m.waiters.isEmpty || !ws.isEmpty then
    let s := s.startPromotion m.ctx.toNat m.va m.pteAddr none
    s.modIo (fun io => { io with migs := io.migs.map (fun x => if x.pteAddr = m.pteAddr then { x with waiters := x.waiters ++ m.waiters } else x) })
  else s

/-- MIGRATION_COMPLETE: the copy has ended and the CAS finds the entry as it left it. -/
def execMigrationComplete (idx : Nat) (s : State) : Host.Outcome State Fault Refusal :=
  .next (match s.io.migs[idx]? with
    | some m => match m.frame with
      | some f => if s.entryKept m && !(m.promote && s.sourceLost m) then (s.dropMig idx).finishMigration m f else (s.dropMig idx).failMigration m
      | none => s
    | none => s)

/-- MIGRATION_FAIL: the source link is lost, the peer window closed, or the entry changed. -/
def execMigrationFail (idx : Nat) (s : State) : Host.Outcome State Fault Refusal :=
  .next (match s.io.migs[idx]? with
    | some m => if !s.entryKept m || (m.promote && s.sourceLost m) then (s.dropMig idx).failMigration m else s
    | none => s)

/-- FRAME_APPEND: the system cores, or the fault unit, append a frame; the management core's write is refused (R369). -/
def execFrameAppend (who : IoActor) (fast : Bool) (frame : BitVec 64) (s : State) : Host.Outcome State Fault Refusal :=
  .next (match who with
    | .management => s.refuseIo (if fast then 0x530020 else 0x530028)
    | .system => s.bySystem (·.appendFrame fast frame)
    | .faultUnit => s.appendFrame fast frame)

/-- PEER_READ_COMPLETION: the peer module answers the load that an outbound window carried (R263), under the bytes that the core's
own stores supply (R199); a closed window gives poison (R357). An acquire whose scope holds the peer comes after all that the
peer has done here. -/
def execPeerReadCompletion (idx : Nat) (data : List Byte) (s : State) : Host.Outcome State Fault Refusal :=
  .next (match s.io.peers[idx]? with
    | some r =>
      let s := s.modIo (fun io => { io with peers := io.peers.eraseIdx idx })
      let bs := List.zipWith (fun own b => own.getD b) r.own ((data ++ zeros r.a.size).take r.a.size)
      let floor := match r.a.acquire with
        | some .clu | some .sys => s.instant
        | _ => 0
      if r.span then s.modMgmt (fun m => { m with loaded := m.loaded ++ [(bs, (s.peerWindow? r.pa).isNone)] })
      else match r.a.kind with
      | .load sx sc => s.modThread r.h (fun th =>
          loadResult r.a sx sc bs (s.peerWindow? r.pa).isNone { th with mv := th.mv.raise floor })
      | _ => s
    | none => s)

end Sys2Proof.Machine
end

