-- ==== Sys2Proof/Machine/RootComplex.lean ====
section
/-! DEFINITION. The root complex (18_root_complex R344–R363): DBELL and the doorbell proxy, requests of endpoints and of
peers, ATS and PRI (11_translation_and_tiers R258), interrupt arrivals, links, Zhevy messages, the host face, and what
the system cores write. -/

namespace Sys2Proof.Machine

/-! ## DBELL (R351) -/

/-- The valid entry for a doorbell name. -/
def State.findBell (s : State) (x : BitVec 16) (addr : BitVec 64) (eight : Bool) : Option (Nat × BitVec 256) :=
  s.io.doorbells.find? (fun p => Bell.v p.2 && Bell.kind p.2 ≠ 3 && Bell.ctx p.2 == x.toNat && Bell.vaddr p.2 == addr
    && Bell.size8 p.2 == eight)

def laneDbell (f : Fields) (eight : Bool) (h : Hart) (s : State) : Res :=
  let cw : OpW := if eight then .pair else .w32
  guardOps s h (addrUses f ++ [(f.c, cw)]) <|
    let addr := s.addrOf h f
    let size := if eight then 8 else 4
    let val : Pair := if eight then s.opPair h f.c else (s.op32 h f.c).setWidth 64
    let x := (s.coreOf h).ctxid
    firstTrap [(decide (addr.toNat % size ≠ 0), .addrAlign, addr), (outOfRange addr, .addrRange, addr),
        poisonTrap (s.addrPoison h f ++ [(s.opPoison h f.c cw, 2)])] <|
      match s.findBell x addr eight with
      | none => .trap .dbellUnmapped addr
      | some (i, e) =>
        if 8 ≤ (s.io.proxy.filter (fun b => b.h == h)).length then .stall s
        else .ok (s.modIo (fun io => { io with proxy := io.proxy ++
          [⟨h, i, Bell.kind e, Bell.target e, size, val, (s.thread h).stores, (s.thread h).mv.sysSeq⟩] }))

/-- DBELL. A supervisor group rings too: R63 and R351 give level U as the lowest and no refusal above it, though Table 1-5 lists DBELL
for user threads alone (DESIGN CHOICE, log 123). -/
def execDbell (f : DF) (eight : Bool) (s : State) : Host.Outcome State Fault Refusal :=
  issue 0 .compute (.dbell f eight) (laneDbell f.fields eight) s

/-! ## The proxy (R215, R350) -/

/-- Has every store that precedes a doorbell in its thread taken effect at its home slice, and every store of another thread
that a release fence of scope sys before it covers? Engine writes that such a fence with ENG = 1 covers are the thread's own
(`ownEngine`). -/
def State.bellReady (s : State) (b : HeldBell) : Bool :=
  let own (e : StoreEnt) : Bool := e.tid == b.h.key && decide (e.ord < b.after)
  let fenced (e : StoreEnt) : Bool := decide (e.tid < 2000) && e.tid ≠ b.h.key && decide (e.seq < b.seq)
  !(s.thread b.h).storeQ.any own && !(s.order b.h).any (fun e => own e || fenced e)

/-- The target that R350 keeps in order: for a user queue its ID, in bits 15:0 (Table 18-3). -/
def HeldBell.goal (b : HeldBell) : Nat := if b.kind = 1 then b.target.toNat % 65536 else b.target.toNat

/-- Does an earlier doorbell of the same thread go to the same target (R350) or device (R215)? Which bus addresses belong
to one device is free (log 31). -/
def bellBlocked (bs : List HeldBell) (i : Nat) (b : HeldBell) : Bool :=
  (bs.take i).any (fun e => e.h == b.h && e.kind == b.kind &&
    (e.goal == b.goal || (b.kind == 0 && Config.sameDevice e.target b.target)))

/-! ## Ports, sub-ports and links (R15, R16, R344, Table 18-1) -/

/-- The rates of PCIe 7.0, in tenths of GT/s. -/
def linkRates : List Nat := [25, 50, 80, 160, 320, 640, 1280]

/-- The rate at which a link trains: the highest that this end and the other, whose highest is `partner`, support; one that carries CXL.mem
has at most 64 GT/s (Table 1-6). -/
def trainedRate (partner : Nat) (cxl : Bool) : Option Nat :=
  (linkRates.filter (fun r => r ≤ partner && (!cxl || r ≤ 640))).getLast?

/-- The options with which a link in a role trains at a rate (Table 18-1); MSI, INTx and I/O space no port has. -/
def portOptions (r : PortRole) (rate : Nat) : PortOptions :=
  let flit : Bool := 640 ≤ rate
  let root : Bool := r = .root
  let host : Bool := r = .host
  { flit, maxPayload := if host then 256 else 512, tagBits := if flit && !host then 14 else 10, ats := root, pri := root
    pasidBits := if root then 20 else 0, acs := root, msixReceived := root, msixSent := host, doe := host, aer := host
    errorsLogged := !host, hotPlug := root }

/-- Does a write carry more than the Max Payload Size of the ports of a role? No port takes such a request (R344). -/
def overPayload (role : PortRole) (r : EpReq) : Bool :=
  match r.write with
  | some data => (portOptions role 0).maxPayload < data.length
  | none => false

/-- The host-face link that is up reports an error through AER (R344). -/
def State.hostAer (s : State) (corrected : Bool) : State :=
  ((List.range 32).filter (fun l => match mget none s.io.links l with
    | some x => x.up && x.options.aer
    | none => false)).foldl (fun s l => s.emit (.aer l corrected)) s

/-- Send a doorbell. Whether a root port's window claims a bus address is set up in PCIe configuration space: free (log 6). -/
def State.sendBell (s : State) (b : HeldBell) : State :=
  match b.kind with
  | 0 =>
    let (claimed, s) := if s.rootUp then s.freeBit else (false, s)
    if claimed then s.emit (.busWrite b.target b.size b.val)
    else s.logRequest none (Bell.ctx (s.bell b.entry)) b.target.toNat
  | 1 => s.ringQueue (b.target.toNat % 65536) (b.val.toNat % 2 ^ 32)
  | _ => s.modIo (fun io => { io with ringW := mset 0 io.ringW b.entry (b.val.setWidth 32) })

def execDoorbellSend (idx : Nat) (s : State) : Host.Outcome State Fault Refusal :=
  .next (match s.io.proxy[idx]? with
    | some b =>
      if s.bellReady b && !bellBlocked s.io.proxy idx b then
        let s := s.sendBell b
        (s.modIo (fun io => { io with proxy := io.proxy.eraseIdx idx })).settleBell b.entry
      else s
    | none => s)

/-! ## Requests of endpoints (R346, R347) -/

namespace Fn
def v (e : BitVec 64) : Bool := e.getLsbD 63
def ats (e : BitVec 64) : Bool := e.getLsbD 62
def pri (e : BitVec 64) : Bool := e.getLsbD 61
def pasen (e : BitVec 64) : Bool := e.getLsbD 60
def dpasid (e : BitVec 64) : Nat := bget e 40 20
end Fn

/-- The record that is not free and has a PASID (R328). -/
def State.ctxOfPasid (s : State) (p : Nat) : Option Nat :=
  if CtxF.pasid (s.ctxRec 0) = p then some 0
  else (s.io.ctxs.find? (fun e => e.1 ≠ 0 && CtxF.state e.2 ≠ 0 && CtxF.pasid e.2 == p)).map (·.1)

/-- The translation that a function holds through ATS for an address it presents as translated (R258). -/
def State.atsHeld? (s : State) (rid : BitVec 16) (pa : Nat) : Option TlbEnt :=
  (s.io.ats.find? (fun t => t.rid == rid && decide (Pte.addr t.ent.pte ≤ pa) && decide (pa < Pte.addr t.ent.pte + t.ent.size))).map (·.ent)

/-- A refused request: a read completes as Unsupported Request, a write is dropped; logged against the function. -/
def State.refuseEp (s : State) (rid : BitVec 16) (x : Nat) (r : EpReq) : State :=
  let s := match r.write with
    | none => s.emit (.unsupported rid)
    | some _ => s
  s.logRequest (some rid) x r.addr.toNat

/-- The granules of a request, each translated as a U-level access of a context; `none` where one fails. No request of an
endpoint reaches the peer tier (R263). R329 refuses the addresses of the windows to instructions and fetches: for a unit's request
there the tables are walked (the model's choice, log 116). -/
def State.epPlaces (s : State) (x : Nat) (need : AccNeed) : List Nat → Option (List (Nat × Nat × Nat)) × State
  | [] => (some [], s)
  | g :: gs =>
    if 2 ^ 60 ≤ 16 * g then (none, s)
    else match s.translate .iommu x true need (16 * g) with
      | (.pa p key, s) =>
        if isPeer p then (none, s)
        else match s.epPlaces x need gs with
          | (some ps, s) => (some ((g, p, key) :: ps), s)
          | r => r
      | (_, s) => (none, s)

/-- The granules of a request at addresses that ATS gave the function; `none` where it holds none that grants the access. -/
def State.atsPlaces (s : State) (rid : BitVec 16) (need : AccNeed) : List Nat → Option (List (Nat × Nat × Nat))
  | [] => some []
  | g :: gs =>
    match s.atsHeld? rid (16 * g) with
    | some t =>
      if (if need = .store then Pte.w t.pte else Pte.rd t.pte) && !isPeer (16 * g) then
        (s.atsPlaces rid need gs).map (fun ps => (g, 16 * g, Pte.key t.pte) :: ps)
      else none
    | none => none

/-- Read the granules of a request. -/
def State.epRead (s : State) : List (Nat × Nat × Nat) → List Byte × Bool × State
  | [] => ([], false, s)
  | (_, p, key) :: ps =>
    let (bs, m, s) := s.homeGranule key (granule p)
    let (more, m', s) := s.epRead ps
    (bs ++ more, m || m', s)

/-- What a request needs, and the granules it covers at an address. -/
def epNeed (r : EpReq) : AccNeed := if r.write.isSome then .store else .load
def epCovers (r : EpReq) (va : Nat) : List Nat :=
  granules va (match r.write with
    | some data => data.length
    | none => r.len)

/-- Step 6 of R347: the request takes effect at the home slices of the places found, each line of the capacity tier in one CXL.mem request
(R262), or is refused. -/
def State.epPerform (s : State) (rid : BitVec 16) (x : Nat) (va : Nat) (who : Observer) (r : EpReq) :
    Option (List (Nat × Nat × Nat)) → State
  | none => s.refuseEp rid x r
  | some ps =>
    match r.write with
    | none =>
      let (bs, m, s) := (s.cxlReadGranules (ps.map (fun p => granule p.2.1))).epRead ps
      s.emit (.readData rid ((bs.drop (va % 16)).take r.len) m)
    | some data =>
      let all := addrBytes va data
      let writes := ps.map (fun p => (p.2.2, (all.filter (fun b => b.1 / 16 == p.1)).map (fun b => (p.2.1 + b.1 % 16, b.2, (0xFF : Byte)))))
      writes.foldl (fun s w => s.homeWrite w.1 w.2 r.poison { who }) (s.cxlWrites (writes.flatMap (·.2)) r.poison)

/-- Steps 5 and 6 of R347: translate, check and perform. -/
def State.epAccess (s : State) (rid : BitVec 16) (x : Nat) (va : Nat) (who : Observer) (r : EpReq) : State :=
  let (ps, s) := s.epPlaces x (epNeed r) (epCovers r va)
  s.epPerform rid x va who r ps

def inAperture (a : BitVec 64) : Bool := 0xFEE00000 ≤ a.toNat && a.toNat ≤ 0xFEE0FFFF

/-- A request to the interrupt aperture (R353); `checked`: its requester ID must be the entry's. -/
def State.apertureRequest (s : State) (addr : Nat) (checked : Bool) (r : EpReq) : State :=
  let n := (addr - 0xFEE00000) / 16
  let e := s.irq n
  match r.write with
  | some data =>
    if data.length = 4 && addr % 16 = 0 && IrqF.v e && !IrqF.src e && (!checked || IrqF.rid e = r.rid.toNat) then
      s.irqArrive n (some r.rid)
    else s.refuseEp r.rid 0 r
  | none => s.refuseEp r.rid 0 r

/-- The order of R347. A request at a translated address needs ATS set, and a translation that the function holds. -/
def State.endpoint (s : State) (r : EpReq) : State :=
  let e := s.fn r.rid.toNat
  if overPayload .root r then s.refuseEp r.rid 0 r
  else if inAperture r.addr then s.apertureRequest r.addr.toNat true r
  else if !Fn.v e || (r.pasid.isSome && !Fn.pasen e) || r.exec then s.refuseEp r.rid 0 r
  else if r.translated then
    s.epPerform r.rid 0 r.addr.toNat .endpoint r (if Fn.ats e then s.atsPlaces r.rid (epNeed r) (epCovers r r.addr.toNat) else none)
  else match s.ctxOfPasid ((r.pasid.map (·.toNat)).getD (Fn.dpasid e)) with
    | none => s.refuseEp r.rid 0 r
    | some x => s.epAccess r.rid x r.addr.toNat .endpoint r

def execEndpointRequest (r : EpReq) (s : State) : Host.Outcome State Fault Refusal := .next (s.endpoint r)

/-- MSIX_ARRIVAL: a request to the interrupt aperture. -/
def execMsixArrival (r : EpReq) (s : State) : Host.Outcome State Fault Refusal :=
  .next (if inAperture r.addr then s.apertureRequest r.addr.toNat true r else s)

/-! ## Peers (R356, R357) -/

/-- The open inbound window of a port that claims all of a request. -/
def State.inboundWindow (s : State) (port : Nat) (a n : Nat) : Option (BitVec 256) :=
  ((List.range 32).map (fun i => (mget 0 s.io.ntb (32 * port + i) : BitVec 256))).find? (fun e =>
    e.getLsbD 255 && e.getLsbD 254 && bget e 0 64 ≤ a && a + n ≤ bget e 0 64 + 2 ^ bget e 248 5 * 65536)

/-- PEER_INBOUND_REQUEST: at LBASE + (address − RBASE), under the window's PASID, in the order of R347 with RID checks omitted. -/
def execPeerInboundRequest (port : Nat) (r : EpReq) (s : State) : Host.Outcome State Fault Refusal :=
  .next (let n := match r.write with
      | some d => d.length
      | none => r.len
    if !s.linkUp port || s.linkRole port ≠ .peer then s
    else if overPayload .peer r then s.refuseEp r.rid 0 r
    else match s.inboundWindow port r.addr.toNat (Nat.max 1 n) with
      | none => s.refuseEp r.rid 0 r
      | some e =>
        let va := bget e 64 60 + (r.addr.toNat - bget e 0 64)
        if r.write.isSome && !e.getLsbD 253 then s.refuseEp r.rid 0 r
        else if inAperture (BitVec.ofNat 64 va) then s.apertureRequest va false r
        else if r.exec then s.refuseEp r.rid 0 r
        else match s.ctxOfPasid (bget e 228 20) with
          | none => s.refuseEp r.rid 0 r
          | some x => s.epAccess r.rid x va .peer r)

/-! ## Links (R344, R357) -/

/-- LINK_TRAIN: a link of a port that is not disabled trains at the highest rate of both ends, of which `rate`, in tenths of
GT/s, is the other end's highest. A root port's link that trains CXL and finds a Type 3 device (`cxl`) carries CXL.mem (R15); a
peer port reaches the module at the other end (R359). -/
def execLinkTrain (port : Nat) (rate : Nat) (cxl : Bool) (md : BitVec 8) (s : State) : Host.Outcome State Fault Refusal :=
  .next (match s.linkRole port, trainedRate rate (cxl && s.linkRole port == .root) with
    | .none, _ => s
    | _, none => s
    | role, some r =>
      let old := ((mget none s.io.links port).map (·.reached)).getD []
      let reached := if role = .peer && !old.contains md then old ++ [md] else old
      s.modIo (fun io => { io with links := mset none io.links port (some ⟨true, r, cxl && role == .root, md, reached, portOptions role r⟩) }))

/-- The lanes of a link: those that its port's mode gives it (Table 20-9), at the next lower width for each lane that it was
retrained without (Table 22-6). -/
def State.linkWidth (s : State) (link : Nat) : Nat :=
  let w := match portMode s.io.pmode (link % 8) with
    | 1 | 4 | 6 => 16
    | 2 | 5 | 7 => 8
    | 3 => 4
    | _ => 0
  Nat.max (Nat.min w 1) (w / 2 ^ mget 0 s.errors.narrowed link)

/-- The peer links that have reached a module since reset. -/
def State.peerLinks (s : State) (md : Nat) : List Link :=
  (List.range 8).filterMap (fun p =>
    if s.linkRole p = .peer then
      (mget none s.io.links p).bind (fun l => if l.reached.any (fun m => m.toNat == md) then some l else none)
    else none)

/-- Is a module reached by an open peer link? -/
def State.peerUp (s : State) (md : Nat) : Bool := (s.peerLinks md).any (fun l => l.up && l.module.toNat == md)

/-- Messages that wait for a link that has gone down complete with LINK_DOWN (R357): MSCTL takes the status at once, a ring entry
as the engine writes it. -/
def State.failMessages (s : State) (md : Nat) : State :=
  let waits (m : Message) : Bool := m.code.isNone && !m.remote && bget m.bits 72 8 = md && md ≠ s.io.modId.toNat && !s.peerUp md
  s.modIo (fun io => { io with
    msStatus := if io.messages.any (fun m => waits m && m.fromMgmt) then Cause.linkDown.code else io.msStatus
    msBusy := io.msBusy && !io.messages.any (fun m => waits m && m.fromMgmt)
    messages := (io.messages.filter (fun m => !(waits m && m.fromMgmt))).map (fun m =>
      if waits m then { m with code := some Cause.linkDown.code } else m) })

/-- An error of a link that retrains, or does not, is reported as its options say: through AER by the host face, in the error log by the
others, as a corrected error where the link retrains; the loss of a link is logged in any case (R344, R357, R387). -/
def State.reportLink (s : State) (link : Nat) (loc : Loc) (retrained : Bool) : State :=
  match mget none s.io.links link with
  | some l =>
    let s := if l.options.aer then s.emit (.aer link retrained) else s
    if l.options.errorsLogged && retrained then s.logAt 0x02 0 0 loc 0 else s
  | none => s

/-- A link goes down: LINK_DOWN is logged; loads that wait for an answer over it get
poisoned data, and messages that wait on it complete (R357). -/
def State.loseLink (s : State) (port : Nat) : State :=
  match mget none s.io.links port with
  | some l =>
    if l.up then
      let s := s.modIo (fun io => { io with links := mset none io.links port (some { l with up := false }) })
      (s.logLinkDown port).pathLost.failMessages l.module.toNat
    else s
  | none => s

/-- LINK_DOWN: a link is lost, or a window of a port closes. -/
def execLinkDown (port : Nat) (window : Option Nat) (s : State) : Host.Outcome State Fault Refusal :=
  .next (match window with
    | none => s.loseLink port
    | some w =>
      let i := 32 * port + w
      if port < 8 && w < 32 then s.writeWindow i (bput (mget 0 s.io.ntb i : BitVec 256) 255 1 0) else s)

/-! ## ATS and PRI (R217, R258, R338) -/

/-- May a function make a translation or page request? -/
def State.xlateAllowed (s : State) (rid : BitVec 16) (pasid : Option (BitVec 20)) (allowed : BitVec 64 → Bool) : Bool :=
  let e := s.fn rid.toNat
  Fn.v e && allowed e && (pasid.isNone || Fn.pasen e)

/-- The context whose tables answer it; none where no record that is not free has the PASID (R328). -/
def State.xlateCtx (s : State) (rid : BitVec 16) (pasid : Option (BitVec 20)) : Option Nat :=
  s.ctxOfPasid ((pasid.map (·.toNat)).getD (Fn.dpasid (s.fn rid.toNat)))

/-- A function holds a translation. -/
def State.holdAts (s : State) (t : AtsEnt) : State :=
  s.modIo (fun io => { io with ats := if io.ats.contains t then io.ats else io.ats ++ [t] })

/-- ATS_REQUEST: the address, with RD and W as the leaf that gave it grants them, or both denied. -/
def execAtsRequest (rid : BitVec 16) (pasid : Option (BitVec 20)) (va : BitVec 64) (s : State) : Host.Outcome State Fault Refusal :=
  .next (if !s.xlateAllowed rid pasid Fn.ats then (s.emit (.unsupported rid)).logRequest (some rid) 0 va.toNat
    else match s.xlateCtx rid pasid with
      | none => s.emit (.atsReply rid 0 false false)
      | some x =>
        if outOfRange va then s.emit (.atsReply rid 0 false false)
        else match s.xlate .iommu x true .load va.toNat with
          | (.pa p _, (e, size), s) =>
            (s.holdAts ⟨rid, ⟨.iommu, BitVec.ofNat 16 x, va.toNat / size * size, size, e, none⟩⟩).emit
              (.atsReply rid (BitVec.ofNat 64 p) (Pte.rd e) (Pte.w e))
          | (_, _, s) => s.emit (.atsReply rid 0 false false))

/-- PRI_REQUEST: Success when the page is resident; an absent page enters R256; else Response Failure. A function whose PRI bit is
clear makes no page request: one that comes is answered as an Unsupported Request and logged (the model's choice, log 115). -/
def execPriRequest (rid : BitVec 16) (pasid : Option (BitVec 20)) (va : BitVec 64) (s : State) : Host.Outcome State Fault Refusal :=
  .next (if !s.xlateAllowed rid pasid Fn.pri then (s.emit (.unsupported rid)).logRequest (some rid) 0 va.toNat
    else match s.xlateCtx rid pasid with
      | none => s.emit (.prgReply rid false)
      | some x =>
        if outOfRange va then s.emit (.prgReply rid false)
        else match s.translate .iommu x true .load va.toNat with
          | (.pa .., s) => s.emit (.prgReply rid true)
          | (.absent e, s) => s.startPromotion x va e (some (.pri rid va))
          | (.fault _, s) => s.emit (.prgReply rid false))

/-- Invalidations that endpoints still owe, in order: drain number and function. -/
def State.owedInvs (s : State) : List (Nat × BitVec 16) := (s.io.drains.zipIdx).flatMap (fun p => p.1.owing.map (fun r => (p.2, r)))

/-- A function's invalidation under the drain `i` counts as completed: it holds nothing under it any more. -/
def State.endInv (s : State) (i : Nat) (rid : BitVec 16) : State :=
  let s := match s.io.drains[i]? with
    | some d => s.dropAts rid d
    | none => s
  s.modIo (fun io => { io with drains := io.drains.modify i (fun d => { d with owing := d.owing.erase rid }) })

/-- ATS_INVALIDATION_COMPLETION: the `idx`-th invalidation owed is completed. -/
def execAtsInvalidationCompletion (idx : Nat) (s : State) : Host.Outcome State Fault Refusal :=
  .next (match s.owedInvs[idx]? with
    | some (i, rid) => (s.endInv i rid).settleDrains
    | none => s)

/-- ATS_INVALIDATION_TIMEOUT: the oldest invalidation that the function owes counts as completed, ATS of the function is cleared, and the
event is logged; each later one ends on its own (R338). -/
def execAtsInvalidationTimeout (rid : BitVec 16) (s : State) : Host.Outcome State Fault Refusal :=
  .next (match s.io.drains.findIdx? (fun d => d.owing.contains rid) with
    | some i =>
      let s := (s.endInv i rid).modIo (fun io => { io with fns := mset 0 io.fns rid.toNat (bput (mget 0 io.fns rid.toNat) 62 1 0) })
      (s.logRaw { ev := 0x06, loc := locWord { kind := 8, core := 0, index := rid.setWidth 20 } }).settleDrains
    | none => s)

/-! ## Zhevy messages (R333, R334, R358–R361) -/

/-- Write STATUS of a ring entry; `none` while its page is not resident. -/
def State.writeStatus (s : State) (x : Nat) (va : BitVec 64) (code : BitVec 8) : Option State × State :=
  match s.translate .iommu x true .unitStore va.toNat with
  | (.pa p key, s) => (some (s.unitWrite key (p + 1) [code] { rel := some .sys }), s)
  | (.absent e, s) => (none, s.startPromotion x va e none)
  | (.fault _, s) => (some (s.logRequest none x va.toNat), s)

/-- A message completes: its status goes back to where it came from. -/
def State.completeMessage (s : State) (i : Nat) (m : Message) (code : BitVec 8) : State :=
  let drop (s : State) : State := s.modIo (fun io => { io with messages := io.messages.eraseIdx i })
  if m.fromMgmt then (drop s).modIo (fun io => { io with msStatus := code, msBusy := false })
  else if m.remote then (drop s).emit (.message (Msg.setStatus m.bits code))
  else match s.writeStatus m.ctx.toNat m.entryVa code with
    | (some t, _) => drop t
    | (none, s) => s.modIo (fun io => { io with messages := io.messages.set i { m with code := some code } })

/-- MESSAGE_TAKE: the next entry of a ring is stamped, and kept for delivery or completed. An entry that its context's
tables do not let the engine read is passed over and logged (log 32). -/
def State.takeMessage (s : State) (ring : Nat) : State :=
  let e := s.bell ring
  let i : Word := mget 0 s.io.ringIdx ring
  let x := Bell.ctx e
  if !(Bell.v e) || Bell.kind e ≠ 2 || i = mget 0 s.io.ringW ring then s
  else
    let va := Bell.target e + BitVec.ofNat 64 (64 * (i.toNat % 2 ^ Bell.slog e))
    let next (s : State) : State := s.modIo (fun io => { io with ringIdx := mset 0 io.ringIdx ring (i + 1) })
    if outOfRange va then (next s).logRequest none x va.toNat
    else match s.translate .iommu x true .unitLoad va.toNat with
      | (.fault _, s) => (next s).logRequest none x va.toNat
      | (.absent p, s) => s.startPromotion x va p none
      | (.pa p key, s) =>
        let (bs, mark, s) := (s.cxlReads p 64).readGranules key p 4
        let raw : BitVec 512 := BitVec.ofNat 512 (bytesNat bs)
        let bits := bputs raw [(96, 16, x), (64, 8, s.io.modId.toNat)]
        let m : Message := ⟨bits, false, BitVec.ofNat 16 x, va, false, false, none⟩
        let s := (next s).modIo (fun io => { io with messages := io.messages ++ [m] })
        let last := s.io.messages.length - 1
        let dst := Msg.dstMod bits
        if mark then s.completeMessage last m Cause.poisonUse.code
        else if Msg.reserved bits || Msg.type bits ≠ 1 then s.completeMessage last m Cause.packetMalformed.code
        else if dst = s.io.modId.toNat || s.peerUp dst then s
        else if (s.peerLinks dst).isEmpty then s.completeMessage last m Cause.packetMalformed.code
        else s.completeMessage last m Cause.linkDown.code

def execMessageTake (ring : Nat) (s : State) : Host.Outcome State Fault Refusal := .next (s.takeMessage ring)

/-- The first granule of an inbox; one outside every installed range is never accessed (R253), nor one of a peer module (R263), and what the
engine takes for it is free (log 50). -/
def State.inboxHead (s : State) (key base : Nat) : List Byte × State :=
  if s.unitReaches base then
    let (bs, _, s) := (s.cxlReads base 16).homeGranule key (granule base)
    (bs, s)
  else s.freeBytes16

/-- Delivery to a context of this module (Table 17-3). -/
def State.deliverLocal (s : State) (i : Nat) (m : Message) : State :=
  let x := Msg.dstCtx m.bits
  let r := s.ctxRec x
  let ilog := CtxF.ilog r
  if CtxF.state r ≠ 1 || ilog < 2 || 12 < ilog then s.completeMessage i m Cause.deadContext.code
  else
    let base := CtxF.inbox r
    let key := CtxF.ckey r
    let (hd, s) := s.inboxHead key base
    let iw := bytesNat (hd.take 4)
    let ir := bytesNat ((hd.drop 8).take 4)
    if 2 ^ ilog ≤ (iw + 2 ^ 32 - ir) % 2 ^ 32 then
      s.modIo (fun io => { io with messages := io.messages.set i { m with held := true } })
    else
      let s := s.unitWrite key (base + 64 + 64 * (iw % 2 ^ ilog)) (natBytes 64 m.bits.toNat)
      let s := s.unitWrite key base (natBytes 4 (iw + 1)) { rel := some .sys }
      let s := if CtxF.run r = 0 && msgvValid r then s.msgArrive x
        else s.setCtxRec x (bput r 160 16 (Nat.min 65535 (CtxF.pend r + 1)))
      s.completeMessage i m 0x01

/-- Is a message delivered on this module? -/
def State.localMsg (s : State) (m : Message) : Bool := m.remote || Msg.dstMod m.bits = s.io.modId.toNat

/-- Does an earlier message go first: of the same engine to the same module (R360), or to the same context (R334)? -/
def State.msgBlocked (s : State) (i : Nat) (m : Message) : Bool :=
  let engine (m : Message) : Option Nat := if m.remote then some (Msg.srcMod m.bits) else none
  let dst (m : Message) : Option Nat := if m.remote then none else some (Msg.dstMod m.bits)
  (s.io.messages.take i).any (fun e => e.code.isNone && ((engine e == engine m && dst e == dst m)
    || (s.localMsg e && s.localMsg m && Msg.dstCtx e.bits == Msg.dstCtx m.bits)))

/-- MESSAGE_DELIVERY: to a context of this module, or over the link to another; how the other module's engine completes it is a
free choice between a positive completion and DEAD_CONTEXT. -/
def execMessageDelivery (idx : Nat) (s : State) : Host.Outcome State Fault Refusal :=
  .next (match s.io.messages[idx]? with
    | none => s
    | some m =>
      match m.code with
      | some c => s.completeMessage idx m c
      | none =>
        let dst := Msg.dstMod m.bits
        if s.msgBlocked idx m then s
        else if m.fromMgmt then
          if Msg.type m.bits ≠ 2 || Msg.reserved m.bits || dst = s.io.modId.toNat then s.completeMessage idx m Cause.packetMalformed.code
          else if s.peerUp dst then (s.emit (.message m.bits)).completeMessage idx m 0x01
          else s.completeMessage idx m Cause.linkDown.code
        else if s.localMsg m then
          if m.held && CtxF.state (s.ctxRec (Msg.dstCtx m.bits)) = 1 then s else s.deliverLocal idx m
        else if s.peerUp dst then
          let (dead, s) := s.freeBit
          (s.emit (.message m.bits)).completeMessage idx m (if dead then Cause.deadContext.code else 0x01)
        else s.completeMessage idx m Cause.linkDown.code)

/-- MESSAGE_RETRY: a message held on a full inbox is tried again. -/
def execMessageRetry (ctx : BitVec 16) (s : State) : Host.Outcome State Fault Refusal :=
  .next (match s.io.messages.findIdx? (fun m => m.held && Msg.dstCtx m.bits == ctx.toNat) with
    | some i => match s.io.messages[i]? with
      | some m => s.deliverLocal i { m with held := false }
      | none => s
    | none => s)

/-- Write octets of management SRAM by a unit. -/
def State.sramWrite (s : State) (a : Nat) (bs : List Byte) : State :=
  s.modMgmt (fun m => { m with sram := pokes m.sram a bs, sramPoison := markMasked m.sramPoison (fullBytes a bs) false })

def State.sramWord (s : State) (a : Nat) : Nat := bytesNat (peeks s.mgmt.sram a 4)

/-- Does a DATA message of another module's engine still wait for its delivery? A TURN-READY that the same engine took later goes
after it (R360). -/
def State.dataWaits (s : State) (md : Nat) : Bool :=
  s.io.messages.any (fun m => m.remote && m.code.isNone && Msg.srcMod m.bits == md)

/-- TURN_READY_RECEIVE: a message comes over a link. A TURN-READY goes into the management receive ring; while that is full
or has no place the sending engine holds it. A DATA message waits for its delivery (R359). -/
def execTurnReadyReceive (msg : BitVec 512) (s : State) : Host.Outcome State Fault Refusal :=
  .next (if !s.peerUp (Msg.srcMod msg) then s
    else if Msg.type msg = 2 && s.dataWaits (Msg.srcMod msg) then s
    else if Msg.type msg = 1 then
      s.modIo (fun io => { io with messages := io.messages ++ [⟨msg, false, Msg.srcCtx msg, 0, false, true, none⟩] })
    else if Msg.type msg = 2 then
      let base := s.io.mrbase.toNat
      let a := base - 0x100000
      let w := s.sramWord a
      if base < 0x100000 || 0x200000 < base + 64 + 1024 || (w + 2 ^ 32 - s.sramWord (a + 8)) % 2 ^ 32 = 16 then s
      else (s.sramWrite (a + 64 + 64 * (w % 16)) (natBytes 64 msg.toNat)).sramWrite a (natBytes 4 (w + 1))
    else s)

/-! ## The host face (R362, R363) -/

/-- The feature bits that a function offers: VERSION_1 (32) and RING_EVENT_IDX (29); virtio-net also MTU (3), MAC (5) and STATUS
(16). Bit numbers as virtio 1.2 assigns them (PRESUMED, log 101). -/
def virtioFeatures (fn : Nat) : BitVec 64 :=
  if fn = 0 then 2 ^ 32 + 2 ^ 29 else 2 ^ 32 + 2 ^ 29 + 2 ^ 3 + 2 ^ 5 + 2 ^ 16

/-- A virtqueue of a function of the host face: each of the two has two. -/
def State.virtq (s : State) (fn queue : Nat) : VirtQueue := mget {} s.io.virtqs (2 * fn + queue)
def State.modVirtq (s : State) (fn queue : Nat) (f : VirtQueue → VirtQueue) : State :=
  if fn < 2 && queue < 2 then
    s.modIo (fun io => { io with virtqs := mset {} io.virtqs (2 * fn + queue) (f (s.virtq fn queue)) })
  else s

/-- What R362 gives for a register of the host face. virtio 1.2 assigns one vendor ID. -/
def State.virtioReg (s : State) : Config.VirtioField → Nat
  | .vendor _ => Config.virtioId 2
  | .device fn => Config.virtioId (fn % 2)
  | .features fn high => bget (virtioFeatures fn) (if high then 32 else 0) 32
  | .queueSize fn queue => if fn < 2 && queue < 2 then (s.virtq fn queue).size else 0
  | .vectors _ => 3
  | .mtu => 9000
  | .netStatus => if s.mgmt.stage = .summer then 1 else 0
  | .driverFeatures fn high => bget (mget 0 s.io.hostFeatures fn) (if high then 32 else 0) 32
  | .status fn => (mget 0 s.io.hostStatus fn).toNat
  | .queueEnable fn queue => if (s.virtq fn queue).enabled then 1 else 0
  | .queueArea fn queue area high => bget (mget 0 (s.virtq fn queue).areas area) (if high then 32 else 0) 32

/-- What a write of the host does to such a register: it sets up the queues, of up to 256 entries, and accepts features from those offered;
a device status of 0 resets the function. The other registers are read-only. As virtio 1.2 has them (PRESUMED, log 101). -/
def State.setVirtioReg (s : State) (v : Nat) : Config.VirtioField → State
  | .driverFeatures fn high => s.modIo (fun io => { io with
      hostFeatures := mset 0 io.hostFeatures fn (bput (mget 0 io.hostFeatures fn) (if high then 32 else 0) 32 v &&& virtioFeatures fn) })
  | .status fn =>
    if v % 256 = 0 then s.modIo (fun io => { io with
      hostStatus := mset 0 io.hostStatus fn 0, hostFeatures := mset 0 io.hostFeatures fn 0
      virtqs := mset {} (mset {} io.virtqs (2 * fn) {}) (2 * fn + 1) {} })
    else s.modIo (fun io => { io with hostStatus := mset 0 io.hostStatus fn (BitVec.ofNat 8 v) })
  | .queueSize fn queue =>
    if (List.range 9).any (fun k => v == 2 ^ k) then s.modVirtq fn queue (fun q => { q with size := v }) else s
  | .queueEnable fn queue => if v = 1 then s.modVirtq fn queue (fun q => { q with enabled := true }) else s
  | .queueArea fn queue area high =>
    s.modVirtq fn queue (fun q => { q with areas := mset 0 q.areas area (bput (mget 0 q.areas area) (if high then 32 else 0) 32 v) })
  | _ => s

/-- Who carries a function of the host face, as of now (R362): virtio-net the system cores; the console the management core in the
Winter stage, and the system cores once it has been handed to them in the Spring stage, at a moment that is free (log 105). -/
def State.virtioCarrier (s : State) (fn : Nat) : IoActor × State :=
  if fn = 1 then (.system, s)
  else match s.mgmt.stage with
    | .winter => (.management, s)
    | .summer => (.system, s)
    | .spring =>
      let (handed, s) := if s.io.consoleHanded then (true, s) else s.freeBit
      (if handed then .system else .management, s.modIo (fun io => { io with consoleHanded := handed }))

/-- The next entry of a queue's available ring is taken: its index, the entry and the descriptor that it names are read from host memory,
whose contents are free (R362, R363). -/
def State.takeBuffer (s : State) (fn queue : Nat) : Nat × State :=
  let q := s.virtq fn queue
  let area (k : Nat) : BitVec 64 := mget 0 q.areas k
  let (x, s) := s.freePair
  let head := x.toNat % q.size
  (head, (((s.emit (.hostRead (area 1 + 2) 2)).emit (.hostRead (area 1 + BitVec.ofNat 64 (4 + 2 * (q.taken.toNat % q.size))) 2)).emit
    (.hostRead (area 0 + BitVec.ofNat 64 (16 * head)) 16)).modVirtq fn queue (fun q => { q with taken := q.taken + 1 }))

/-- A buffer is used: the next element of the used ring names it, and the ring's index counts on; whether the host's memory asks for an
interrupt then is free (log 105). -/
def State.useBuffer (s : State) (fn queue head len : Nat) : State :=
  let q := s.virtq fn queue
  let used : BitVec 64 := mget 0 q.areas 2
  let s := ((s.emit (.hostWrite (used + BitVec.ofNat 64 (4 + 8 * (q.filled.toNat % q.size))) (natBytes 4 head ++ natBytes 4 len))).emit
    (.hostWrite (used + 2) (natBytes 2 (q.filled.toNat + 1)))).modVirtq fn queue (fun q => { q with filled := q.filled + 1 })
  let (asked, s) := s.freeBit
  if asked then s.hostMsix fn queue else s

/-- VIRTIO_NOTIFY: for a queue that the host has enabled, whoever carries it is told, and where the available ring has a buffer it is taken
and used, which its vector may tell the host. A buffer whose data are poisoned is not delivered and is logged (R389). Whether the ring has
a buffer, how many bytes of it are used, and whether they are poisoned are free: the ring is host memory, and no chapter says where the
carrier keeps the data (log 105). -/
def execVirtioNotify (fn : Nat) (queue : Nat) (s : State) : Host.Outcome State Fault Refusal :=
  .next (if s.hostUp && fn < 2 && queue < 2 && (s.virtq fn queue).enabled then
    let (carrier, s) := s.virtioCarrier fn
    let (posted, s) := (s.emit (.virtioNotified carrier fn queue)).freeBit
    if !posted then s
    else
      let (poisoned, s) := s.freeBit
      let (head, s) := s.takeBuffer fn queue
      if poisoned then s.logRaw { ev := 0x0B }
      else
        let (n, s) := s.freePair
        s.useBuffer fn queue head (n.toNat % 2 ^ 32)
  else s)

/-- `n` free bytes. -/
def State.freeBytes (s : State) : Nat → List Byte × State
  | 0 => ([], s)
  | n + 1 =>
    let (v, s) := s.freePair
    let (bs, s) := s.freeBytes n
    (v.setWidth 8 :: bs, s)

/-- HOST_REQUEST: an address of the virtio structures, the MSI-X table or the DOE mailbox is served by the device; any
other completes as Unsupported Request. Where those structures lie is the virtio transport's: free (log 6). What the host writes
there is held: its feature and queue set-up, and what else it has written reads back (PRESUMED, log 101); a byte that it has not written is
the device's own, free. A write of more than the Max Payload Size is an error that the face reports (R344). No host request reaches memory,
a device-function register or the error log. -/
def execHostRequest (r : HostAccess) (s : State) : Host.Outcome State Fault Refusal :=
  .next (if !s.hostUp then s
    else
      let (exposed, s) := s.freeBit
      match r, exposed with
      | .read a len, true =>
        match Config.virtioAt a with
        | some f => s.emit (.hostData (natBytes len (s.virtioReg f)))
        | none =>
          let (bs, s) := s.freeBytes len
          s.emit (.hostData (bs.mapIdx (fun i b => (mget none s.io.hostRegs (a.toNat + i)).getD b)))
      | .write a data, true =>
        if (portOptions .host 0).maxPayload < data.length then s.hostAer false
        else match Config.virtioAt a with
          | some f => s.setVirtioReg (bytesNat data) f
          | none => s.modIo (fun io => { io with hostRegs := data.zipIdx.foldl (fun m b => mset none m (a.toNat + b.2) (some b.1)) io.hostRegs })
      | _, false => s.emit .hostUnsupported)

/-! ## What the system cores do (R254, R327, R338, R349, R352, R369) -/

def execContextRecordWrite (ctx : BitVec 16) (rec : BitVec 256) (s : State) : Host.Outcome State Fault Refusal :=
  .next (s.bySystem (·.writeCtx ctx.toNat rec))

def execDoorbellMapWrite (idx : Nat) (entry : BitVec 256) (s : State) : Host.Outcome State Fault Refusal :=
  .next (s.bySystem (fun s => if idx < 16384 then s.writeBell idx entry else s))

def execIrqBindingWrite (idx : Nat) (entry : BitVec 64) (s : State) : Host.Outcome State Fault Refusal :=
  .next (s.bySystem (fun s => if idx < 4096 then s.writeIrq idx entry else s))

def execInvalidationRequest (kind : TlbiKind) (addr : BitVec 64) (ctx : BitVec 16) (s : State) : Host.Outcome State Fault Refusal :=
  .next (s.bySystem (·.requestInv kind addr ctx))

def execControlSpaceWrite (who : IoActor) (off : BitVec 64) (size : Nat) (v : BitVec 64) (s : State) :
    Host.Outcome State Fault Refusal :=
  .next (if who = .system then s.bySystem (·.ioWrite who off.toNat size v) else s.ioWrite who off.toNat size v)

/-- Bytes of device memory under key slot 0. -/
def State.readSlot0 (s : State) (a : Nat) : List Nat → List Byte × State
  | [] => ([], s)
  | g :: gs =>
    let (bs, _, s) := s.homeGranule 0 g
    let (more, s) := s.readSlot0 a gs
    (bs ++ more, s)

/-- SYSTEM_CORE_MEMORY_ACCESS: a physical access under key slot 0; outside the installed ranges nothing is reached. A read of
control space gives the register, or zero with a record in the log (R369). -/
def execSystemCoreMemoryAccess (r : SysAccess) (s : State) : Host.Outcome State Fault Refusal :=
  .next (s.bySystem (fun s => match r with
    | .read pa len =>
      if (granules pa.toNat len).all (fun g => s.installed (16 * g)) then
        let (bs, s) := (s.cxlReadGranules (granules pa.toNat len)).readSlot0 pa.toNat (granules pa.toNat len)
        s.emit (.sysData ((bs.drop (pa.toNat % 16)).take len))
      else s
    | .write pa data =>
      if (granules pa.toNat data.length).all (fun g => s.installed (16 * g)) then s.unitWrite 0 pa.toNat data else s
    | .readCtl off size =>
      let (v, s) := s.ioRead off.toNat size
      s.emit (.sysData (natBytes size v.toNat))))

end Sys2Proof.Machine
end

