-- ==== Sys2Proof/Machine/Errors.lean ====
section
/-! DEFINITION. Errors (22_errors R387–R398) and HBM commands (11 R259, 22 R392, R393): what an error damages, marks,
stops or logs, and how its classification ends. -/

namespace Sys2Proof.Machine

/-! ## HBM commands and their history (R259, R392, R393) -/

/-- INDEX of a sub-channel (Table 17-6): stack in [19:16], sub-channel in [15:10]; R257 gives both. -/
def subIndex (u : Nat) : Nat := u % 12 * 65536 + u / 12 * 1024

/-- The location of an HBM row: the row of the block at a fast-tier address (log 9). -/
def hbmLoc (pa : Nat) : Loc :=
  { kind := 4, core := 0, index := BitVec.ofNat 20 (subIndex (subChannel pa)), ext := Config.hbmRow (pa / 98304) }

/-- The bytes that a burst moves: four to a beat, for a request of 16, 32, 64 or 128 bytes (R226, R259). -/
def burstBytes (beats : Nat) : Nat := 4 * beats

/-- HBM_BURST: a request of a core that waits is served, from L2, from the write queue of its sub-channel or by a burst of four bytes a
beat (R259, R260); else a write of the sub-channel's queue goes out. While 64 commands wait the controller stalls (R392). -/
def execHbmBurst (pa : BitVec 64) (beats : Nat) (write : Bool) (s : State) : Host.Outcome State Fault Refusal :=
  .next (
    let n := burstBytes beats
    match s.bursts.find? (fun r => r.pa == pa.toNat && r.size == n && r.write == write) with
    | some r => (s.serveBurst? r).getD s
    | none => match if write then (s.sub (subChannel pa.toNat)).writes.find? (fun w => w.pa == pa.toNat && w.size == n) else none with
      | some w => s.writeBurst w
      | none => s)

/-- HISTORY_RETIRE: the oldest command leaves; one that was replayed has then succeeded, which is logged. -/
def execHistoryRetire (sub : Nat) (s : State) : Host.Outcome State Fault Refusal :=
  .next (
    let c := s.sub sub
    match c.history with
    | [] => s
    | e :: _ =>
      let s := s.setSub sub c.retire
      if e.replayed then s.logAt 0x02 0 0 (hbmLoc e.pa) 0 else s)

/-- Issue commands again, in order: each opens its row once more. -/
def SubChannel.reissue (c : SubChannel) (cmds : List HbmCommand) : SubChannel :=
  cmds.foldl (fun c e => { c with history := c.history ++ [{ e with issued := e.issued + 1, before := c.banks }]
                                  banks := openRow c.banks e.pa }) c

/-- The recovery from an ALERT: the base die has dropped the tagged command and all that followed it, and executes nothing until
RESYNC; the model is rewound to the state before that command, every bank precharged and its rows reopened, and the tagged command
and every later one are issued again. -/
def SubChannel.replay (c : SubChannel) (tag : BitVec 6) : SubChannel :=
  let kept := c.history.takeWhile (fun e => e.tag ≠ tag)
  let again := c.history.dropWhile (fun e => e.tag ≠ tag)
  let banks := match again with
    | e :: _ => e.before
    | [] => c.banks
  ({ c with history := kept, banks }).reissue (again.map (fun (e : HbmCommand) => if e.tag = tag then { e with replayed := true } else e))

/-- HBM_ALERT: the tagged command and every later one are issued again. After the third replay that fails on one tag,
CMD_REPLAY_FAIL is logged and the sub-channel fails. -/
def execHbmAlert (sub : Nat) (tag : BitVec 6) (s : State) : Host.Outcome State Fault Refusal :=
  .next (
    let c := s.sub sub
    match c.history.find? (fun e => e.tag == tag) with
    | none => s
    | some cmd =>
      let n := if c.replays ≠ 0 && c.replayTag = tag then c.replays + 1 else 1
      if n ≤ 3 then
        s.setSub sub { c.replay tag with replays := n, replayTag := tag }
      else
        (s.setSub sub { nextTag := c.nextTag, failed := true }).logAt 0x01
          Cause.cmdReplayFail.code 0 (hbmLoc cmd.pa) (BitVec.ofNat 64 (subIndex sub)))

/-! ## CXL data (R262) -/

/-- CXL_DATA_RESPONSE: a 64-byte line comes back; each granule marked poison is marked in memory. -/
def execCxlDataResponse (pa : BitVec 64) (marks : BitVec 4) (s : State) : Host.Outcome State Fault Refusal :=
  .next (
    let line := pa.toNat / 64 * 64
    if s.inTier 1 line then
      (List.range 4).foldl (fun s i =>
        if marks.getLsbD i then { s with memPoison := mset false s.memPoison (line / 16 + i) true } else s) s
    else s)

/-! ## Uncorrectable errors (R387, R391) -/

/-- The granule of a byte memory is damaged: its bytes are free values. -/
def damage (m : List Host.Cell) (g : Nat) (bs : List Byte) : List Host.Cell := pokes m (16 * g) bs

/-- A granule of device memory is damaged. -/
def State.damageMem (s : State) (g : Nat) : State :=
  let (bs, s) := s.freeBytes16
  { s with mem := damage s.mem g bs, memPoison := mset false s.memPoison g true }

/-- A scratchpad granule is damaged. -/
def State.damageSp (s : State) (c g : Nat) : State :=
  let (bs, s) := s.freeBytes16
  s.modCore c (fun k => { k with sp := damage k.sp g bs, spPoison := mset false k.spPoison g true })

/-- A supervisor scratch granule is damaged. -/
def State.damageSup (s : State) (c g : Nat) : State :=
  let (bs, s) := s.freeBytes16
  s.modCore c (fun k => { k with supScratch := damage k.supScratch g bs, supScratchPoison := mset false k.supScratchPoison g true })

/-- A granule of management SRAM is damaged. -/
def State.damageSram (s : State) (g : Nat) : State :=
  let (bs, s) := s.freeBytes16
  s.modMgmt (fun m => { m with sram := damage m.sram g bs, sramPoison := mset false m.sramPoison g true })

/-- A register of a lane and bank is damaged: no chapter says which thread's register a row of the bank holds, so the
slot and the register are free among those of the lane and bank (log 33). -/
def State.damageReg (s : State) (c lane bank : Nat) : State :=
  let (v, s) := s.freePair
  let (which, s) := s.freePair
  let slot := which.toNat % 16
  let n := 4 * (which.toNat / 16 % 64) + bank
  let key := if slot = 0 then supKey lane else 64 * (slot - 1) + lane
  s.modCore c (fun k => k.modThread key (fun th => th.writeReg n (v.setWidth 32) true))

/-- Is row `r` of operand memory or accumulator unit `u` a row of the tile? -/
def rowOf (u r : Nat) (t : Tile) : Bool := t.lv ≠ .sp && poisonUnit t == u && decide (r < Hd.rows t.hdr)

/-- The destination rows of a running task that an error in row `r` of unit `u` touches (R180): its own row; the row that a row of
A, or of the source of a move that does not transpose, makes; every row for a row of B or of a transposed source. -/
def Core.touchedRows (k : Core) (t : Task) (u r : Nat) : List Nat :=
  let own (hn : Nat) : Bool := match k.tile? hn with
    | some x => rowOf u r x
    | none => false
  let all := List.range (((k.tile? t.writes).map (fun x => Hd.rows x.hdr)).getD 0)
  if t.running.isNone then []
  else if t.kind = .mma then if own t.hb then all else if own t.ha || own t.hc then [r] else []
  else if own t.hb && (t.os ^^ t.od) then all
  else if own t.ha || own t.hb then [r] else []

/-- An error touches destination rows of the running tasks: they go on, and their results carry it (R180). -/
def Core.strikeTasks (k : Core) (rows : Task → List Nat) : Core :=
  { k with tasks := k.tasks.map (fun t => { t with struck := dedup (t.struck ++ rows t) }) }

/-- Part of a slot's error may lie in its side store, which no identifier names: a free bit, and a free granule of the 528 (R409,
log 20). -/
def State.damageSide (s : State) (c slot : Nat) : State :=
  let (side, s) := s.freeBit
  if side then
    let (g, s) := s.freePair
    s.modCore c (fun k => { k with sideBad := mset false k.sideBad (528 * slot + g.toNat % 528) true })
  else s

/-- A row of operand memory or of an accumulator is marked, and the running tasks that it touches go on (R172, R180). -/
def State.damageRow (s : State) (c idx : Nat) : State :=
  let unit := (if idx / 2 ^ 19 % 2 = 1 then 128 else 0) + idx / 4096 % 128
  let s := if unit < 128 then s.damageSide c unit else s
  s.modCore c (fun k => ({ k with rowPoison := mset false k.rowPoison (64 * unit + idx % 64) true }).strikeTasks
    (fun t => k.touchedRows t unit (idx % 64)))

/-- An uncorrectable error in an engine: it touches a destination row of the task that the engine runs (R180). -/
def State.damageEngine (s : State) (c engine row : Nat) : State :=
  s.modCore c (fun k => k.strikeTasks (fun t => if t.running = some engine then [row] else []))

/-- The stored header of a tile-table entry is damaged: CHKOK cleared. -/
def State.damageTile (s : State) (c hn : Nat) : State :=
  s.modCore c (fun k => { k with wg := k.wg.map (fun w =>
    { w with tiles := w.tiles.map (fun p => if p.1 = hn then (p.1, { p.2 with bad := true }) else p) }) })

/-- The context that an error on a core concerns: that of its workgroup. -/
def State.ctxOn (s : State) (c : Nat) : Nat := match (s.core c).wg with
  | some w => w.ctx.toNat
  | none => 0

/-- UNCORRECTABLE_ERROR in the structure that `loc` names (Table 22-1). Data carries a mark and stays otherwise free;
what has no mark stops its unit. A link retrains, and goes down when that fails, a free bit. `code` is one of 0xE0–0xE5 (Table 2-8), and for a mesh link 0xE0 or 0xE1 means payload, any other
the flit header; `addr` is the physical address where the place is device memory or a flit's granule: an L2 row is of the die and
slice that are its home (R257). An error in a matrix engine has no kind of location: it comes with KIND 15, the destination row in
INDEX[15:0] and the engine in INDEX[19:16] (R180, log 98). -/
def State.uncorrectable (s : State) (loc : Loc) (code : BitVec 8) (addr : BitVec 64) : State :=
  let c := loc.core.toNat
  let idx := loc.index.toNat
  let sram (s : State) (ctx a : Nat) : State := s.logAt 0x01 Cause.sramUe.code ctx loc (BitVec.ofNat 64 a)
  if code.toNat < 0xE0 || 0xE5 < code.toNat then s
  else match loc.kind.toNat with
  | 0 =>
    let g := idx / 4096 * 1024 + idx % 1024
    if idx / 4096 < 192 then sram (s.damageSp c g) (s.ctxOn c) (16 * g) else s
  | 1 => sram (s.damageReg c (idx / 2 ^ 14) (idx / 4096 % 4)) (s.ctxOn c) idx
  | 2 => sram (s.damageRow c idx) (s.ctxOn c) idx
  | 4 =>
    if s.inTier 0 addr.toNat then
      (s.damageMem (granule addr.toNat)).logAt 0x01 Cause.hbmUe.code 0 (hbmLoc addr.toNat) addr
    else s
  | 5 =>
    let (trained, s) := s.freeBit
    let s := s.reportLink (idx / 256) loc trained
    if trained then s else s.loseLink (idx / 256)
  | 6 =>
    if code = Cause.sramUe.code || code = Cause.hbmUe.code then
      (s.damageMem (granule addr.toNat)).logAt 0x01 code 0 loc addr
    else (s.logAt 0x01 code 0 loc (BitVec.ofNat 64 idx)).toSpring code (BitVec.ofNat 64 idx)
  | 7 => (s.logAt 0x01 code 0 loc (BitVec.ofNat 64 idx)).toWinter
  | 9 => if s.installed addr.toNat && homeSlice addr.toNat == (idx / 2 ^ 19 % 2, idx / 2 ^ 14 % 32) then sram (s.damageMem (granule addr.toNat)) 0 (addr.toNat / 16 * 16) else s
  | 10 => sram (s.damageSup c (idx % 4096)) (s.ctxOn c) (idx % 4096 * 16)
  | 11 => sram (s.damageSram (idx % 65536)) 0 (0x100000 + idx % 65536 * 16)
  | 12 => sram (s.damageTile c (idx % 256)) (s.ctxOn c) idx
  | 13 => s.stopCore c (idx % 256)
  | 15 => (s.damageEngine c (idx / 65536) (idx % 65536)).logAt 0x01 Cause.sramUe.code (s.ctxOn c) { kind := 15, core := 0, index := 0 }
      (BitVec.ofNat 64 idx)
  | _ => s

def execUncorrectableError (loc : Loc) (code : BitVec 8) (addr : BitVec 64) (s : State) : Host.Outcome State Fault Refusal :=
  .next (s.uncorrectable loc code addr)

/-- CORRECTED_ERROR: no trace in any result; logged as kind 0x02, and its place tested or classified (R395, R396). -/
def execCorrectedError (loc : Loc) (s : State) : Host.Outcome State Fault Refusal := .next (s.logAt 0x02 0 0 loc 0)

/-- IO_TABLE_SCRUB: one more scrub of the I/O die tables and the key store; their contents stay. -/
def execIoTableScrub (s : State) : Host.Outcome State Fault Refusal :=
  .next (s.modErrors (fun e => { e with scrubs := e.scrubs + 1 }))

/-! ## The end of a self-test (R396–R398) -/

/-- Classify the events of a test in SEQ order. The action of a lasting fault is carried out once, before the first record
that names it. -/
def State.classify (s : State) (l : Loc) (pass : Bool) : List Nat → Option Nat → State
  | [], _ => s
  | ev :: rest, acted =>
    let lasting := !pass || decide (2 ≤ s.errors.recent ev l)
    let (act, acted, s) : Nat × Option Nat × State :=
      if lasting then
        match acted with
        | some a => (a, acted, s)
        | none =>
          let (a, s) := s.actLasting l
          (a, some a, s)
      else (0, acted, s)
    let s := s.logRaw { ev := 0x03, cls := if lasting then 2 else 1, act, ref := ev, loc := locWord l, locx := l.ext }
    (s.modErrors (·.remember rest ev l (!lasting))).classify l pass rest acted

/-- SELF_TEST_DONE: the test that event `seq` started or joined ends. One that fails is logged as SELFTEST_FAIL, with the
identifier of its structure (R50, log 73). -/
def execSelfTestDone (seq : Nat) (pass : Bool) (s : State) : Host.Outcome State Fault Refusal :=
  .next (match s.errors.tests.find? (fun t => t.events.contains seq) with
    | none => s
    | some t =>
      let l : Loc := { kind := t.kind, core := t.core, index := t.index, ext := t.ext }
      let s := (s.modErrors (fun e => { e with tests := e.tests.filter (fun u => u ≠ t) })).classify l pass t.events none
      if pass then s else s.logEvent 0x01 Cause.selftestFail.code ((locWord l).setWidth 64))

/-! ## Retraining of a stack (R415) -/

/-- The launches that are being saved: a pre-emption request has been delivered. -/
def State.saves (s : State) : List Grant :=
  (s.sched.slots.filterMap (·.2.grant)).filter (fun g => g.launch && g.preemptReq && !g.killed && !g.delivered.isEmpty)

/-- Does a page whose leaf translates an address of a context lie, in part, on a stack? -/
def State.pageOn (s : State) (x va stack : Nat) : Bool :=
  match s.walk (CtxF.root (s.ctxRec x)) va with
  | .leaf e level _ => isFast (Pte.addr e) && (List.range 512).any (fun b =>
      stackOf (Pte.addr e + va % pageSize level / 65536 * 65536 + 128 * b) == stack)
  | .fault _ => false

/-- Does a stack hold a page of an image that a save has sealed or is sealing? -/
def State.sealsOnto (s : State) (g : Grant) (stack : Nat) : Bool :=
  g.images.any (fun i => (List.range (i.2.2 / 65536 + 2)).any (fun n => s.pageOn i.1 (i.2.1 + 65536 * n) stack))

/-- Can the hold of a save have run out? Its time includes DEFER and DEADLINE: not while a workgroup of the launch defers or is armed. -/
def State.mayRunOut (s : State) (g : Grant) : Bool :=
  g.delivered.all (fun c => match (s.core c).wg with
    | some w => match w.preempt with
      | .deferring | .armed => false
      | _ => true
    | none => true)

/-- STACK_RETRAINING_START: at once with no save under way. While one runs, a stack that holds a destination page of its images waits
until the hold of R415 has run out; the pages of the seals issued so far are known, where the later images go is the firmware's choice,
and of the hold's time it is known only that it has not run out before the forced save or the saves of the threads begin: free bits
(log 34). -/
def execStackRetrainingStart (stack : Nat) (s : State) : Host.Outcome State Fault Refusal :=
  .next (if 12 ≤ stack then s
    else
      let onto := s.saves.filter (fun g => s.sealsOnto g stack)
      let (held, s) := if s.saves.isEmpty then (false, s) else if onto.isEmpty then s.freeBit else (true, s)
      let out := if onto.isEmpty then s.saves.any s.mayRunOut else onto.all s.mayRunOut
      let (go, s) := if !held then (true, s) else if out then s.freeBit else (false, s)
      if go then s.modIo (fun io => { io with retraining := mset false io.retraining stack true }) else s)

/-- STACK_RETRAINING_END: the writes that waited go on. -/
def execStackRetrainingEnd (stack : Nat) (s : State) : Host.Outcome State Fault Refusal :=
  .next (s.modIo (fun io => { io with retraining := mset false io.retraining stack false }))

/-- Does a write wait for the retraining of a stack that it reaches? -/
def State.retrains (s : State) (e : StoreEnt) : Bool :=
  e.space == .global && e.bytes.any (fun b => b.1 < 0xC000000000 && mget false s.io.retraining (subChannel b.1 % 12))

end Sys2Proof.Machine
end

