-- ==== Sys2Proof/Machine/Integer.lean ====
section
/-! DEFINITION. The integer, bit and address instructions (06_integer_instructions R130–R151). Each D form's meaning for
one hart is a `lane…`; C and W forms run the lane of their D instruction (R54, R55). -/

namespace Sys2Proof.Machine

/-! ## The shapes of the class (Table 6-1, R133–R136) -/

/-- d, b: a 32-bit result of b. -/
def lane1 (f : Fields) (op : Word → Word × FlagSet) (h : Hart) (s : State) : Res :=
  let us : List OpUse := [(f.b, .w32)]
  guardOps s h (us ++ f.dst .w32) <|
    let r := op (s.op32 h f.b)
    .ok ((s.raise h r.2).put32 h f.dest r.1 (s.opsPoison h us))

/-- d, a, b: a 32-bit result of two packed operands. -/
def lane2 (f : Fields) (ew : EW) (op : Word → Word → Word × FlagSet) (h : Hart) (s : State) : Res :=
  let us : List OpUse := [(f.a, .w32), (f.b, .w32)]
  guardOps s h (us ++ f.dst .w32) <|
    let r := op (s.opInt h ew f.a) (s.opInt h ew f.b)
    .ok ((s.raise h r.2).put32 h f.dest r.1 (s.opsPoison h us))

/-- d, a, b, c: a 32-bit result of three operands; `ew` is the packing of a and b. -/
def lane3 (f : Fields) (ew : EW) (op : Word → Word → Word → Word × FlagSet) (h : Hart) (s : State) : Res :=
  let us : List OpUse := [(f.a, .w32), (f.b, .w32), (f.c, .w32)]
  guardOps s h (us ++ f.dst .w32) <|
    let r := op (s.opInt h ew f.a) (s.opInt h ew f.b) (s.op32 h f.c)
    .ok ((s.raise h r.2).put32 h f.dest r.1 (s.opsPoison h us))

/-! ## Moves (R137) -/

def laneMov (f : Fields) : Hart → State → Res := lane1 f (fun b => (b, 0))

def laneLi (f : Fields) (m : IntMod) (h : Hart) (s : State) : Res :=
  let us : List OpUse := [(f.b, .w32)]
  guardOps s h (us ++ f.dst .pair) <|
    let b := s.op32 h f.b
    .ok (s.putPair h f.dest (if m.u then b.setWidth 64 else b.signExtend 64) (s.opsPoison h us))

/-! ## Add, subtract, minimum and maximum (R138, R139) -/

def addEl (m : IntMod) (a b : Nat) : Int × Bool :=
  let w := ewWidth m.ew
  clampIf m.sat m.u w (readEl m.u w a + readEl m.u w b)
def subEl (m : IntMod) (a b : Nat) : Int × Bool :=
  let w := ewWidth m.ew
  clampIf m.sat m.u w (readEl m.u w a - readEl m.u w b)
def minEl (m : IntMod) (a b : Nat) : Int × Bool :=
  let w := ewWidth m.ew
  (Min.min (readEl m.u w a) (readEl m.u w b), false)
def maxEl (m : IntMod) (a b : Nat) : Int × Bool :=
  let w := ewWidth m.ew
  (Max.max (readEl m.u w a) (readEl m.u w b), false)

def laneAdd (f : Fields) (m : IntMod) : Hart → State → Res := lane2 f m.ew (zipEl (ewWidth m.ew) (addEl m))
def laneSub (f : Fields) (m : IntMod) : Hart → State → Res := lane2 f m.ew (zipEl (ewWidth m.ew) (subEl m))
def laneMin (f : Fields) (m : IntMod) : Hart → State → Res := lane2 f m.ew (zipEl (ewWidth m.ew) (minEl m))
def laneMax (f : Fields) (m : IntMod) : Hart → State → Res := lane2 f m.ew (zipEl (ewWidth m.ew) (maxEl m))

/-- A pair result of three 32-bit operands. -/
def lane3Pair (f : Fields) (op : Word → Word → Word → Pair) (h : Hart) (s : State) : Res :=
  let us : List OpUse := [(f.a, .w32), (f.b, .w32), (f.c, .w32)]
  guardOps s h (us ++ f.dst .pair) <|
    .ok (s.putPair h f.dest (op (s.op32 h f.a) (s.op32 h f.b) (s.op32 h f.c)) (s.opsPoison h us))

def addcOp (a b c : Word) : Pair :=
  let t := a.toNat + b.toNat + c.toNat % 2
  BitVec.ofNat 64 (t / 2 ^ 32 * 2 ^ 32 + t % 2 ^ 32)
def subbOp (a b c : Word) : Pair :=
  let t : Int := (a.toNat : Int) - b.toNat - c.toNat % 2
  BitVec.ofNat 64 ((if t < 0 then 2 ^ 32 else 0) + narrow 32 t)

def laneAddc (f : Fields) : Hart → State → Res := lane3Pair f addcOp
def laneSubb (f : Fields) : Hart → State → Res := lane3Pair f subbOp

/-! ## Multiply (R140) -/

def laneMul (f : Fields) : Hart → State → Res := lane2 f .w32 (fun a b => (a * b, 0))
def mulhOp (u : Bool) (a b : Word) : Word :=
  BitVec.ofNat 32 (narrow 32 (readEl u 32 a.toNat * readEl u 32 b.toNat / 2 ^ 32))
def laneMulh (f : Fields) (m : IntMod) : Hart → State → Res := lane2 f .w32 (fun a b => (mulhOp m.u a b, 0))
def laneMad (f : Fields) : Hart → State → Res := lane3 f .w32 (fun a b c => (a * b + c, 0))
def madwOp (u : Bool) (a b : Word) (c : Pair) : Pair :=
  BitVec.ofNat 64 (narrow 64 (readEl u 32 a.toNat * readEl u 32 b.toNat + c.toNat))
def laneMadw (f : Fields) (m : IntMod) (h : Hart) (s : State) : Res :=
  let us : List OpUse := [(f.a, .w32), (f.b, .w32), (f.c, .pair)]
  guardOps s h (us ++ f.dst .pair) <|
    .ok (s.putPair h f.dest (madwOp m.u (s.op32 h f.a) (s.op32 h f.b) (s.opPair h f.c)) (s.opsPoison h us))

/-! ## 64-bit pairs (R141) -/

/-- d, a, b pairs. -/
def lane2Pair (f : Fields) (op : Pair → Pair → Pair) (h : Hart) (s : State) : Res :=
  let us : List OpUse := [(f.a, .pair), (f.b, .pair)]
  guardOps s h (us ++ f.dst .pair) <|
    .ok (s.putPair h f.dest (op (s.opPair h f.a) (s.opPair h f.b)) (s.opsPoison h us))

def laneAdd64 (f : Fields) : Hart → State → Res := lane2Pair f (· + ·)
def laneSub64 (f : Fields) : Hart → State → Res := lane2Pair f (· - ·)
def laneLea (f : Fields) (m : IntMod) (h : Hart) (s : State) : Res :=
  let us : List OpUse := [(f.a, .pair), (f.b, .w32)]
  guardOps s h (us ++ f.dst .pair) <|
    let b := s.op32 h f.b
    .ok (s.putPair h f.dest (s.opPair h f.a + (if m.u then b.setWidth 64 else b.signExtend 64)) (s.opsPoison h us))

/-! ## Compare, select and sign (R142–R144) -/

def condHolds (c : Cond) (a b : Int) : Bool :=
  match c with
  | .eq => a = b
  | .ne => a ≠ b
  | .lt => a < b
  | .ge => b ≤ a
  | .le => a ≤ b
  | .gt => b < a
  | .un => false
  | .od => true

def cmpOp (m : IntMod) (a b : Word) : Word :=
  if condHolds m.cond (readEl m.u 32 a.toNat) (readEl m.u 32 b.toNat) then (if m.ones then 0xFFFFFFFF else 1) else 0
def laneCmp (f : Fields) (m : IntMod) : Hart → State → Res := lane2 f .w32 (fun a b => (cmpOp m a b, 0))

/-- |b| and −b, clamped with SAT. -/
def absOp (m : IntMod) (b : Word) : Word × FlagSet :=
  let r := clampIf m.sat false 32 (b.toInt.natAbs : Int)
  (BitVec.ofNat 32 (narrow 32 r.1), satIf r.2)
def negOp (m : IntMod) (b : Word) : Word × FlagSet :=
  let r := clampIf m.sat false 32 (-b.toInt)
  (BitVec.ofNat 32 (narrow 32 r.1), satIf r.2)
def laneAbs (f : Fields) (m : IntMod) : Hart → State → Res := lane1 f (absOp m)
def laneNeg (f : Fields) (m : IntMod) : Hart → State → Res := lane1 f (negOp m)

/-- SEL has its own poison rule: that of c and of the chosen source. -/
def laneSel (f : Fields) (h : Hart) (s : State) : Res :=
  guardOps s h ([(f.a, .w32), (f.b, .w32), (f.c, .w32)] ++ f.dst .w32) <|
    let chosen := if s.op32 h f.c ≠ 0 then f.a else f.b
    .ok (s.put32 h f.dest (s.op32 h chosen) (s.opPoison h f.c .w32 || s.opPoison h chosen .w32))

/-! ## Logic, shifts and rotates (R145–R147) -/

def laneAnd (f : Fields) : Hart → State → Res := lane2 f .w32 (fun a b => (a &&& b, 0))
def laneOr (f : Fields) : Hart → State → Res := lane2 f .w32 (fun a b => (a ||| b, 0))
def laneXor (f : Fields) : Hart → State → Res := lane2 f .w32 (fun a b => (a ^^^ b, 0))
def laneAndn (f : Fields) : Hart → State → Res := lane2 f .w32 (fun a b => (a &&& ~~~b, 0))

/-- SHL of one element. With SAT an amount above the width clamps a non-zero element whatever it is, so the exact
product needs no power beyond 2^w. -/
def shlEl (m : IntMod) (x n : Nat) : Int × Bool :=
  let w := ewWidth m.ew
  if m.sat then clampIf true m.u w (readEl m.u w x * 2 ^ Nat.min n w)
  else if w ≤ n then (0, false) else ((x * 2 ^ n : Nat), false)
def shrEl (m : IntMod) (x n : Nat) : Int × Bool :=
  let w := ewWidth m.ew
  if w ≤ n then (0, false) else ((x / 2 ^ n : Nat), false)
def sarEl (m : IntMod) (x n : Nat) : Int × Bool :=
  let w := ewWidth m.ew
  let v := readEl false w x
  if w ≤ n then (if v < 0 then -1 else 0, false) else (v / 2 ^ n, false)
def laneShl (f : Fields) (m : IntMod) : Hart → State → Res := lane2 f m.ew (zipEl (ewWidth m.ew) (shlEl m))
def laneShr (f : Fields) (m : IntMod) : Hart → State → Res := lane2 f m.ew (zipEl (ewWidth m.ew) (shrEl m))
def laneSar (f : Fields) (m : IntMod) : Hart → State → Res := lane2 f m.ew (zipEl (ewWidth m.ew) (sarEl m))

def laneRot (f : Fields) : Hart → State → Res :=
  lane2 f .w32 (fun a b => (a.rotateLeft (b.toNat % 32), 0))
def fshOp (a b c : Word) : Word := ((pairOf a b) >>> (c.toNat % 64)).setWidth 32
def laneFsh (f : Fields) : Hart → State → Res := lane3 f .w32 (fun a b c => (fshOp a b c, 0))

/-! ## Bit fields, counts and bytes (R148–R150) -/

/-- Bits 31:0 of A with the extension that BFX reads above them. -/
def bfxOp (u : Bool) (a ctl : Word) : Word :=
  let pos := ctl.toNat % 256
  let len := ctl.toNat / 256 % 256
  if len = 0 then 0
  else
    let n := Nat.min len 32
    let ext : Int := readEl u 32 a.toNat
    let f := narrow n (ext / 2 ^ pos)
    BitVec.ofNat 32 (narrow 32 (readEl u n f))
def laneBfx (f : Fields) (m : IntMod) : Hart → State → Res := lane2 f .w32 (fun a b => (bfxOp m.u a b, 0))

def bfiOp (a b ctl : Word) : Word :=
  let pos := ctl.toNat % 256
  let len := ctl.toNat / 256 % 256
  if len = 0 || 32 ≤ pos then a
  else
    let n := Nat.min len (32 - pos)
    let m : Word := BitVec.ofNat 32 ((2 ^ n - 1) * 2 ^ pos)
    (a &&& ~~~m) ||| ((b <<< pos) &&& m)
def laneBfi (f : Fields) : Hart → State → Res := lane3 f .w32 (fun a b c => (bfiOp a b c, 0))

def bits32 (b : Word) : List Bool := (List.range 32).map (b.getLsbD ·)
def popcOp (b : Word) : Word := BitVec.ofNat 32 ((bits32 b).filter id).length
def ctzOp (b : Word) : Word := BitVec.ofNat 32 ((bits32 b).takeWhile (!·)).length
def clzOp (b : Word) : Word := BitVec.ofNat 32 ((bits32 b).reverse.takeWhile (!·)).length
def brevOp (b : Word) : Word := b.reverse
def lanePopc (f : Fields) : Hart → State → Res := lane1 f (fun b => (popcOp b, 0))
def laneClz (f : Fields) : Hart → State → Res := lane1 f (fun b => (clzOp b, 0))
def laneCtz (f : Fields) : Hart → State → Res := lane1 f (fun b => (ctzOp b, 0))
def laneBrev (f : Fields) : Hart → State → Res := lane1 f (fun b => (brevOp b, 0))

def permOp (a b c : Word) : Word :=
  let pool := pairOf a b
  pack 8 ((List.range 4).map (fun i =>
    let sel := elem 4 c i
    let y := pool.toNat / 2 ^ (8 * (sel % 8)) % 256
    if sel < 8 then y else if 128 ≤ y then 255 else 0))
def lanePerm (f : Fields) : Hart → State → Res := lane3 f .w32 (fun a b c => (permOp a b c, 0))

/-! ## Packed dot product (R151) -/

def dot4Op (m : IntMod) (a b c : Word) : Word × FlagSet :=
  let t := (List.range 4).foldl (fun acc i => acc + readEl m.u 8 (elem 8 a i) * readEl m.u 8 (elem 8 b i))
    (readEl m.u 32 c.toNat)
  let r := clampIf m.sat m.u 32 t
  (BitVec.ofNat 32 (narrow 32 r.1), satIf r.2)
def laneDot4 (f : Fields) (m : IntMod) : Hart → State → Res := lane3 f .w32 (dot4Op m)

/-! ## The instructions -/

def execMov (f : DF) (s : State) : Host.Outcome State Fault Refusal := issue 0 .all (.mov f) (laneMov f.fields) s
def execAddc (f : DF) (s : State) : Host.Outcome State Fault Refusal := issue 0 .all (.addc f) (laneAddc f.fields) s
def execSubb (f : DF) (s : State) : Host.Outcome State Fault Refusal := issue 0 .all (.subb f) (laneSubb f.fields) s
def execMul (f : DF) (s : State) : Host.Outcome State Fault Refusal := issue 0 .all (.mul f) (laneMul f.fields) s
def execMad (f : DF) (s : State) : Host.Outcome State Fault Refusal := issue 0 .all (.mad f) (laneMad f.fields) s
def execAdd64 (f : DF) (s : State) : Host.Outcome State Fault Refusal := issue 0 .all (.add64 f) (laneAdd64 f.fields) s
def execSub64 (f : DF) (s : State) : Host.Outcome State Fault Refusal := issue 0 .all (.sub64 f) (laneSub64 f.fields) s
def execSel (f : DF) (s : State) : Host.Outcome State Fault Refusal := issue 0 .all (.sel f) (laneSel f.fields) s
def execAnd (f : DF) (s : State) : Host.Outcome State Fault Refusal := issue 0 .all (.and f) (laneAnd f.fields) s
def execOr (f : DF) (s : State) : Host.Outcome State Fault Refusal := issue 0 .all (.or f) (laneOr f.fields) s
def execXor (f : DF) (s : State) : Host.Outcome State Fault Refusal := issue 0 .all (.xor f) (laneXor f.fields) s
def execAndn (f : DF) (s : State) : Host.Outcome State Fault Refusal := issue 0 .all (.andn f) (laneAndn f.fields) s
def execRot (f : DF) (s : State) : Host.Outcome State Fault Refusal := issue 0 .all (.rot f) (laneRot f.fields) s
def execFsh (f : DF) (s : State) : Host.Outcome State Fault Refusal := issue 0 .all (.fsh f) (laneFsh f.fields) s
def execBfi (f : DF) (s : State) : Host.Outcome State Fault Refusal := issue 0 .all (.bfi f) (laneBfi f.fields) s
def execPopc (f : DF) (s : State) : Host.Outcome State Fault Refusal := issue 0 .all (.popc f) (lanePopc f.fields) s
def execClz (f : DF) (s : State) : Host.Outcome State Fault Refusal := issue 0 .all (.clz f) (laneClz f.fields) s
def execCtz (f : DF) (s : State) : Host.Outcome State Fault Refusal := issue 0 .all (.ctz f) (laneCtz f.fields) s
def execBrev (f : DF) (s : State) : Host.Outcome State Fault Refusal := issue 0 .all (.brev f) (laneBrev f.fields) s
def execPerm (f : DF) (s : State) : Host.Outcome State Fault Refusal := issue 0 .all (.perm f) (lanePerm f.fields) s
def execLi (f : DF) (m : IntMod) (s : State) : Host.Outcome State Fault Refusal := issue 0 .all (.li f m) (laneLi f.fields m) s
def execAdd (f : DF) (m : IntMod) (s : State) : Host.Outcome State Fault Refusal := issue 0 .all (.add f m) (laneAdd f.fields m) s
def execSub (f : DF) (m : IntMod) (s : State) : Host.Outcome State Fault Refusal := issue 0 .all (.sub f m) (laneSub f.fields m) s
def execMulh (f : DF) (m : IntMod) (s : State) : Host.Outcome State Fault Refusal := issue 0 .all (.mulh f m) (laneMulh f.fields m) s
def execMadw (f : DF) (m : IntMod) (s : State) : Host.Outcome State Fault Refusal := issue 0 .all (.madw f m) (laneMadw f.fields m) s
def execLea (f : DF) (m : IntMod) (s : State) : Host.Outcome State Fault Refusal := issue 0 .all (.lea f m) (laneLea f.fields m) s
def execMin (f : DF) (m : IntMod) (s : State) : Host.Outcome State Fault Refusal := issue 0 .all (.min f m) (laneMin f.fields m) s
def execMax (f : DF) (m : IntMod) (s : State) : Host.Outcome State Fault Refusal := issue 0 .all (.max f m) (laneMax f.fields m) s
def execAbs (f : DF) (m : IntMod) (s : State) : Host.Outcome State Fault Refusal := issue 0 .all (.abs f m) (laneAbs f.fields m) s
def execNeg (f : DF) (m : IntMod) (s : State) : Host.Outcome State Fault Refusal := issue 0 .all (.neg f m) (laneNeg f.fields m) s
def execCmp (f : DF) (m : IntMod) (s : State) : Host.Outcome State Fault Refusal := issue 0 .all (.cmp f m) (laneCmp f.fields m) s
def execShl (f : DF) (m : IntMod) (s : State) : Host.Outcome State Fault Refusal := issue 0 .all (.shl f m) (laneShl f.fields m) s
def execShr (f : DF) (m : IntMod) (s : State) : Host.Outcome State Fault Refusal := issue 0 .all (.shr f m) (laneShr f.fields m) s
def execSar (f : DF) (m : IntMod) (s : State) : Host.Outcome State Fault Refusal := issue 0 .all (.sar f m) (laneSar f.fields m) s
def execBfx (f : DF) (m : IntMod) (s : State) : Host.Outcome State Fault Refusal := issue 0 .all (.bfx f m) (laneBfx f.fields m) s
def execDot4 (f : DF) (m : IntMod) (s : State) : Host.Outcome State Fault Refusal := issue 0 .all (.dot4 f m) (laneDot4 f.fields m) s
def execMovC (f : CF) (s : State) : Host.Outcome State Fault Refusal := issue 0 .all (.movC f) (laneMov f.fields) s
def execAddC (f : CF) (s : State) : Host.Outcome State Fault Refusal := issue 0 .all (.addC f) (laneAdd f.fields {}) s
def execSubC (f : CF) (s : State) : Host.Outcome State Fault Refusal := issue 0 .all (.subC f) (laneSub f.fields {}) s
def execMulC (f : CF) (s : State) : Host.Outcome State Fault Refusal := issue 0 .all (.mulC f) (laneMul f.fields) s
def execAndC (f : CF) (s : State) : Host.Outcome State Fault Refusal := issue 0 .all (.andC f) (laneAnd f.fields) s
def execOrC (f : CF) (s : State) : Host.Outcome State Fault Refusal := issue 0 .all (.orC f) (laneOr f.fields) s
def execXorC (f : CF) (s : State) : Host.Outcome State Fault Refusal := issue 0 .all (.xorC f) (laneXor f.fields) s
def execShlC (f : CF) (s : State) : Host.Outcome State Fault Refusal := issue 0 .all (.shlC f) (laneShl f.fields {}) s
def execShrC (f : CF) (s : State) : Host.Outcome State Fault Refusal := issue 0 .all (.shrC f) (laneShr f.fields {}) s
def execSarC (f : CF) (s : State) : Host.Outcome State Fault Refusal := issue 0 .all (.sarC f) (laneSar f.fields {}) s
def execMinC (f : CF) (s : State) : Host.Outcome State Fault Refusal := issue 0 .all (.minC f) (laneMin f.fields {}) s
def execMaxC (f : CF) (s : State) : Host.Outcome State Fault Refusal := issue 0 .all (.maxC f) (laneMax f.fields {}) s
def execMovW (f : WB) (s : State) : Host.Outcome State Fault Refusal := issue 0 .all (.movW f) (laneMov f.fields) s
def execAddW (f : WF) (s : State) : Host.Outcome State Fault Refusal := issue 0 .all (.addW f) (laneAdd f.fields {}) s
def execSubW (f : WF) (s : State) : Host.Outcome State Fault Refusal := issue 0 .all (.subW f) (laneSub f.fields {}) s
def execMulW (f : WF) (s : State) : Host.Outcome State Fault Refusal := issue 0 .all (.mulW f) (laneMul f.fields) s
def execMulhW (f : WF) (s : State) : Host.Outcome State Fault Refusal := issue 0 .all (.mulhW f) (laneMulh f.fields {}) s
def execMulhUW (f : WF) (s : State) : Host.Outcome State Fault Refusal := issue 0 .all (.mulhUW f) (laneMulh f.fields { u := true }) s
def execMinW (f : WF) (s : State) : Host.Outcome State Fault Refusal := issue 0 .all (.minW f) (laneMin f.fields {}) s
def execMinUW (f : WF) (s : State) : Host.Outcome State Fault Refusal := issue 0 .all (.minUW f) (laneMin f.fields { u := true }) s
def execMaxW (f : WF) (s : State) : Host.Outcome State Fault Refusal := issue 0 .all (.maxW f) (laneMax f.fields {}) s
def execMaxUW (f : WF) (s : State) : Host.Outcome State Fault Refusal := issue 0 .all (.maxUW f) (laneMax f.fields { u := true }) s
def execAndW (f : WF) (s : State) : Host.Outcome State Fault Refusal := issue 0 .all (.andW f) (laneAnd f.fields) s
def execOrW (f : WF) (s : State) : Host.Outcome State Fault Refusal := issue 0 .all (.orW f) (laneOr f.fields) s
def execXorW (f : WF) (s : State) : Host.Outcome State Fault Refusal := issue 0 .all (.xorW f) (laneXor f.fields) s
def execAndnW (f : WF) (s : State) : Host.Outcome State Fault Refusal := issue 0 .all (.andnW f) (laneAndn f.fields) s
def execShlW (f : WF) (s : State) : Host.Outcome State Fault Refusal := issue 0 .all (.shlW f) (laneShl f.fields {}) s
def execShrW (f : WF) (s : State) : Host.Outcome State Fault Refusal := issue 0 .all (.shrW f) (laneShr f.fields {}) s
def execSarW (f : WF) (s : State) : Host.Outcome State Fault Refusal := issue 0 .all (.sarW f) (laneSar f.fields {}) s
def execRotW (f : WF) (s : State) : Host.Outcome State Fault Refusal := issue 0 .all (.rotW f) (laneRot f.fields) s
def execPopcW (f : WB) (s : State) : Host.Outcome State Fault Refusal := issue 0 .all (.popcW f) (lanePopc f.fields) s
def execClzW (f : WB) (s : State) : Host.Outcome State Fault Refusal := issue 0 .all (.clzW f) (laneClz f.fields) s
def execCtzW (f : WB) (s : State) : Host.Outcome State Fault Refusal := issue 0 .all (.ctzW f) (laneCtz f.fields) s
def execBrevW (f : WB) (s : State) : Host.Outcome State Fault Refusal := issue 0 .all (.brevW f) (laneBrev f.fields) s
def execCmpEqW (f : WF) (s : State) : Host.Outcome State Fault Refusal := issue 0 .all (.cmpEqW f) (laneCmp f.fields { cond := .eq }) s
def execCmpNeW (f : WF) (s : State) : Host.Outcome State Fault Refusal := issue 0 .all (.cmpNeW f) (laneCmp f.fields { cond := .ne }) s
def execCmpLtW (f : WF) (s : State) : Host.Outcome State Fault Refusal := issue 0 .all (.cmpLtW f) (laneCmp f.fields { cond := .lt }) s
def execCmpGeW (f : WF) (s : State) : Host.Outcome State Fault Refusal := issue 0 .all (.cmpGeW f) (laneCmp f.fields { cond := .ge }) s
def execCmpLtUW (f : WF) (s : State) : Host.Outcome State Fault Refusal := issue 0 .all (.cmpLtUW f) (laneCmp f.fields { cond := .lt, u := true }) s
def execCmpGeUW (f : WF) (s : State) : Host.Outcome State Fault Refusal := issue 0 .all (.cmpGeUW f) (laneCmp f.fields { cond := .ge, u := true }) s
def execLeaW (f : WF) (s : State) : Host.Outcome State Fault Refusal := issue 0 .all (.leaW f) (laneLea f.fields {}) s
def execAdd64W (f : WF) (s : State) : Host.Outcome State Fault Refusal := issue 0 .all (.add64W f) (laneAdd64 f.fields) s
def execNegW (f : WB) (s : State) : Host.Outcome State Fault Refusal := issue 0 .all (.negW f) (laneNeg f.fields {}) s
def execAbsW (f : WB) (s : State) : Host.Outcome State Fault Refusal := issue 0 .all (.absW f) (laneAbs f.fields {}) s

end Sys2Proof.Machine
end

