-- ==== Sys2Proof/Machine/Security.lean ====
section
/-! DEFINITION. The security instructions of the management core (20_trust R375–R379): HASHB, HASHF, ECVER, ECSIG, MEXT
and MREAD. -/

namespace Sys2Proof.Machine

/-! ## Spans of memory (R368, R376) -/

/-- A span cut at granule boundaries, as (address, length); `fuel` granules. -/
def cutSpan : Nat → Nat → Nat → List (Nat × Nat)
  | 0, _, _ => []
  | fuel + 1, a, n =>
    if n = 0 then []
    else
      let m := Nat.min n (16 - a % 16)
      (a, m) :: cutSpan fuel (a + m) (n - m)

def spanPieces (a n : Nat) : List (Nat × Nat) := cutSpan (n / 16 + 2) a n

/-- What R368 raises at one byte. -/
def State.byteFault (s : State) (need : AccNeed) (a : Nat) : Option Cause :=
  match s.mgmtPlace need a with
  | .fault c => some c
  | _ => none

/-- The first byte of the spans at which R368 raises a cause: a region ends at a granule or at an installed top. -/
def State.spanFault (s : State) (c : Cause) (spans : List (AccNeed × Nat × Nat)) : Option Nat :=
  spans.findSome? (fun sp => (spanPieces sp.2.1 sp.2.2).findSome? (fun p =>
    if s.byteFault sp.1 p.1 = some c then some p.1
    else if s.byteFault sp.1 (p.1 + p.2 - 1) = some c then
      (List.range p.2).findSome? (fun i => if s.byteFault sp.1 (p.1 + i) = some c then some (p.1 + i) else none)
    else none))

/-- The checks of R376 but for the marks of what is read, lowest code first, made before the instruction has any effect. `spans` are what
it reads and writes, `total` the bytes it addresses in all. -/
def State.secCheck (s : State) (addr : BitVec 64) (align total : Nat) (addrP : Bool) (ps : List (Bool × Nat))
    (spans : List (AccNeed × Nat × Nat)) : Option (Cause × Pair) :=
  let at_ (o : Option Nat) : Pair := BitVec.ofNat 64 (o.getD 0)
  let absent := if addrP then none else s.spanFault .pageNotPresent spans
  let prot := if addrP then none else s.spanFault .pageProt spans
  if !s.mgmt.loaded.isEmpty then none
  else (([(decide (addr.toNat % align ≠ 0), Cause.addrAlign, addr),
     (decide (total ≠ 0) && (outOfRange addr || outOfRange (addr + BitVec.ofNat 64 (total - 1))), .addrRange, addr),
     (absent.isSome, .pageNotPresent, at_ absent), (prot.isSome, .pageProt, at_ prot), poisonTrap ps] :
    List (Bool × Cause × Pair)).find? (·.1)).map (·.2)

/-- The plain load of a piece that goes to the peer module (R263). -/
def pieceLoad (a n : Nat) : Access :=
  { kind := .load false false, addr := BitVec.ofNat 64 a, size := n, data := 0, dpoison := false, acq := false, rel := false, scope := .core
    dst := ⟨0, false⟩ }

/-- One piece as a plain load, with its mark; `none` where it must wait, for what a load must wait for or for the peer module's answer.
Control space answers accesses of 4 and 8 bytes alone (R369). -/
def State.loadPiece (s : State) (p : Nat × Nat) : Option (List Byte × Bool) × State :=
  match s.mgmtPlace .load p.1 with
  | .at (.ctl off) _ =>
    let (v, s) := s.ioRead off p.2
    (some (natBytes p.2 v.toNat, false), s.modThread .mgmt (fun th => { th with mv := s.learnAt .mgmt (.ctl off) none th.mv }))
  | .at (.dev pa) key =>
    if s.requestWaits .mgmt (.dev pa) || s.loadWaits .mgmt (.dev pa) p.2 then (none, s)
    else if isPeer pa && (s.peerWindow? pa).isSome then
      (none, (s.modIo (fun io => { io with
        peers := io.peers ++ [⟨.mgmt, pieceLoad p.1 p.2, pa, s.ownBytes .mgmt pa p.2, true⟩] })).noteLoad .mgmt pa false)
    else
      let (x, m, s) := (s.noteLoad .mgmt pa false).loadBytes .mgmt (.dev pa) key p.2 none
      (some (x, m), s)
  | .at pl key =>
    let (x, m, s) := s.loadBytes .mgmt pl key p.2 none
    (some (x, m), s)
  | _ => (some ([], false), s)

/-- Pieces in program order, each kept as it is read; have all been read? -/
def State.loadPieces (s : State) : List (Nat × Nat) → Bool × State
  | [] => (true, s)
  | p :: ps => match s.loadPiece p with
    | (some r, s) => (s.modMgmt (fun m => { m with loaded := m.loaded ++ [r] })).loadPieces ps
    | (none, s) => (false, s)

/-- Plain loads of a span in program order, and whether a granule read was poisoned; `none` while one of them waits. -/
def State.loadSpan (s : State) (pieces : List (Nat × Nat)) : Option (List Byte × Bool) × State :=
  match s.loadPieces (pieces.drop s.mgmt.loaded.length) with
  | (true, s) => (some (s.mgmt.loaded.flatMap (·.1), s.mgmt.loaded.any (·.2)), s.modMgmt (fun m => { m with loaded := [] }))
  | (false, s) => (none, s)

/-- Plain stores of a span in program order. -/
def State.storeSpan (s : State) (a : Nat) (bs : List Byte) (poison : Bool) : State :=
  (spanPieces a bs.length).foldl (fun s p =>
    let x := (bs.drop (p.1 - a)).take p.2
    match s.mgmtPlace .store p.1 with
    | .at (.ctl off) _ => s.ioWrite .management off p.2 (BitVec.ofNat 64 (bytesNat x))
    | .at pl key => s.enqueue .mgmt pl key x poison none
    | _ => s) s

/-- Is there room in the store queue for the stores of an aligned span? -/
def State.storeRoom (s : State) (n : Nat) : Bool := (s.thread .mgmt).storeQ.length + (n + 15) / 16 ≤ 16

/-- A security instruction on the record at its address: `reads` and `writes` are (offset, length) within it, `k` gets
what was read and answers the octets written with their mark. -/
def State.secRun (s : State) (f : Fields) (total : Nat) (reads writes : Option (Nat × Nat))
    (k : List Byte → State → List Byte × State) : Res :=
  let addr := s.addrOf .mgmt f
  let a := addr.toNat
  let ps := s.addrPoison .mgmt f
  let spans := (reads.toList.map (fun r => (AccNeed.load, a + r.1, r.2))) ++ (writes.toList.map (fun w => (AccNeed.store, a + w.1, w.2)))
  match s.secCheck addr 16 total (ps.any (·.1)) ps spans with
  | some (c, v) => .trap c v
  | none =>
    if writes.any (fun w => !s.storeRoom w.2) then .stall s
    else
      match (match reads with
        | some r => s.loadSpan (spanPieces (a + r.1) r.2)
        | none => (some ([], false), s)) with
      | (none, s) => .stall s
      | (some (m, bad), s) =>
        if bad then .trapIn s .poisonUse 0
        else
          let (out, s) := k m s
          .ok (match writes with
            | some w => s.storeSpan (a + w.1) out false
            | none => s)

/-! ## Hash contexts (R377) -/

def hashEmpty : HashCtx := ⟨shaIv, 0, [], false⟩

def State.hashCtx (s : State) (k : Nat) : HashCtx := mget hashEmpty s.mgmt.hc k
def State.setHashCtx (s : State) (k : Nat) (c : HashCtx) : State :=
  s.modMgmt (fun m => { m with hc := mset hashEmpty m.hc k c })

/-- Absorb octets. -/
def HashCtx.absorb (c : HashCtx) (m : List Byte) (bad : Bool) : HashCtx :=
  let all := c.part ++ m
  let (h, rest) := shaAbsorb (all.length / 128 + 1) c.h all
  { h, count := c.count + BitVec.ofNat 64 m.length, part := rest, poison := c.poison || bad }

def HashCtx.digest (c : HashCtx) : List Byte := shaFinish c.h c.count.toNat c.part

def laneHashb (f : Fields) (k : Nat) (_ : Hart) (s : State) : Res :=
  guardOps s .mgmt [(f.a, .pair), (f.b, .w32), (f.c, .w32)] <|
    let addr := s.addrOf .mgmt f
    let n := (s.op32 .mgmt f.c).toNat
    let ps := s.addrPoison .mgmt f
    let all := ps ++ [(s.opPoison .mgmt f.c .w32, 2)]
    match s.secCheck addr 1 n (ps.any (·.1)) all [(.load, addr.toNat, n)] with
    | some (c, v) => .trap c v
    | none =>
      match s.loadSpan (spanPieces addr.toNat n) with
      | (none, s) => .stall s
      | (some (m, bad), s) => .ok (s.setHashCtx k ((s.hashCtx k).absorb m bad))

def laneHashf (f : Fields) (k : Nat) (_ : Hart) (s : State) : Res :=
  guardOps s .mgmt (addrUses f) <|
    let addr := s.addrOf .mgmt f
    let ps := s.addrPoison .mgmt f
    match s.secCheck addr 16 48 (ps.any (·.1)) ps [(.store, addr.toNat, 48)] with
    | some (c, v) => .trap c v
    | none =>
      if !s.storeRoom 48 then .stall s
      else
        let c := s.hashCtx k
        .ok ((s.storeSpan addr.toNat c.digest c.poison).setHashCtx k hashEmpty)

/-! ## ECDSA (R378) -/

/-- The secret scalar of DIK (R371). -/
def dik : Nat :=
  1 + os2ip (hmac384 uds (ascii "FV-DIK")) % (p384N - 1)

/-- The public key of DIK: Q = d·G (R371). -/
def dikPublic : Point := pointMul 384 dik p384G

/-- The number that 48 octets hold from an offset. -/
def octets48 (m : List Byte) (o : Nat) : Nat := os2ip ((m.drop o).take 48)

def ecverResult (m : List Byte) : Word :=
  if ecdsaVerify (octets48 m 0) (octets48 m 48) (octets48 m 96) (octets48 m 144) (octets48 m 192) then 1 else 0

def laneEcver (f : Fields) (_ : Hart) (s : State) : Res :=
  guardOps s .mgmt (addrUses f ++ f.dst .w32) <|
    s.secRun f 240 (some (0, 240)) none (fun m s => ([], s.put32 .mgmt f.dest (ecverResult m) false))

def laneEcsig (f : Fields) (_ : Hart) (s : State) : Res :=
  guardOps s .mgmt (addrUses f) <|
    s.secRun f 144 (some (0, 48)) (some (48, 96)) (fun m s => (ecdsaSign dik m, s))

/-! ## Measurements (R379) -/

def laneMext (f : Fields) (k : Nat) (_ : Hart) (s : State) : Res :=
  guardOps s .mgmt (addrUses f) <|
    s.secRun f 48 (some (0, 48)) none (fun m s => ([], s.setMeas k (sha384 (s.meas k ++ m))))

def laneMread (f : Fields) (k : Nat) (_ : Hart) (s : State) : Res :=
  guardOps s .mgmt (addrUses f) <|
    s.secRun f 48 none (some (0, 48)) (fun _ s => (s.meas k, s))

/-! ## The instructions: level M, on the management core alone (R375) -/

def execHashb (f : DF) (k : BitVec 2) (s : State) : Host.Outcome State Fault Refusal :=
  issue 2 .mgmt (.hashb f k) (laneHashb f.fields k.toNat) s
def execHashf (f : DF) (k : BitVec 2) (s : State) : Host.Outcome State Fault Refusal :=
  issue 2 .mgmt (.hashf f k) (laneHashf f.fields k.toNat) s
def execEcver (f : DF) (s : State) : Host.Outcome State Fault Refusal := issue 2 .mgmt (.ecver f) (laneEcver f.fields) s
def execEcsig (f : DF) (s : State) : Host.Outcome State Fault Refusal := issue 2 .mgmt (.ecsig f) (laneEcsig f.fields) s
def execMext (f : DF) (k : BitVec 3) (s : State) : Host.Outcome State Fault Refusal :=
  issue 2 .mgmt (.mext f k) (laneMext f.fields k.toNat) s
def execMread (f : DF) (k : BitVec 3) (s : State) : Host.Outcome State Fault Refusal :=
  issue 2 .mgmt (.mread f k) (laneMread f.fields k.toNat) s

end Sys2Proof.Machine
end

