-- ==== Sys2Proof/Machine/Run.lean ====
section
/-! DEFINITION. An agent becomes the current one, and how a fetch that gives no instruction ends (R52, R391). -/

namespace Sys2Proof.Machine

/-- A thread that arrives again at a cross-lane instruction has its turn (R168). -/
def State.endRearrive (s : State) : Agent → State
  | .user c t => if (s.thread (.user c t)).rearrive then s.modThread (.user c t) (fun th => { th with rearrive := false }) else s
  | _ => s

/-- Make an agent the current one. -/
def State.startAgent (s : State) (a : Agent) : State := { s.endRearrive a with cur := a, stalled := false }

/-- A fetch that traps (R52, R391): EPC is the address of parcel 0. -/
def State.fetchTrap (s : State) (a : Agent) (c : Cause) (v : Pair) : State :=
  s.takeTrap (agentHart a) c v (s.pc (agentHart a))

/-- A fetch of a page that is not resident: the thread stalls while the fault unit migrates the page (R52). -/
def State.holdFetch (s : State) (a : Agent) (pteAddr : Nat) : State :=
  let h := agentHart a
  s.startPromotion (s.ctxOf h).toNat (s.pc h) pteAddr (some (.fetch h))

end Sys2Proof.Machine
end

