-- ==== Sys2Proof/Machine/Select.lean ====
section
/-! DEFINITION. What a clk of a core issues (12_scheduler R284–R286, 03_encoding R63, R67, R68), the fetch of one agent
(R52), and the moves of queued stores (R194, R198). -/

namespace Sys2Proof.Machine

/-! ## Issue class and bank-use vector (Table 3-13, R68) -/

inductive IssueClass where
  | a | m | solo
  deriving DecidableEq, Repr

def opdClass (opd : Nat) : IssueClass :=
  if opd ≤ 0x086 || opd = 0x151 then .a
  else if (0x0C0 ≤ opd && opd ≤ 0x144) then .m
  else .solo

/-- The major opcode of a W opcode (Table 3-14). -/
def wOpd (opw : Nat) : Nat :=
  (([0x000, 0x002, 0x003, 0x006, 0x007, 0x007, 0x00D, 0x00E, 0x00D, 0x00E, 0x013, 0x014, 0x015, 0x016, 0x017, 0x018, 0x019,
     0x01A, 0x01E, 0x01F, 0x020, 0x021, 0x011, 0x011, 0x011, 0x011, 0x011, 0x011, 0x00C, 0x00A, 0x010, 0x00F] : List Nat)[opw]?).getD
    (if 0x40 ≤ opw && opw ≤ 0x4D then
      ([0x040, 0x041, 0x042, 0x044, 0x045, 0x040, 0x042, 0x040, 0x042, 0x048, 0x048, 0x048, 0x04B, 0x04B] : List Nat).getD (opw - 0x40) 0
    else if 0x50 ≤ opw && opw ≤ 0x54 then 0x080 + (opw - 0x50)
    else if 0x60 ≤ opw && opw ≤ 0x65 then 0x0C0
    else 0x151)

/-- The major opcode of a C opcode (Table 3-2). -/
def cOpd (op : Nat) : Nat :=
  ([0x000, 0x002, 0x003, 0x006, 0x013, 0x014, 0x015, 0x017, 0x018, 0x019, 0x00D, 0x00E, 0x040, 0x041, 0x042, 0x045] : List Nat).getD op 0

/-- How many registers the fields D, a, b and c of a class A or M instruction name; 0 for a field it does not use. `n` is
the registers of its datum. -/
def fieldRegs (opd n : Nat) (wide : Bool) : Nat × Nat × Nat × Nat :=
  if [0x000, 0x00F, 0x010, 0x01E, 0x01F, 0x020, 0x021, 0x049, 0x04A, 0x04B].contains opd || (0x080 ≤ opd && opd ≤ 0x086) then (1, 0, 1, 0)
  else if opd = 0x001 then (2, 0, 1, 0)
  else if opd = 0x004 || opd = 0x005 then (2, 1, 1, 1)
  else if opd = 0x009 then (2, 1, 1, 2)
  else if opd = 0x00A || opd = 0x00B then (2, 2, 2, 0)
  else if opd = 0x00C then (2, 2, 1, 0)
  else if [0x008, 0x012, 0x01B, 0x01D, 0x022, 0x023, 0x043, 0x105].contains opd then (1, 1, 1, 1)
  else if opd ≤ 0x048 || opd = 0x104 || opd = 0x107 then (1, 1, 1, 0)
  else if opd = 0x0C0 || opd = 0x0C1 then (n, 2, 1, 0)
  else if opd = 0x0C2 || opd = 0x0C3 then (n, 1, 1, 1)
  else if 0x0C4 ≤ opd && opd ≤ 0x0C6 then (0, 2, 1, 0)
  else if opd = 0x0C7 || opd = 0x0C8 then (1, 2, 2, 1)
  else if opd = 0x0C9 || opd = 0x102 then (1, 0, 1, 0)
  else if opd = 0x0CA || opd = 0x0CB then (1, 2, 2, 2)
  else if opd = 0x0CC then (0, 2, 1, if wide then 2 else 1)
  else if opd = 0x100 then (1, 2, 1, 1)
  else if opd = 0x103 then (0, 1, 1, 1)
  else if opd = 0x101 || opd = 0x106 then (0, 0, 1, 0)
  else if opd = 0x140 || opd = 0x142 || opd = 0x144 then (n, 2, 1, n)
  else if opd = 0x141 then (0, 2, 1, n)
  else (0, 0, 0, 0)

/-- The banks of `n` registers from one operand. -/
def opdBanks (o : Opd) (n : Nat) : List Nat :=
  match o with
  | .reg r => (List.range n).map (fun i => (r + i) % 4)
  | _ => []

/-- The D instruction that an instruction executes as: its opcode, the registers of its datum, its fields. -/
def asD (i : Instr) : Option (Nat × Nat × Bool × Fields) :=
  match i with
  | .ld f m => some (0x0C0, (if m.sc then 1 else (dataW m.size.bytes).count), false, f.fields)
  | .st f m => some (0x0C1, (dataW m.size.bytes).count, false, f.fields)
  | .ldt f m => some (0x0C2, (dataW m.size.bytes).count, false, f.fields)
  | .stt f m => some (0x0C3, (dataW m.size.bytes).count, false, f.fields)
  | .atom f m => some (0x140, (dataW m.sz.bytes).count, false, f.fields)
  | .red f m => some (0x141, (if m.sc then 1 else (dataW m.sz.bytes).count), false, f.fields)
  | .cas f m => some (0x142, (dataW m.sz.bytes).count, false, f.fields)
  | .waitv f m => some (0x144, (dataW m.sz.bytes).count, false, f.fields)
  | .dbell f eight => some (0x0CC, 1, eight, f.fields)
  | .mwaitAll f => some (0x106, 1, false, { f.fields with b := .imm 0 })
  | i => match i.dFields with
    | some (opd, _, f) => some (opd, 1, false, f.fields)
    | none => match i.cFields with
      | some (op, f) => some (cOpd op, 1, false, f.fields)
      | none => match i.wFields with
        | some (opw, d, a, b) =>
          some (wOpd opw, if opw = 0x61 then 2 else 1, false, { d := d.toNat, a := .reg a.toNat, b := b.opd })
        | none => none

/-- Issue class and bank-use vector, as the list of banks. -/
def pairing (i : Instr) : IssueClass × List Nat :=
  match asD i with
  | none => (.solo, [])
  | some (opd, n, wide, f) =>
    let (d, a, b, c) := fieldRegs opd n wide
    (opdClass opd, (if f.n then [] else opdBanks (.reg f.d) d) ++ opdBanks f.a a ++ opdBanks f.b b ++ opdBanks f.c c)

/-- May two groups issue in one clk (R67)? -/
def pairs (x y : IssueClass × List Nat) : Bool :=
  ((x.1 == .a && y.1 == .m) || (x.1 == .m && y.1 == .a)) && x.2.all (fun b => !y.2.contains b)

/-! ## Eligible threads (R284) -/

/-- Does what an instruction answers leave its thread stalled? -/
def Res.stalls : Res → Bool
  | .stall _ => true
  | _ => false

/-- Are the resources that an instruction takes free for a hart: a store-queue entry, a task record, an engine entry, range-lock
entries, and for the tile-table instructions of R113 no live operation on their handle? -/
def State.resourcesFree (s : State) (h : Hart) (i : Instr) : Bool :=
  let goes (lane : Hart → State → Res) : Bool := !(lane h s).stalls
  match i with
  | .st .. | .stt .. => !s.queueFull h
  | .mma f z => goes (laneMma f.fields z)
  | .tmov f m => goes (laneTmov f.fields m)
  | .quant f => goes (laneQuant f.fields)
  | .cpy f col => goes (laneCpy f.fields col)
  | .gth f => goes (laneGth f.fields)
  | .cpySeal f => goes (laneImage true f.fields)
  | .cpyOpen f => goes (laneImage false f.fields)
  | .tfree f => goes (laneTfree f.fields)
  | .thdr f k => goes (laneThdr f.fields false (fun t => hdrWord t.hdr k.toNat))
  | .thdrCtl f => goes (laneThdr f.fields true Tile.ctl)
  | .thset f k => goes (laneThset f.fields (thsetWord k.toNat))
  | .thsetCtl f => goes (laneThset f.fields thsetCtlWith)
  | _ => true

/-- Do threads of lower lanes of the row still have to arrive again at their cross-lane instructions (R168)? -/
def Core.rowRearrives (k : Core) (t : Nat) : Bool :=
  let restoring := match k.wg with
    | some w => w.restoring
    | none => false
  (List.range (t % 64)).any (fun l =>
    let th := k.thread (t / 64 * 64 + l)
    th.rearrive || (restoring && th.stopped && mget 0 th.rearm 0x400 == 7))

/-- The harts of an agent that have still to do its next instruction. -/
def State.hartsLeft (s : State) : Agent → List Hart
  | .user c t => [.user c t]
  | .sup c => (s.core c).lanesLeft.map (Hart.sup c)
  | .mgmt => [.mgmt]

/-- May an agent issue in this clk as far as restored cross-lane instructions go? -/
def State.inRowOrder (s : State) : Agent → Bool
  | .user c t => !((s.core c).thread t).rearrive || !(s.core c).rowRearrives t
  | _ => true

/-- The next instruction of an agent, where its fetch gives one now. -/
def State.nextInstr (s : State) (a : Agent) : Option Instr :=
  match (s.fetch (agentHart a)).1 with
  | .instr i => some i
  | _ => none

def State.eligible (s : State) (a : Agent) : Bool :=
  s.agentReady a && s.inRowOrder a && (match (s.fetch (agentHart a)).1 with
    | .instr i => (s.hartsLeft a).any (fun h => s.resourcesFree h i)
    | .held _ => false
    | _ => true)

/-! ## Buckets (R284, R285) -/

/-- A bucket with its eligible user threads; the supervisor group's has none. -/
structure Bucket where
  sup : Bool
  pc : BitVec 64
  w : Nat
  tids : List Nat
  deriving DecidableEq, Repr

/-- The key of the supervisor group's count. -/
def supBucket : Nat := 2 ^ 64

/-- The lanes that hold an eligible thread. -/
def Bucket.lanes (b : Bucket) : List Nat := dedup (b.tids.map (· % 64))

/-- Does bucket `x` come before `y`: aged by W, then lanes, W, PC? -/
def Bucket.before (x y : Bucket) : Bool :=
  let pc := decide (x.pc.toNat ≤ y.pc.toNat)
  if 16 ≤ x.w && 16 ≤ y.w then decide (y.w < x.w) || (x.w == y.w && pc)
  else if 16 ≤ x.w then true
  else if 16 ≤ y.w then false
  else if x.lanes.length ≠ y.lanes.length then decide (y.lanes.length < x.lanes.length)
  else if x.w ≠ y.w then decide (y.w < x.w)
  else pc

def insertBucket (b : Bucket) : List Bucket → List Bucket
  | [] => [b]
  | x :: r => if x.before b then x :: insertBucket b r else b :: x :: r

/-- The buckets of user threads that hold an eligible thread, best first. -/
def State.userBuckets (s : State) (c : Nat) : List Bucket :=
  let k := s.core c
  let n := match k.wg with
    | some w => w.nth
    | none => 0
  let ts := (List.range n).filter (fun t => s.eligible (.user c t))
  let pcs := dedup (ts.map (fun t => (k.thread t).pc.toNat))
  (pcs.map (fun p => ({ sup := false, pc := BitVec.ofNat 64 p, w := mget 0 k.buckets p
                        tids := ts.filter (fun t => (k.thread t).pc.toNat = p) } : Bucket))).foldl (fun l b => insertBucket b l) []

/-- On each lane the thread that has been eligible longest, the lower slot among equals. -/
def Core.pick (k : Core) (tids : List Nat) (lane : Nat) : Option Nat :=
  (tids.filter (· % 64 = lane)).foldl (fun best t =>
    match best with
    | none => some t
    | some b => if (k.thread b).age < (k.thread t).age then some t else some b) none

def State.groupOf (s : State) (c : Nat) (b : Bucket) : List Agent :=
  if b.sup then [.sup c] else allLanes.filterMap (fun l => ((s.core c).pick b.tids l).map (Agent.user c))

/-- What the instruction at a bucket's PC may pair with; one that does not decode issues alone. -/
def State.bucketPairing (s : State) (c : Nat) (b : Bucket) : IssueClass × List Nat :=
  match (s.groupOf c b).head?.bind s.nextInstr with
  | some i => pairing i
  | none => (.solo, [])

/-- The first and the second group of a clk (R285). -/
def State.selectGroups (s : State) (c : Nat) : List Bucket :=
  let k := s.core c
  let users := s.userBuckets c
  let sup : List Bucket := if s.eligible (.sup c) then [⟨true, k.supPc, mget 0 k.buckets supBucket, []⟩] else []
  let order := if !k.supFirst || users.isEmpty then sup ++ users else users ++ sup
  match order with
  | [] => []
  | first :: rest =>
    let p := s.bucketPairing c first
    first :: ((sup ++ rest.filter (!·.sup)).find? (fun b => b ≠ first && pairs p (s.bucketPairing c b))).toList

/-- Does a bucket exist at a PC: is a resident thread Ready there (R284)? -/
def Core.readyAt (k : Core) (pc : Nat) : Bool :=
  k.threads.any (fun p => p.1 < 960 && k.hasThread p.1 && p.2.run == .ready && !p.2.stopped && p.2.pc.toNat == pc)

/-- What issues in this clk: the threads of the chosen groups in ascending `tid`, whatever their lanes (R112, R207, R233), then
the supervisor group (R301, R341). -/
def State.clkAgents (s : State) (c : Nat) : List Agent :=
  let chosen := s.selectGroups c
  let tids := (chosen.flatMap (s.groupOf c)).filterMap (fun a => match a with
    | .user _ t => some t
    | _ => none)
  (tids.foldr insertAsc []).map (Agent.user c) ++ (if chosen.any (·.sup) then [.sup c] else [])

/-- The requests of the loads of the clk before: one set for each issue group of one LD or PREF (R226). -/
def State.flushLoads (s : State) (c : Nat) : State :=
  let loads := (s.core c).loads
  if loads.isEmpty then s
  else
    let group (l : Bool × BitVec 64 × Nat) : Nat := 2 * l.2.1.toNat + (if l.1 then 1 else 0)
    (dedup (loads.map group)).foldl (fun s n => s.sendReads c (dedup ((loads.filter (fun l => group l == n)).map (·.2.2))))
      (s.modCore c (fun k => { k with loads := [] }))

/-- One clk of a core's selector: the chosen groups issue next, each other bucket that holds an eligible thread counts
one more clk, and so does each eligible thread that was not chosen. A thread's clks add up over stretches in which it was not eligible
(DESIGN CHOICE, log 127). -/
def State.selectClk (s : State) (c : Nat) : State :=
  let chosen := s.selectGroups c
  let all := s.userBuckets c ++ (if s.eligible (.sup c) then [⟨true, (s.core c).supPc, mget 0 (s.core c).buckets supBucket, []⟩] else [])
  let agents := s.clkAgents c
  let waiting := all.flatMap (fun b => b.tids.filter (fun t => !agents.contains (.user c t)))
  let s := s.modCore c (fun k =>
    let k := { k with
      supFirst := match chosen with
        | b :: _ => b.sup
        | [] => false
      buckets := all.foldl (fun m b => let key := if b.sup then supBucket else b.pc.toNat
        mset 0 m key (if chosen.contains b then 0 else b.w + 1)) (k.buckets.filter (fun p => p.1 = supBucket || k.readyAt p.1)) }
    waiting.foldl (fun k t => k.modThread t (fun th => { th with age := th.age + 1 })) k)
  { s with issueQ := s.issueQ ++ agents }

/-- A new clk: what has trapped so far trapped before it (R42). -/
def Core.newClk (k : Core) : Core := { k with trqOld := k.trq.length }

/-- ISSUE_SELECT: a clk of a core begins; the requests of the last one go out, and a deferring workgroup arms when it may (R287). -/
def execIssueSelect (core : Nat) (s : State) : Host.Outcome State Fault Refusal :=
  .next (((((s.selectClk core).flushLoads core).flushStores core).modCore core Core.newClk).armDue core)

/-! ## Fetch (R52, R391) -/

/-- INSTRUCTION_FETCH: every parcel of an agent's next instruction is translated and read; a fault traps, a page that is
not resident holds the agent while it migrates. -/
def execInstructionFetch (ag : Agent) (s : State) : Host.Outcome State Fault Refusal :=
  .next (
    if s.agentReady ag then
      match s.fetch (agentHart ag) with
      | (.instr _, s') => s'
      | (.undecodable _, s') => s'
      | (.trap c v, s') => s'.fetchTrap ag c v
      | (.held e, s') => s'.holdFetch ag e
    else s)

/-! ## Moves of queued stores -/

/-- STORE_DRAIN: the oldest store of a hart leaves its queue, or an entry of its core order takes effect at home. A write
that reaches a stack under retraining waits (R415). -/
def execStoreDrain (h : Hart) (m : DrainMove) (s : State) : Host.Outcome State Fault Refusal :=
  .next (match m with
    | .leave =>
      let t := s.leaveQueue h
      match h.core? with
      | some c => t.wakeWf c
      | none => t
    | .home i =>
      match (s.order h)[i]? with
      | some e => if s.retrains e then s else (s.goHome h i).settleDrains
      | none => s)

end Sys2Proof.Machine
end

