-- ==== Sys2Proof/Machine/Spdm.lean ====
section
/-! DEFINITION. The transports and the SPDM responder (20_trust R380, R381; 21_program_boot R382, R384, Table 21-1).
The responder's records are held in State for each connection; requests and replies pass through management SRAM. -/

namespace Sys2Proof.Machine

/-! ## The transport areas (Table 21-1), as offsets into management SRAM -/

def Conn.area : Conn → Nat
  | .doe => 0x80000
  | .i3c => 0x84000

def areaAseq : Nat := 0x88000

/-- The records of a connection: CB0 and CB1. -/
def Conn.block : Conn → Nat
  | .doe => 0x10000
  | .i3c => 0x30000

def State.spdm (s : State) : Conn → Spdm
  | .doe => s.spdmDoe
  | .i3c => s.spdmI3c

def State.setSpdm (s : State) (c : Conn) (p : Spdm) : State :=
  match c with
  | .doe => { s with spdmDoe := p }
  | .i3c => { s with spdmI3c := p }

def State.rseq (s : State) (c : Conn) : Nat := s.sramWord (Conn.area c)
def State.tseq (s : State) (c : Conn) : Nat := s.sramWord (Conn.area c + 8)

/-- Can a transport bring requests? DOE is function 0 of the host face (R16, R362); MCTP over I3C always is. -/
def State.transportUp (s : State) : Conn → Bool
  | .doe => s.hostUp && s.anyLink (·.doe)
  | .i3c => true

/-- Does a transport still wait for the answer to a request, or has it an answer to send (R382)? -/
def State.serving? (s : State) (conn : Conn) : Bool := s.tseq conn ≠ s.rseq conn || (s.spdm conn).sent.toNat ≠ s.rseq conn

/-- A transport writes a request: RBUF, RLEN, RSEQ + 1, then ASEQ + 1 (R382). -/
def State.writeRequest (s : State) (conn : Conn) (req : List Byte) : State :=
  let a := Conn.area conn
  (((s.sramWrite (a + 0x1000) req).sramWrite (a + 4) (natBytes 4 req.length)).sramWrite a
    (natBytes 4 (s.rseq conn + 1))).sramWrite areaAseq (natBytes 4 (s.sramWord areaAseq + 1))

/-- SPDM_REQUEST_POST (R380, R382): a request is written, or waits in arrival order while the connection serves another. Nothing for a
length outside 1 to 4,096, nor over a transport that the module does not have. -/
def execSpdmRequestPost (conn : Conn) (req : List Byte) (s : State) : Host.Outcome State Fault Refusal :=
  .next (
    if !s.transportUp conn || req.isEmpty || 4096 < req.length then s
    else if s.serving? conn then s.setSpdm conn { s.spdm conn with waiting := (s.spdm conn).waiting ++ [req] }
    else s.writeRequest conn req)

/-- A reply's TLEN bytes leave the device; one that holds a poisoned granule is stopped there and logged (R389, log 131). -/
def State.sendReply (s : State) (conn : Conn) : State :=
  let a := Conn.area conn
  let n := s.sramWord (a + 12)
  if (granules (a + 12) 4 ++ granules (a + 0x2000) n).any (fun g => mget false s.mgmt.sramPoison g) then s.logRaw { ev := 0x0B }
  else s.emit (.spdmReply conn (peeks s.mgmt.sram (a + 0x2000) n))

/-- TRANSPORT_REPLY_SEND (R382): once TSEQ equals RSEQ, TLEN bytes of TBUF leave the device, and the next request that waits is
written. -/
def execTransportReplySend (conn : Conn) (s : State) : Host.Outcome State Fault Refusal :=
  .next (
    let p := s.spdm conn
    if s.tseq conn = s.rseq conn && p.sent.toNat ≠ s.rseq conn then
      let t := (s.setSpdm conn { p with sent := BitVec.ofNat 32 (s.rseq conn), waiting := p.waiting.drop 1 }).sendReply conn
      match p.waiting with
      | req :: _ => t.writeRequest conn req
      | [] => t
    else s)

/-! ## What a reply holds (Table 20-6, R384) -/

/-- The certificate chain of slot 0 in boot flash: its first two octets are its length. -/
def State.chain (s : State) : List Byte :=
  peeks s.mgmt.flash 0x400000 (bytesNat (peeks s.mgmt.flash 0x400000 2))

def devser : List Byte := natBytes 4 (Config.fuseWord 26).toNat ++ natBytes 4 (Config.fuseWord 27).toNat

/-- The measurement block of an index from 1 to 8. -/
def State.measBlock (s : State) (i : Nat) : List Byte :=
  let t : Byte := if i = 1 then 0 else if i = 5 then 2 else if i = 6 then 3 else 1
  [BitVec.ofNat 8 i, 0x01, 0x33, 0x00, t, 0x30, 0x00] ++ s.meas (i - 1)

def State.measBlocks (s : State) (first n : Nat) : List Byte := (List.range n).flatMap (fun i => s.measBlock (first + i))

/-- The responder nonce. -/
def responderNonce (cnt : BitVec 64) (nonce : List Byte) : List Byte :=
  (sha384 (devser ++ natBytes 8 cnt.toNat ++ nonce)).take 32

/-- The 100-byte combined SPDM 1.2 signing string of a context. -/
def signContext (context : String) : List Byte :=
  let c := ascii context
  (List.replicate 4 (ascii "dmtf-spdm-v1.2.*")).flatten ++ zeros (36 - c.length) ++ c

/-- A signature over a log (ECSIG of R378). -/
def signLog (context : String) (log : List Byte) : List Byte :=
  ecdsaSign dik (sha384 (signContext context ++ sha384 log))

/-! ## Judging and answering a request -/

/-- The answer to a request: its reply, and the connection after it when the request was accepted. -/
structure Answer where
  code : Byte
  reply : List Byte
  after : Option Spdm
  deriving DecidableEq, Repr

/-- A four-byte error reply. -/
def errorReply (version code data : Byte) : Answer := ⟨0, [version, 0x7F, code, data], none⟩

def invalidRequest : Answer := errorReply 0x12 0x01 0

/-- The states in which a request is accepted, and its exact length where it has one. -/
def requestRule : Nat → Option (List SpdmState × Option Nat)
  | 0x84 => some ([.start, .v, .c, .n], some 4)
  | 0xE1 => some ([.v], some 20)
  | 0xE3 => some ([.c], none)
  | 0x81 => some ([.n], some 4)
  | 0x82 => some ([.n], some 8)
  | 0x83 => some ([.n], some 36)
  | 0xE0 => some ([.n], none)
  | _ => none

/-- A request and its reply enter both logs, which are then VCA. -/
def Spdm.both (p : Spdm) (st : SpdmState) (req reply : List Byte) : Spdm :=
  let m1 := p.m1 ++ req ++ reply
  { p with st, m1, l1 := p.l1 ++ req ++ reply, vca := m1.length }

/-- What an accepted request's own content gives. -/
def State.serve (s : State) (p : Spdm) (req : List Byte) : Answer :=
  let at8 (i : Nat) : Byte := req.getD i 0
  let num (i n : Nat) : Nat := bytesNat ((req.drop i).take n)
  match (at8 1).toNat with
  | 0x84 =>
    let reply : List Byte := [0x10, 0x04, 0, 0, 0, 1, 0, 0x12]
    ⟨0x84, reply, some ({ p with m1 := [], l1 := [] }.both .v req reply)⟩
  | 0xE1 =>
    let reply : List Byte := [0x12, 0x61, 0, 0, 0, 10, 0, 0, 0x16, 0, 0, 0, 0, 0x10, 0, 0, 0, 0x10, 0, 0]
    ⟨0xE1, reply, some (p.both .c req reply)⟩
  | 0xE3 =>
    let shared := (at8 6).getLsbD 0 && (num 8 4).testBit 7 && (num 12 4).testBit 1
    if req.length < 32 || num 4 2 ≠ req.length || !shared then invalidRequest
    else
      let reply : List Byte := [0x12, 0x63, 0, 0, 36, 0, 1, 0, 4, 0, 0, 0, 0x80, 0, 0, 0, 2, 0, 0, 0] ++ zeros 16
      ⟨0xE3, reply, some (p.both .n req reply)⟩
  | 0x81 =>
    let reply := [0x12, 0x01, 0x00, 0x01] ++ sha384 s.chain
    ⟨0x81, reply, some { p with m1 := p.m1 ++ req ++ reply }⟩
  | 0x82 =>
    let all := s.chain
    let off := num 4 2
    if at8 2 ≠ 0 || all.length ≤ off then invalidRequest
    else
      let part := Nat.min (Nat.min (num 6 2) 1024) (all.length - off)
      let reply := [0x12, 0x02, 0, 0] ++ natBytes 2 part ++ natBytes 2 (all.length - off - part) ++ (all.drop off).take part
      ⟨0x82, reply, some { p with m1 := p.m1 ++ req ++ reply }⟩
  | 0x83 =>
    let kind := (at8 3).toNat
    if at8 2 ≠ 0 || !(kind = 0 || kind = 1 || kind = 255) then invalidRequest
    else
      let summary := if kind = 0 then [] else sha384 (s.measBlocks 1 (if kind = 1 then 4 else 8))
      let body := [0x12, 0x03, 0x00, 0x01] ++ sha384 s.chain ++ responderNonce p.cnt ((req.drop 4).take 32) ++ summary ++ [0, 0]
      let m1 := p.m1 ++ req ++ body
      ⟨0x83, body ++ signLog "responder-challenge_auth signing" m1, some { p with m1 := m1.take p.vca, cnt := p.cnt + 1 }⟩
  | 0xE0 =>
    let signed := (at8 2).getLsbD 0
    let op := (at8 3).toNat
    if req.length ≠ (if signed then 37 else 4) || (signed && at8 36 ≠ 0) || !(op < 9 || op = 255) then invalidRequest
    else
      let blocks := if op = 0 then [] else if op = 255 then s.measBlocks 1 8 else s.measBlock op
      let n := if op = 0 then 0 else if op = 255 then 8 else 1
      let body := [0x12, 0x60, (if op = 0 then 8 else 0), 0, BitVec.ofNat 8 n] ++ natBytes 3 blocks.length ++ blocks
        ++ responderNonce p.cnt (if signed then (req.drop 4).take 32 else zeros 32) ++ [0, 0]
      let l1 := p.l1 ++ req ++ body
      if signed then
        ⟨0xE0, body ++ signLog "responder-measurements signing" l1, some { p with l1 := l1.take p.vca, cnt := p.cnt + 1 }⟩
      else ⟨0xE0, body, some { p with l1 }⟩
  | _ => invalidRequest

/-- The checks in the order of R381 and R384, then the request's own. -/
def State.answer (s : State) (conn : Conn) (req : List Byte) : Answer :=
  let p := s.spdm conn
  let version := req.getD 0 0
  let code := req.getD 1 0
  let wanted : Byte := if code = 0x84 then 0x10 else 0x12
  let known := version = 0x10 || version = 0x12
  if req.length < 4 then invalidRequest
  else if version ≠ wanted then errorReply (if known then 0x12 else 0x10) 0x41 0
  else match requestRule code.toNat with
    | none => errorReply 0x12 0x07 code
    | some (states, len) =>
      if !states.contains p.st then errorReply 0x12 0x04 0
      else if len.any (fun n => req.length ≠ n) then invalidRequest
      else if code ≠ 0x84 && (24576 ≤ p.m1.length || 24576 ≤ p.l1.length) then invalidRequest
      else s.serve p req

/-- The request that a connection waits for an answer to. -/
def State.request? (s : State) (conn : Conn) : Option (List Byte) :=
  let a := Conn.area conn
  if (s.spdm conn).seen.toNat = s.rseq conn then none
  else some (peeks s.mgmt.sram (a + 0x1000) (s.sramWord (a + 4)))

/-- Whose turn the scan of the responder gives (R384): one whole request of DOE first, then one of I3C; a connection with no request
is passed over. -/
def State.scanTurn (s : State) : Conn → Bool
  | .doe => !s.scanI3c || (s.request? .i3c).isNone
  | .i3c => s.scanI3c || (s.request? .doe).isNone

/-- The code of a state in the records (Table 21-1). -/
def SpdmState.code : SpdmState → Nat
  | .start => 0 | .v => 1 | .c => 2 | .n => 3

/-- The records of a connection, as they stand in management SRAM; each log has 32 KiB there (Table 21-1). -/
def State.putRecords (s : State) (conn : Conn) (p : Spdm) : State :=
  let b := Conn.block conn
  let head := natBytes 4 p.st.code ++ natBytes 4 p.seen.toNat ++ natBytes 4 p.m1.length ++ natBytes 4 p.l1.length ++ natBytes 4 p.vca
  (((s.sramWrite b head).sramWrite (b + 0x20) (devser ++ natBytes 8 p.cnt.toNat)).sramWrite (b + 0x1000) (p.m1.take 0x8000)).sramWrite
    (b + 0x9000) (p.l1.take 0x8000)

/-- The nonce that a request leaves in the records: the requester's, or 32 zero octets for an unsigned GET_MEASUREMENTS. -/
def nonceOf (code : Byte) (req : List Byte) : Option (List Byte) :=
  if code = 0x83 then some ((req.drop 4).take 32)
  else if code = 0xE0 then some (if (req.getD 2 0).getLsbD 0 then (req.drop 4).take 32 else zeros 32)
  else none

/-- Lay the reply down: TBUF, TLEN, then TSEQ; the request has been seen, and the scan goes on to I3C where a request waits there, else ends. -/
def State.putReply (s : State) (conn : Conn) (p : Spdm) (reply : List Byte) : State :=
  let a := Conn.area conn
  let n := s.rseq conn
  let p := { p with seen := BitVec.ofNat 32 n }
  let s := (((s.putRecords conn p).sramWrite (a + 0x2000) reply).sramWrite (a + 12) (natBytes 4 reply.length)).sramWrite (a + 8) (natBytes 4 n)
  let s := s.setSpdm conn p
  { s with scanI3c := conn == .doe && (s.request? .i3c).isSome }

/-- One accepted request of a code is served; nothing where the next request is another or is not accepted, or the scan is at the
other connection. -/
def State.respond (s : State) (conn : Conn) (code : Byte) : State :=
  match s.request? conn with
  | none => s
  | some req =>
    let ans := s.answer conn req
    match ans.after with
    | some p =>
      if ans.code = code && s.scanTurn conn then
        let s := match nonceOf code req with
          | some nonce => s.sramWrite (Conn.block conn + 0x30) nonce
          | none => s
        s.putReply conn p ans.reply
      else s
    | none => s

/-- A request that is not accepted: the error reply, with no change of state or log (R381). -/
def State.respondError (s : State) (conn : Conn) : State :=
  match s.request? conn with
  | none => s
  | some req =>
    let ans := s.answer conn req
    match ans.after with
    | some _ => s
    | none => if s.scanTurn conn then s.putReply conn (s.spdm conn) ans.reply else s

def execGetVersion (conn : Conn) (s : State) : Host.Outcome State Fault Refusal := .next (s.respond conn 0x84)
def execGetCapabilities (conn : Conn) (s : State) : Host.Outcome State Fault Refusal := .next (s.respond conn 0xE1)
def execNegotiateAlgorithms (conn : Conn) (s : State) : Host.Outcome State Fault Refusal := .next (s.respond conn 0xE3)
def execGetDigests (conn : Conn) (s : State) : Host.Outcome State Fault Refusal := .next (s.respond conn 0x81)
def execGetCertificate (conn : Conn) (s : State) : Host.Outcome State Fault Refusal := .next (s.respond conn 0x82)
def execChallenge (conn : Conn) (s : State) : Host.Outcome State Fault Refusal := .next (s.respond conn 0x83)
def execGetMeasurements (conn : Conn) (s : State) : Host.Outcome State Fault Refusal := .next (s.respond conn 0xE0)
def execSpdmErrorReply (conn : Conn) (s : State) : Host.Outcome State Fault Refusal := .next (s.respondError conn)

end Sys2Proof.Machine
end

