-- ==== Sys2Proof/Machine/Special.lean ====
section
/-! DEFINITION. The special functions (07_float_and_crosslane R161, R162): each computes the exact value of Table 7-6 to
448 fractional bits and rounds once. Results that are not exact are irrational, or have a remainder, so the last bit is
kept as a sticky one. That 448 bits decide every rounding of an FP32 operand is PRESUMED (log 15). -/

namespace Sys2Proof.Machine

/-! ## Integer roots and fixed-point series -/

/-- The integer square root, bit by bit: `r` is the part found so far. -/
def isqrtFrom (n : Nat) : Nat → Nat → Nat
  | 0, r => r
  | k + 1, r => let r' := r + 2 ^ k
    isqrtFrom n k (if r' * r' ≤ n then r' else r)

/-- ⌊√n⌋ for n below 2^256. -/
def isqrt (n : Nat) : Nat := isqrtFrom n 128 0

/-- Fractional bits of the fixed-point values. -/
def fixBits : Nat := 448

/-- Σ x^(2k+1)/(2k+1) from a term x^j: `sq` is x², all in fixed point; `alt` alternates signs. -/
def oddSeries (alt : Bool) (sq : Nat) : Nat → Nat → Int → Int → Int
  | 0, _, _, acc => acc
  | n + 1, j, t, acc =>
    oddSeries alt sq n (j + 2) ((if alt then -1 else 1) * (t * sq / 2 ^ fixBits)) (acc + t / j)

/-- atanh and atan of a fixed-point value. -/
def fixAtanh (x : Nat) : Nat := (oddSeries false (x * x / 2 ^ fixBits) 150 1 x 0).toNat
def fixAtan (x : Nat) : Nat := (oddSeries true (x * x / 2 ^ fixBits) 110 1 x 0).toNat

/-- ln 2 = 2 atanh(1/3), and π = 16 atan(1/5) − 4 atan(1/239). -/
def fixLn2 : Nat := 2 * fixAtanh (2 ^ fixBits / 3)
def fixPi : Nat := 16 * fixAtan (2 ^ fixBits / 5) - 4 * fixAtan (2 ^ fixBits / 239)

/-- Σ terms t, t·x/j, t·x²/(j(j+1)), …: the exponential series. -/
def expSeries (x : Nat) : Nat → Nat → Nat → Nat → Nat
  | 0, _, _, acc => acc
  | n + 1, j, t, acc => expSeries x n (j + 1) (t * x / 2 ^ fixBits / j) (acc + t)

/-- e^x for a fixed-point x below 1. -/
def fixExp (x : Nat) : Nat := expSeries x 110 1 (2 ^ fixBits) 0

/-- The series of sine and cosine: each term is the last times −x²/(j(j+1)). -/
def trigSeries (sq : Nat) : Nat → Nat → Int → Int → Int
  | 0, _, _, acc => acc
  | n + 1, j, t, acc => trigSeries sq n (j + 2) (-(t * sq / 2 ^ fixBits / (j * (j + 1)))) (acc + t)

/-- sin and cos of a fixed-point angle in (0, π/2). -/
def fixSin (x : Nat) : Nat := (trigSeries (x * x / 2 ^ fixBits) 70 2 x 0).toNat
def fixCos (x : Nat) : Nat := (trigSeries (x * x / 2 ^ fixBits) 70 1 (2 ^ fixBits) 0).toNat

/-- A positive fixed-point value with something below its last bit. -/
def sticky (neg : Bool) (v : Nat) : FVal := .fin neg (2 * v + 1) (-(fixBits : Int) - 1)

/-! ## The functions of a finite non-zero magnitude m × 2^e -/

/-- The same value with an even exponent. -/
def evenExp (m : Nat) (e : Int) : Nat × Int := if e % 2 = 0 then (m, e) else (2 * m, e - 1)

def rcpVal (neg : Bool) (m : Nat) (e : Int) : FVal :=
  let q := 2 ^ 96 / m
  if q * m = 2 ^ 96 then .fin neg q (-e - 96) else .fin neg (2 * q + 1) (-e - 97)

def sqrtVal (m : Nat) (e : Int) : FVal :=
  let (m, e) := evenExp m e
  let n := m * 2 ^ 96
  let r := isqrt n
  if r * r = n then .fin false r (e / 2 - 48) else .fin false (2 * r + 1) (e / 2 - 49)

def rsqVal (m : Nat) (e : Int) : FVal :=
  let (m, e) := evenExp m e
  let r := isqrt (2 ^ 160 / m)
  if r * r * m = 2 ^ 160 then .fin false r (-(e / 2) - 80) else .fin false (2 * r + 1) (-(e / 2) - 81)

/-- 2^x: the integer part bounded, since beyond 1,000 the result overflows or underflows whatever it is. -/
def exp2Val (neg : Bool) (m : Nat) (e : Int) : FVal :=
  let n : Int := if 0 ≤ e then m * 2 ^ (min e 20).toNat else m / 2 ^ (-e).toNat
  let rem : Nat := if 0 ≤ e then 0 else m % 2 ^ (-e).toNat
  let clamp (k : Int) : Int := max (-1000) (min 1000 k)
  if rem = 0 then .fin false 1 (clamp (if neg then -n else n))
  else
    let k := (-e).toNat
    let fr := rem * 2 ^ fixBits / 2 ^ k
    let (int, f) : Int × Nat := if neg then (-n - 1, 2 ^ fixBits - fr) else (n, fr)
    .fin false (2 * fixExp (f * fixLn2 / 2 ^ fixBits) + 1) (clamp int - fixBits - 1)

/-- log2 of a positive value. -/
def log2Val (m : Nat) (e : Int) : FVal :=
  let k := m.log2
  let int : Int := e + k
  if m = 2 ^ k then (if int = 0 then .fin false 0 0 else .fin (int < 0) int.natAbs 0)
  else
    let z := (m - 2 ^ k) * 2 ^ fixBits / (m + 2 ^ k)
    let ln := 2 * fixAtanh z
    let t : Int := int * 2 ^ fixBits + (ln * 2 ^ fixBits / fixLn2 : Nat)
    sticky (t < 0) t.natAbs

/-- The quadrant q mod 4 of 4|x|, and the angle in fixed point; 0 when 4x is integral. -/
def quadrant (m : Nat) (e : Int) : Nat × Nat :=
  if -2 ≤ e then ((if e = -2 then m else if e = -1 then 2 * m else 0) % 4, 0)
  else
    let k := (-e - 2).toNat
    (m / 2 ^ k % 4, m % 2 ^ k * fixPi / 2 ^ k / 2)

def sinVal (neg : Bool) (m : Nat) (e : Int) : FVal :=
  let (q, a) := quadrant m e
  if a = 0 then (if q % 2 = 0 then .fin neg 0 0 else .fin (neg ^^ (q == 3)) 1 0)
  else sticky (neg ^^ decide (2 ≤ q)) (if q % 2 = 0 then fixSin a else fixCos a)

def cosVal (m : Nat) (e : Int) : FVal :=
  let (q, a) := quadrant m e
  if a = 0 then (if q % 2 = 1 then .fin false 0 0 else .fin (q == 2) 1 0)
  else sticky (q == 1 || q == 2) (if q % 2 = 0 then fixCos a else fixSin a)

/-! ## Table 7-6 -/

inductive SpFn where
  | rcp | rsq | sqrt | exp2 | log2 | sint | cost
  deriving DecidableEq, Repr

/-- The exact value, with the flags that Table 7-6 names. -/
def spValue (fn : SpFn) (x : FVal) : ExactRes :=
  match x with
  | .nan s => (.nan false, ivIf s)
  | .inf neg => match fn with
    | .rcp => (.fin neg 0 0, 0)
    | .rsq => if neg then (.nan false, flIV) else (.fin false 0 0, 0)
    | .sqrt => if neg then (.nan false, flIV) else (.inf false, 0)
    | .exp2 => if neg then (.fin false 0 0, 0) else (.inf false, 0)
    | .log2 => if neg then (.nan false, flIV) else (.inf false, 0)
    | .sint => (.nan false, flIV)
    | .cost => (.nan false, flIV)
  | .fin neg m e =>
    if m = 0 then match fn with
      | .rcp => (.inf neg, flDZ)
      | .rsq => (.inf neg, flDZ)
      | .sqrt => (.fin neg 0 0, 0)
      | .exp2 => (.fin false 1 0, 0)
      | .log2 => (.inf true, flDZ)
      | .sint => (.fin neg 0 0, 0)
      | .cost => (.fin false 1 0, 0)
    else match fn with
      | .rcp => (rcpVal neg m e, 0)
      | .rsq => if neg then (.nan false, flIV) else (rsqVal m e, 0)
      | .sqrt => if neg then (.nan false, flIV) else (sqrtVal m e, 0)
      | .exp2 => (exp2Val neg m e, 0)
      | .log2 => if neg then (.nan false, flIV) else (log2Val m e, 0)
      | .sint => (sinVal neg m e, 0)
      | .cost => (cosVal m e, 0)

/-- One special function of an FP32 code: RNE, `sat` 0, FTZ from FMODE (R162). -/
def spCode (fn : SpFn) (ftz : Bool) (code : Nat) : Nat × FlagSet :=
  fF32.finish .rne ftz (spValue fn (fF32.read ftz code))

def laneSp (fn : SpFn) (f : Fields) (h : Hart) (s : State) : Res :=
  let us : List OpUse := [(f.b, .w32)]
  guardOps s h (us ++ f.dst .w32) <|
    let r := spCode fn (ftzOf (s.fmode h)) (s.opFloat h .f32 f.b).toNat
    .ok ((s.raise h r.2).put32 h f.dest (BitVec.ofNat 32 r.1) (s.opsPoison h us))

/-! ## The instructions -/

def execFrcp (f : DF) (s : State) : Host.Outcome State Fault Refusal := issue 0 .all (.frcp f) (laneSp .rcp f.fields) s
def execFrsq (f : DF) (s : State) : Host.Outcome State Fault Refusal := issue 0 .all (.frsq f) (laneSp .rsq f.fields) s
def execFsqrt (f : DF) (s : State) : Host.Outcome State Fault Refusal := issue 0 .all (.fsqrt f) (laneSp .sqrt f.fields) s
def execFexp2 (f : DF) (s : State) : Host.Outcome State Fault Refusal := issue 0 .all (.fexp2 f) (laneSp .exp2 f.fields) s
def execFlog2 (f : DF) (s : State) : Host.Outcome State Fault Refusal := issue 0 .all (.flog2 f) (laneSp .log2 f.fields) s
def execFsint (f : DF) (s : State) : Host.Outcome State Fault Refusal := issue 0 .all (.fsint f) (laneSp .sint f.fields) s
def execFcost (f : DF) (s : State) : Host.Outcome State Fault Refusal := issue 0 .all (.fcost f) (laneSp .cost f.fields) s
def execFrcpW (f : WB) (s : State) : Host.Outcome State Fault Refusal := issue 0 .all (.frcpW f) (laneSp .rcp f.fields) s
def execFrsqW (f : WB) (s : State) : Host.Outcome State Fault Refusal := issue 0 .all (.frsqW f) (laneSp .rsq f.fields) s
def execFsqrtW (f : WB) (s : State) : Host.Outcome State Fault Refusal := issue 0 .all (.fsqrtW f) (laneSp .sqrt f.fields) s
def execFexp2W (f : WB) (s : State) : Host.Outcome State Fault Refusal := issue 0 .all (.fexp2W f) (laneSp .exp2 f.fields) s
def execFlog2W (f : WB) (s : State) : Host.Outcome State Fault Refusal := issue 0 .all (.flog2W f) (laneSp .log2 f.fields) s

end Sys2Proof.Machine
end

