-- ==== Sys2Proof/Machine/Dispatch.lean ====
section
/-! DEFINITION. The dispatcher: one arm per constructor, each a direct call of one meaning or a refusal by name. -/

namespace Sys2Proof.Machine

def exec (i : Instr) (s : State) : Host.Outcome State Fault Refusal :=
  match i with
  | .mov f => Sys2Proof.Machine.execMov f s
  | .movC f => Sys2Proof.Machine.execMovC f s
  | .movW f => Sys2Proof.Machine.execMovW f s
  | .li f m => Sys2Proof.Machine.execLi f m s
  | .add f m => Sys2Proof.Machine.execAdd f m s
  | .addC f => Sys2Proof.Machine.execAddC f s
  | .addW f => Sys2Proof.Machine.execAddW f s
  | .sub f m => Sys2Proof.Machine.execSub f m s
  | .subC f => Sys2Proof.Machine.execSubC f s
  | .subW f => Sys2Proof.Machine.execSubW f s
  | .addc f => Sys2Proof.Machine.execAddc f s
  | .subb f => Sys2Proof.Machine.execSubb f s
  | .mul f => Sys2Proof.Machine.execMul f s
  | .mulC f => Sys2Proof.Machine.execMulC f s
  | .mulW f => Sys2Proof.Machine.execMulW f s
  | .mulh f m => Sys2Proof.Machine.execMulh f m s
  | .mulhW f => Sys2Proof.Machine.execMulhW f s
  | .mulhUW f => Sys2Proof.Machine.execMulhUW f s
  | .mad f => Sys2Proof.Machine.execMad f s
  | .madw f m => Sys2Proof.Machine.execMadw f m s
  | .add64 f => Sys2Proof.Machine.execAdd64 f s
  | .add64W f => Sys2Proof.Machine.execAdd64W f s
  | .sub64 f => Sys2Proof.Machine.execSub64 f s
  | .lea f m => Sys2Proof.Machine.execLea f m s
  | .leaW f => Sys2Proof.Machine.execLeaW f s
  | .min f m => Sys2Proof.Machine.execMin f m s
  | .minC f => Sys2Proof.Machine.execMinC f s
  | .minW f => Sys2Proof.Machine.execMinW f s
  | .minUW f => Sys2Proof.Machine.execMinUW f s
  | .max f m => Sys2Proof.Machine.execMax f m s
  | .maxC f => Sys2Proof.Machine.execMaxC f s
  | .maxW f => Sys2Proof.Machine.execMaxW f s
  | .maxUW f => Sys2Proof.Machine.execMaxUW f s
  | .abs f m => Sys2Proof.Machine.execAbs f m s
  | .absW f => Sys2Proof.Machine.execAbsW f s
  | .neg f m => Sys2Proof.Machine.execNeg f m s
  | .negW f => Sys2Proof.Machine.execNegW f s
  | .cmp f m => Sys2Proof.Machine.execCmp f m s
  | .cmpEqW f => Sys2Proof.Machine.execCmpEqW f s
  | .cmpNeW f => Sys2Proof.Machine.execCmpNeW f s
  | .cmpLtW f => Sys2Proof.Machine.execCmpLtW f s
  | .cmpGeW f => Sys2Proof.Machine.execCmpGeW f s
  | .cmpLtUW f => Sys2Proof.Machine.execCmpLtUW f s
  | .cmpGeUW f => Sys2Proof.Machine.execCmpGeUW f s
  | .sel f => Sys2Proof.Machine.execSel f s
  | .and f => Sys2Proof.Machine.execAnd f s
  | .andC f => Sys2Proof.Machine.execAndC f s
  | .andW f => Sys2Proof.Machine.execAndW f s
  | .or f => Sys2Proof.Machine.execOr f s
  | .orC f => Sys2Proof.Machine.execOrC f s
  | .orW f => Sys2Proof.Machine.execOrW f s
  | .xor f => Sys2Proof.Machine.execXor f s
  | .xorC f => Sys2Proof.Machine.execXorC f s
  | .xorW f => Sys2Proof.Machine.execXorW f s
  | .andn f => Sys2Proof.Machine.execAndn f s
  | .andnW f => Sys2Proof.Machine.execAndnW f s
  | .shl f m => Sys2Proof.Machine.execShl f m s
  | .shlC f => Sys2Proof.Machine.execShlC f s
  | .shlW f => Sys2Proof.Machine.execShlW f s
  | .shr f m => Sys2Proof.Machine.execShr f m s
  | .shrC f => Sys2Proof.Machine.execShrC f s
  | .shrW f => Sys2Proof.Machine.execShrW f s
  | .sar f m => Sys2Proof.Machine.execSar f m s
  | .sarC f => Sys2Proof.Machine.execSarC f s
  | .sarW f => Sys2Proof.Machine.execSarW f s
  | .rot f => Sys2Proof.Machine.execRot f s
  | .rotW f => Sys2Proof.Machine.execRotW f s
  | .fsh f => Sys2Proof.Machine.execFsh f s
  | .bfx f m => Sys2Proof.Machine.execBfx f m s
  | .bfi f => Sys2Proof.Machine.execBfi f s
  | .popc f => Sys2Proof.Machine.execPopc f s
  | .popcW f => Sys2Proof.Machine.execPopcW f s
  | .clz f => Sys2Proof.Machine.execClz f s
  | .clzW f => Sys2Proof.Machine.execClzW f s
  | .ctz f => Sys2Proof.Machine.execCtz f s
  | .ctzW f => Sys2Proof.Machine.execCtzW f s
  | .brev f => Sys2Proof.Machine.execBrev f s
  | .brevW f => Sys2Proof.Machine.execBrevW f s
  | .perm f => Sys2Proof.Machine.execPerm f s
  | .dot4 f m => Sys2Proof.Machine.execDot4 f m s
  | .fadd f m => Sys2Proof.Machine.execFadd f m s
  | .faddC f => Sys2Proof.Machine.execFaddC f s
  | .faddW f => Sys2Proof.Machine.execFaddW f s
  | .faddBf16x2W f => Sys2Proof.Machine.execFaddBf16x2W f s
  | .faddF16x2W f => Sys2Proof.Machine.execFaddF16x2W f s
  | .fsub f m => Sys2Proof.Machine.execFsub f m s
  | .fsubC f => Sys2Proof.Machine.execFsubC f s
  | .fsubW f => Sys2Proof.Machine.execFsubW f s
  | .fmul f m => Sys2Proof.Machine.execFmul f m s
  | .fmulC f => Sys2Proof.Machine.execFmulC f s
  | .fmulW f => Sys2Proof.Machine.execFmulW f s
  | .fmulBf16x2W f => Sys2Proof.Machine.execFmulBf16x2W f s
  | .fmulF16x2W f => Sys2Proof.Machine.execFmulF16x2W f s
  | .ffma f m => Sys2Proof.Machine.execFfma f m s
  | .fmin f m => Sys2Proof.Machine.execFmin f m s
  | .fminW f => Sys2Proof.Machine.execFminW f s
  | .fmax f m => Sys2Proof.Machine.execFmax f m s
  | .fmaxC f => Sys2Proof.Machine.execFmaxC f s
  | .fmaxW f => Sys2Proof.Machine.execFmaxW f s
  | .fminp f m => Sys2Proof.Machine.execFminp f m s
  | .fmaxp f m => Sys2Proof.Machine.execFmaxp f m s
  | .fcmp f m => Sys2Proof.Machine.execFcmp f m s
  | .fcmpLtW f => Sys2Proof.Machine.execFcmpLtW f s
  | .fcmpLeW f => Sys2Proof.Machine.execFcmpLeW f s
  | .fcmpEqW f => Sys2Proof.Machine.execFcmpEqW f s
  | .fclass f m => Sys2Proof.Machine.execFclass f m s
  | .frnd f m => Sys2Proof.Machine.execFrnd f m s
  | .cvt f m => Sys2Proof.Machine.execCvt f m s
  | .cvtF32I32W f => Sys2Proof.Machine.execCvtF32I32W f s
  | .cvtI32F32W f => Sys2Proof.Machine.execCvtI32F32W f s
  | .frcp f => Sys2Proof.Machine.execFrcp f s
  | .frcpW f => Sys2Proof.Machine.execFrcpW f s
  | .frsq f => Sys2Proof.Machine.execFrsq f s
  | .frsqW f => Sys2Proof.Machine.execFrsqW f s
  | .fsqrt f => Sys2Proof.Machine.execFsqrt f s
  | .fsqrtW f => Sys2Proof.Machine.execFsqrtW f s
  | .fexp2 f => Sys2Proof.Machine.execFexp2 f s
  | .fexp2W f => Sys2Proof.Machine.execFexp2W f s
  | .flog2 f => Sys2Proof.Machine.execFlog2 f s
  | .flog2W f => Sys2Proof.Machine.execFlog2W f s
  | .fsint f => Sys2Proof.Machine.execFsint f s
  | .fcost f => Sys2Proof.Machine.execFcost f s
  | .shfl f m => Sys2Proof.Machine.execShfl f m s
  | .bcst f => Sys2Proof.Machine.execBcst f s
  | .vote f m => Sys2Proof.Machine.execVote f m s
  | .lred f m => Sys2Proof.Machine.execLred f m s
  | .lscan f m => Sys2Proof.Machine.execLscan f m s
  | .match f => Sys2Proof.Machine.execMatch f s
  | .elect f => Sys2Proof.Machine.execElect f s
  | .ld f m => Sys2Proof.Machine.execLd f m s
  | .ld4W f => Sys2Proof.Machine.execLd4W f s
  | .ld8W f => Sys2Proof.Machine.execLd8W f s
  | .ld1W f => Sys2Proof.Machine.execLd1W f s
  | .ld1SxW f => Sys2Proof.Machine.execLd1SxW f s
  | .ld2W f => Sys2Proof.Machine.execLd2W f s
  | .ld2SxW f => Sys2Proof.Machine.execLd2SxW f s
  | .st f m => Sys2Proof.Machine.execSt f m s
  | .ldt f m => Sys2Proof.Machine.execLdt f m s
  | .stt f m => Sys2Proof.Machine.execStt f m s
  | .pref f size => Sys2Proof.Machine.execPref f size s
  | .cinv f size => Sys2Proof.Machine.execCinv f size s
  | .cwb f size => Sys2Proof.Machine.execCwb f size s
  | .cpy f col => Sys2Proof.Machine.execCpy f col s
  | .gth f => Sys2Proof.Machine.execGth f s
  | .ewait f => Sys2Proof.Machine.execEwait f s
  | .cpySeal f => Sys2Proof.Machine.execCpySeal f s
  | .cpyOpen f => Sys2Proof.Machine.execCpyOpen f s
  | .dbell f eight => Sys2Proof.Machine.execDbell f eight s
  | .talloc f m => Sys2Proof.Machine.execTalloc f m s
  | .tfree f => Sys2Proof.Machine.execTfree f s
  | .thdr f k => Sys2Proof.Machine.execThdr f k s
  | .thdrCtl f => Sys2Proof.Machine.execThdrCtl f s
  | .thset f k => Sys2Proof.Machine.execThset f k s
  | .thsetCtl f => Sys2Proof.Machine.execThsetCtl f s
  | .tmov f m => Sys2Proof.Machine.execTmov f m s
  | .mma f z => Sys2Proof.Machine.execMma f z s
  | .mwait f => Sys2Proof.Machine.execMwait f s
  | .mwaitAll f => Sys2Proof.Machine.execMwaitAll f s
  | .quant f => Sys2Proof.Machine.execQuant f s
  | .atom f m => Sys2Proof.Machine.execAtom f m s
  | .red f m => Sys2Proof.Machine.execRed f m s
  | .cas f m => Sys2Proof.Machine.execCas f m s
  | .fence f m => Sys2Proof.Machine.execFence f m s
  | .waitv f m => Sys2Proof.Machine.execWaitv f m s
  | .bara f lvl => Sys2Proof.Machine.execBara f lvl s
  | .barw f lvl => Sys2Proof.Machine.execBarw f lvl s
  | .bars f lvl => Sys2Proof.Machine.execBars f lvl s
  | .br f nz => Sys2Proof.Machine.execBr f nz s
  | .jmp f => Sys2Proof.Machine.execJmp f s
  | .jmpr f => Sys2Proof.Machine.execJmpr f s
  | .call f => Sys2Proof.Machine.execCall f s
  | .callInd f => Sys2Proof.Machine.execCallInd f s
  | .ret f => Sys2Proof.Machine.execRet f s
  | .tdisp f => Sys2Proof.Machine.execTdisp f s
  | .svc f => Sys2Proof.Machine.execSvc f s
  | .svcMb f => Sys2Proof.Machine.execSvcMb f s
  | .yield f => Sys2Proof.Machine.execYield f s
  | .safe f => Sys2Proof.Machine.execSafe f s
  | .nop f => Sys2Proof.Machine.execNop f s
  | .nopW => Sys2Proof.Machine.execNopW s
  | .exit f => Sys2Proof.Machine.execExit f s
  | .trap f => Sys2Proof.Machine.execTrap f s
  | .rdsr f sr => Sys2Proof.Machine.execRdsr f sr s
  | .wrsr f sr => Sys2Proof.Machine.execWrsr f sr s
  | .trqRead f => Sys2Proof.Machine.execTrqRead f s
  | .mboxRead f => Sys2Proof.Machine.execMboxRead f s
  | .mbrplWrite f => Sys2Proof.Machine.execMbrplWrite f s
  | .eret f => Sys2Proof.Machine.execEret f s
  | .tlbiPage f => Sys2Proof.Machine.execTlbiPage f s
  | .tlbiCtx f => Sys2Proof.Machine.execTlbiCtx f s
  | .tlbiAll f => Sys2Proof.Machine.execTlbiAll f s
  | .rdth f => Sys2Proof.Machine.execRdth f s
  | .wrth f => Sys2Proof.Machine.execWrth f s
  | .wake f => Sys2Proof.Machine.execWake f s
  | .park f => Sys2Proof.Machine.execPark f s
  | .irqbBind f => Sys2Proof.Machine.execIrqbBind f s
  | .irqbUnbind f => Sys2Proof.Machine.execIrqbUnbind f s
  | .bind f => Sys2Proof.Machine.execBind f s
  | .selft f => Sys2Proof.Machine.execSelft f s
  | .hashb f k => Sys2Proof.Machine.execHashb f k s
  | .hashf f k => Sys2Proof.Machine.execHashf f k s
  | .ecver f => Sys2Proof.Machine.execEcver f s
  | .ecsig f => Sys2Proof.Machine.execEcsig f s
  | .mext f k => Sys2Proof.Machine.execMext f k s
  | .mread f k => Sys2Proof.Machine.execMread f k s
  | .instructionFetch ag => Sys2Proof.Machine.execInstructionFetch ag s
  | .issueSelect core => Sys2Proof.Machine.execIssueSelect core s
  | .yieldWake h => Sys2Proof.Machine.execYieldWake h s
  | .storeDrain h m => Sys2Proof.Machine.execStoreDrain h m s
  | .waitvReread h => Sys2Proof.Machine.execWaitvReread h s
  | .noProducerTrap core => Sys2Proof.Machine.execNoProducerTrap core s
  | .taskStart core => Sys2Proof.Machine.execTaskStart core s
  | .taskComplete core token => Sys2Proof.Machine.execTaskComplete core token s
  | .engineGranuleWrite core matrix token g => Sys2Proof.Machine.execEngineGranuleWrite core matrix token g s
  | .copyComplete core token => Sys2Proof.Machine.execCopyComplete core token s
  | .copyFail core token => Sys2Proof.Machine.execCopyFail core token s
  | .dispenserAnswer h => Sys2Proof.Machine.execDispenserAnswer h s
  | .queueDoorbell qid value => Sys2Proof.Machine.execQueueDoorbell qid value s
  | .packetFetch slot => Sys2Proof.Machine.execPacketFetch slot s
  | .slotFetchResume slot => Sys2Proof.Machine.execSlotFetchResume slot s
  | .slotGrant slot => Sys2Proof.Machine.execSlotGrant slot s
  | .verdictApply slot => Sys2Proof.Machine.execVerdictApply slot s
  | .refusalWordWrite slot => Sys2Proof.Machine.execRefusalWordWrite slot s
  | .queueErrorEventPost slot => Sys2Proof.Machine.execQueueErrorEventPost slot s
  | .launchEnd slot => Sys2Proof.Machine.execLaunchEnd slot s
  | .workgroupEnd core => Sys2Proof.Machine.execWorkgroupEnd core s
  | .sliceExpiry slot => Sys2Proof.Machine.execSliceExpiry slot s
  | .preemptDelivery slot core => Sys2Proof.Machine.execPreemptDelivery slot core s
  | .workgroupArm core => Sys2Proof.Machine.execWorkgroupArm core s
  | .deferExpiry core => Sys2Proof.Machine.execDeferExpiry core s
  | .deadlineExpiry core => Sys2Proof.Machine.execDeadlineExpiry core s
  | .launchSaved slot => Sys2Proof.Machine.execLaunchSaved slot s
  | .turnReadyReceive msg => Sys2Proof.Machine.execTurnReadyReceive msg s
  | .msctlSend => Sys2Proof.Machine.execMsctlSend s
  | .demotionRequest ctx va => Sys2Proof.Machine.execDemotionRequest ctx va s
  | .priRequest rid pasid va => Sys2Proof.Machine.execPriRequest rid pasid va s
  | .atsRequest rid pasid va => Sys2Proof.Machine.execAtsRequest rid pasid va s
  | .migrationFrameTake idx => Sys2Proof.Machine.execMigrationFrameTake idx s
  | .migrationComplete idx => Sys2Proof.Machine.execMigrationComplete idx s
  | .migrationFail idx => Sys2Proof.Machine.execMigrationFail idx s
  | .frameAppend who fast frame => Sys2Proof.Machine.execFrameAppend who fast frame s
  | .hbmBurst pa beats write => Sys2Proof.Machine.execHbmBurst pa beats write s
  | .hbmAlert sub tag => Sys2Proof.Machine.execHbmAlert sub tag s
  | .historyRetire sub => Sys2Proof.Machine.execHistoryRetire sub s
  | .cxlDataResponse pa marks => Sys2Proof.Machine.execCxlDataResponse pa marks s
  | .uncorrectableError loc code addr => Sys2Proof.Machine.execUncorrectableError loc code addr s
  | .correctedError loc => Sys2Proof.Machine.execCorrectedError loc s
  | .ioTableScrub => Sys2Proof.Machine.execIoTableScrub s
  | .selfTestDone seq pass => Sys2Proof.Machine.execSelfTestDone seq pass s
  | .contextKill ctx code => Sys2Proof.Machine.execContextKill ctx code s
  | .coreRestart core => Sys2Proof.Machine.execCoreRestart core s
  | .coreRetire core => Sys2Proof.Machine.execCoreRetire core s
  | .errorLogConsume v => Sys2Proof.Machine.execErrorLogConsume v s
  | .keySlotLoad slot kind owner => Sys2Proof.Machine.execKeySlotLoad slot kind owner s
  | .keyDataWrite v => Sys2Proof.Machine.execKeyDataWrite v s
  | .guiltLimitWrite v => Sys2Proof.Machine.execGuiltLimitWrite v s
  | .guiltClear ctx => Sys2Proof.Machine.execGuiltClear ctx s
  | .contextRunWrite ctx run => Sys2Proof.Machine.execContextRunWrite ctx run s
  | .stageAdvance => Sys2Proof.Machine.execStageAdvance s
  | .powerLimitWrite v => Sys2Proof.Machine.execPowerLimitWrite v s
  | .powerSample watts => Sys2Proof.Machine.execPowerSample watts s
  | .thermalCap temp => Sys2Proof.Machine.execThermalCap temp s
  | .thermalTrip temp => Sys2Proof.Machine.execThermalTrip temp s
  | .deviceReset => Sys2Proof.Machine.execDeviceReset s
  | .contextRecordWrite ctx rec => Sys2Proof.Machine.execContextRecordWrite ctx rec s
  | .doorbellMapWrite idx entry => Sys2Proof.Machine.execDoorbellMapWrite idx entry s
  | .irqBindingWrite idx entry => Sys2Proof.Machine.execIrqBindingWrite idx entry s
  | .invalidationRequest kind addr ctx => Sys2Proof.Machine.execInvalidationRequest kind addr ctx s
  | .controlSpaceWrite who off size v => Sys2Proof.Machine.execControlSpaceWrite who off size v s
  | .doorbellSend idx => Sys2Proof.Machine.execDoorbellSend idx s
  | .endpointRequest r => Sys2Proof.Machine.execEndpointRequest r s
  | .peerInboundRequest port r => Sys2Proof.Machine.execPeerInboundRequest port r s
  | .msixArrival r => Sys2Proof.Machine.execMsixArrival r s
  | .atsInvalidationTimeout rid => Sys2Proof.Machine.execAtsInvalidationTimeout rid s
  | .linkTrain port rate cxl md => Sys2Proof.Machine.execLinkTrain port rate cxl md s
  | .linkDown port window => Sys2Proof.Machine.execLinkDown port window s
  | .messageTake ring => Sys2Proof.Machine.execMessageTake ring s
  | .messageDelivery idx => Sys2Proof.Machine.execMessageDelivery idx s
  | .messageRetry ctx => Sys2Proof.Machine.execMessageRetry ctx s
  | .virtioNotify fn queue => Sys2Proof.Machine.execVirtioNotify fn queue s
  | .hostRequest r => Sys2Proof.Machine.execHostRequest r s
  | .spdmRequestPost conn req => Sys2Proof.Machine.execSpdmRequestPost conn req s
  | .transportReplySend conn => Sys2Proof.Machine.execTransportReplySend conn s
  | .getVersion conn => Sys2Proof.Machine.execGetVersion conn s
  | .getCapabilities conn => Sys2Proof.Machine.execGetCapabilities conn s
  | .negotiateAlgorithms conn => Sys2Proof.Machine.execNegotiateAlgorithms conn s
  | .getDigests conn => Sys2Proof.Machine.execGetDigests conn s
  | .getCertificate conn => Sys2Proof.Machine.execGetCertificate conn s
  | .challenge conn => Sys2Proof.Machine.execChallenge conn s
  | .getMeasurements conn => Sys2Proof.Machine.execGetMeasurements conn s
  | .spdmErrorReply conn => Sys2Proof.Machine.execSpdmErrorReply conn s
  | .unassignedOpcode first => Sys2Proof.Machine.execUnassignedOpcode first s
  | .workgroupStart core => Sys2Proof.Machine.execWorkgroupStart core s
  | .systemCoreMemoryAccess r => Sys2Proof.Machine.execSystemCoreMemoryAccess r s
  | .atsInvalidationCompletion idx => Sys2Proof.Machine.execAtsInvalidationCompletion idx s
  | .peerReadCompletion idx data => Sys2Proof.Machine.execPeerReadCompletion idx data s
  | .stackRetrainingStart stack => Sys2Proof.Machine.execStackRetrainingStart stack s
  | .stackRetrainingEnd stack => Sys2Proof.Machine.execStackRetrainingEnd stack s
  | .thermalCapLift temp => Sys2Proof.Machine.execThermalCapLift temp s

end Sys2Proof.Machine
end

