-- ==== Sys2Proof/Machine/Idle.lean ====
section
/-! DEFINITION. What moves next: the schedule held as plain data in State (log 2), and the events that units bring about
on their own when nothing else can move. -/

namespace Sys2Proof.Machine

/-- What the next step is. -/
inductive Choice where
  | agent (a : Agent) (s : State)
  | event (e : Instr) (s : State)
  | skip (s : State)
  | none
  deriving DecidableEq, Repr


/-! ## What a unit does on its own -/

/-- The harts of an agent. -/
def agentHarts : Agent → List Hart
  | .user c t => [.user c t]
  | .sup c => allLanes.map (Hart.sup c)
  | .mgmt => [.mgmt]

/-- Every hart whose thread is not as at reset. -/
def State.harts (s : State) : List Hart := Hart.mgmt :: s.cores.flatMap (fun p => p.2.threads.map (fun t => hartOf p.1 t.1))

/-- The moves of the stores of a hart: out of its queue, or home. -/
def State.drainMoves (s : State) (h : Hart) : List Instr :=
  (if s.canLeave h then [.storeDrain h .leave] else [])
    ++ (List.range (s.order h).length).map (fun i => .storeDrain h (.home i))

/-- What the units of one core can do next. -/
def State.coreMoves (s : State) (c : Nat) : List Instr :=
  let k := s.core c
  [.taskStart c] ++ k.tasks.map (fun t => .taskComplete c t.token) ++ k.ops.map (fun o => .copyComplete c o.token)
    ++ k.ops.map (fun o => .copyFail c o.token) ++ [.workgroupArm c, .workgroupStart c, .workgroupEnd c, .noProducerTrap c]

/-- What the scheduler can do next for one slot. -/
def State.slotMoves (s : State) (k : Nat) : List Instr :=
  let held := match (s.slot k).grant with
    | some g => g.held
    | none => []
  [.slotFetchResume k, .packetFetch k, .slotGrant k] ++ held.map (fun c => .preemptDelivery k c)
    ++ (if (s.slot k).expired then [.sliceExpiry k] else []) ++ [.verdictApply k, .refusalWordWrite k, .queueErrorEventPost k, .launchSaved k, .launchEnd k]

/-- What a parked thread waits for that a unit can answer. -/
def State.wakeMoves (s : State) (h : Hart) : List Instr :=
  match (s.thread h).run with
  | .parked (.tdisp _) => [.dispenserAnswer h]
  | .parked .yield => [.yieldWake h]
  | .parked (.waitv _) => [.waitvReread h]
  | .parked (.page ..) => [.waitvReread h]
  | _ => []

/-- The fetches of agents that meet a page which is not resident (R52). -/
def State.fetchMoves (s : State) : List Instr :=
  ((Agent.mgmt :: s.cores.flatMap (fun p => s.readyOn p.1)).filter (fun a => s.agentReady a && match (s.fetch (agentHart a)).1 with
    | .held _ => true
    | _ => false)).map (.instructionFetch ·)

/-- What the memory controllers can do next: serve a request that waits, write from a queue, retire from a full history (R259, R260,
R392). -/
def State.dramMoves (s : State) : List Instr :=
  s.bursts.map (fun r => .hbmBurst (BitVec.ofNat 64 r.pa) (beatsOf r.size) r.write)
    ++ s.errors.subs.flatMap (fun p => (if p.2.full then [.historyRetire p.1] else [])
      ++ p.2.writes.map (fun w => .hbmBurst (BitVec.ofNat 64 w.pa) (beatsOf w.size) true))

/-- The moves that units could make, the current agent's stores first. -/
def State.moves (s : State) : List Instr :=
  (agentHarts s.cur).flatMap s.drainMoves ++ s.harts.flatMap s.drainMoves
    ++ s.io.retraining.map (fun p => .stackRetrainingEnd p.1)
    ++ (List.range s.io.migs.length).flatMap (fun i => [.migrationFrameTake i, .migrationComplete i, .migrationFail i])
    ++ s.cores.flatMap (fun p => s.coreMoves p.1)
    ++ s.harts.flatMap s.wakeMoves
    ++ (List.range s.io.proxy.length).map (fun i => .doorbellSend i)
    ++ s.io.ringW.map (fun p => .messageTake p.1) ++ (List.range s.io.messages.length).map (fun i => .messageDelivery i)
    ++ s.sched.slots.flatMap (fun p => s.slotMoves p.1)
    ++ [.transportReplySend .doe, .transportReplySend .i3c] ++ s.fetchMoves
    ++ (s.cores.filter (fun p => !p.2.loads.isEmpty || !p.2.stored.isEmpty)).map (fun p => .issueSelect p.1)
    ++ s.dramMoves

/-- Does an event change anything now? -/
def State.changes (s : State) (e : Instr) : Bool :=
  match exec e s with
  | .next t => t ≠ s
  | _ => false

/-- The first event that some unit can bring about now. -/
def State.idleEvent (s : State) : Option Instr := s.moves.find? s.changes

/-! ## Who issues next: the management core, or a clk of a compute core (R285) -/

/-- The issuer that an agent belongs to: a compute core, or the management core. -/
def issuerOf : Agent → Option Nat
  | .user c _ => some c
  | .sup c => some c
  | .mgmt => none

/-- Has an issuer something to issue? -/
def State.issuerReady (s : State) : Option Nat → Bool
  | none => s.agentReady .mgmt
  | some c => !(s.selectGroups c).isEmpty

/-- The turn of an issuer: the management core issues, a compute core selects for its next clk. -/
def State.turnOf (s : State) : Option Nat → Choice
  | none => .agent .mgmt s
  | some c => .event (.issueSelect c) s

/-- The issuers, the management core first. -/
def State.issuers (s : State) : List (Option Nat) := none :: s.cores.map (fun p => some p.1)

/-- The first issuer that has something to issue, and the first other one after the current agent's, else before it. -/
def State.firstIssuer (s : State) : Option (Option Nat) := s.issuers.find? s.issuerReady
def State.otherIssuer (s : State) : Option (Option Nat) :=
  let me := issuerOf s.cur
  let later := (s.issuers.dropWhile (· ≠ me)).drop 1
  (later ++ s.issuers.filter (· ≠ me)).find? s.issuerReady

def State.choose (s : State) : Choice :=
  match s.issueQ with
  | a :: rest => if s.agentReady a then .agent a { s with issueQ := rest } else .skip { s with issueQ := rest }
  | [] =>
    match s.agenda with
    | e :: rest => if e.bits.isNone then .event e { s with agenda := rest } else .skip { s with agenda := rest }
    | [] =>
      match (if s.stalled then s.idleEvent else Option.none) with
      | some e => .event e s
      | none =>
        let me := issuerOf s.cur
        match (if s.stalled then s.otherIssuer else if s.issuerReady me then some me else s.firstIssuer) with
        | some i => s.turnOf i
        | none => match s.idleEvent with
          | some e => .event e s
          | none => if s.issuerReady me then s.turnOf me else .none

/-- The agent that `choose` runs once no event is pending: for placing an instruction where it fetches. -/
def State.nextAgent (s : State) : Agent :=
  match s.issueQ.find? s.agentReady with
  | some a => a
  | none => if s.agentReady s.cur then s.cur else s.firstReady.getD .mgmt

/-- Store an instruction where the next fetch reads it, and let that fetch be the next step. -/
def State.placeNext (s : State) (bs : List Byte) : State :=
  let a := s.nextAgent
  let h := agentHart a
  ({ s with issueQ := [a], agenda := [] }).placeCode h (s.pc h).toNat bs

end Sys2Proof.Machine
end

