-- ==== Sys2Proof/Machine/Step.lean ====
section
/-! DEFINITION. One step of the module: an agent's next instruction, or the next event of the agenda. -/

namespace Sys2Proof.Machine

/-- Fetch and run the next instruction of an agent (R51, R52). -/
def stepAgent (s : State) (a : Agent) : Host.Outcome State Fault Refusal :=
  match (s.startAgent a).fetch (agentHart a) with
  | (.instr i, s') => exec i s'
  | (.undecodable w, s') => exec (.unassignedOpcode w) s'
  | (.trap c v, s') => .next (s'.fetchTrap a c v)
  | (.held e, s') => .next (s'.holdFetch a e)

/-- What moves next: the agents already selected, then the agenda, then the current agent's core with its next clk (or the
management core) while it has something to issue, then another, then an event that a unit brings about on its own. Where nothing can
move the module waits as it is. -/
def step (s : State) : Host.Outcome State Fault Refusal :=
  match s.choose with
  | .agent a s' => stepAgent s' a
  | .event e s' => exec e s'
  | .skip s' => .next s'
  | .none => .next s

/-- `s` with an instruction, `nbits` wide in the table and zeros above, stored where the next fetch reads it. -/
def State.withFetchWord (s : State) (nbits w : Nat) : State := s.placeNext (bytesOf 12 (w % 2 ^ nbits))

end Sys2Proof.Machine
end

