-- ==== Sys2Proof/Safety.lean ====
section
/-! DEFINITION. The terms in which claims about the machine are stated: whose turn it is, when the fields of an instruction raise
no trap, the state after an instruction that completes, parks or traps, what each shape of instruction computes, and the
invariants that every step keeps. -/

namespace Sys2Proof.Claims
open Sys2Proof.Machine

/-- It is the turn of hart `h`, a user thread or the management core. -/
def Turn (s : State) (h : Hart) : Prop := s.cur = Hart.agent h ∧ ∀ c l, h ≠ .sup c l

/-- It is the turn of user thread `t` of core `c`. -/
def UserTurn (s : State) (c t : Nat) : Prop := s.cur = .user c t

/-- It is the turn of the management core. -/
def MgmtTurn (s : State) : Prop := s.cur = .mgmt

/-- No trap arises from naming these fields: registers in range, pairs and groups aligned, latches not empty (R31, R33, R34). -/
def Named (s : State) (h : Hart) (us : List OpUse) : Prop := opCheck s h us = none

/-- No field of a list is poisoned. -/
def Clean (ps : List (Bool × Nat)) : Prop := ∀ p ∈ ps, p.1 = false

/-- The address after instruction `i` of hart `h`. -/
def nextPc (s : State) (h : Hart) (i : Instr) : BitVec 64 := s.pc h + BitVec.ofNat 64 i.len

/-- `s'`, with hart `h` past its instruction `i` of state `s`. -/
def done (h : Hart) (i : Instr) (s s' : State) : State :=
  s'.modThread h (fun th => { th with pc := nextPc s h i, age := 0 })

/-- `s'`, with hart `h` at `p`. -/
def jumped (h : Hart) (s : State) (s' : State) (p : BitVec 64) : State :=
  { s'.modThread h (fun th => { th with pc := p, age := 0 }) with stalled := decide (p.toNat ≤ (s.pc h).toNat) }

/-- `s'`, with hart `h` parked at its instruction `i` of state `s`, in wait `w` (R297). -/
def parkedAt (h : Hart) (i : Instr) (s s' : State) (w : Wait) : State :=
  s'.modThread h (fun th => { th.park w (nextPc s h i) with age := 0 })

/-- It is the turn of the supervisor group of core `c`, and none of its lanes has done its instruction yet. -/
def GroupTurn (s : State) (c : Nat) : Prop := s.cur = .sup c ∧ (s.core c).lanesDone = []

/-- `s'`, with the supervisor group of core `c` past its instruction `i` of state `s`. -/
def groupDone (c : Nat) (i : Instr) (s s' : State) : State :=
  { s'.modCore c (fun k => { k with supPc := (s.core c).supPc + BitVec.ofNat 64 i.len, lanesDone := [] }) with
    stalled := decide (((s.core c).supPc + BitVec.ofNat 64 i.len).toNat ≤ (s.core c).supPc.toNat) }

/-- What lanes 0 … n − 1 of the group of core `c` do, one after the other. -/
def lanesState (eff : Hart → State → State) (c : Nat) (s : State) (n : Nat) : State :=
  (List.range n).foldl (fun s l => eff (.sup c l) s) s

/-! ## Results of one word -/

/-- What an instruction of one 32-bit result does: its fields, the sources it reads, its value, the flags it raises (none:
it raises none), and the poison of its result. -/
structure WordResult where
  f : Fields
  uses : List OpUse
  val : Word
  flags : Option FlagSet
  poison : Bool

/-- The state after the result of a word. -/
def WordResult.state (r : WordResult) (h : Hart) (s : State) : State :=
  (match r.flags with
    | some fl => s.raise h fl
    | none => s).put32 h r.f.dest r.val r.poison

def one (s : State) (h : Hart) (f : Fields) (op : Word → Word × FlagSet) : Option WordResult :=
  let us : List OpUse := [(f.b, .w32)]
  some ⟨f, us, (op (s.op32 h f.b)).1, some (op (s.op32 h f.b)).2, s.opsPoison h us⟩
def two (s : State) (h : Hart) (f : Fields) (ew : EW) (op : Word → Word → Word × FlagSet) : Option WordResult :=
  let us : List OpUse := [(f.a, .w32), (f.b, .w32)]
  let r := op (s.opInt h ew f.a) (s.opInt h ew f.b)
  some ⟨f, us, r.1, some r.2, s.opsPoison h us⟩
def three (s : State) (h : Hart) (f : Fields) (op : Word → Word → Word → Word × FlagSet) : Option WordResult :=
  let us : List OpUse := [(f.a, .w32), (f.b, .w32), (f.c, .w32)]
  let r := op (s.opInt h .w32 f.a) (s.opInt h .w32 f.b) (s.op32 h f.c)
  some ⟨f, us, r.1, some r.2, s.opsPoison h us⟩
def sel (s : State) (h : Hart) (f : Fields) : Option WordResult :=
  let chosen := if s.op32 h f.c ≠ 0 then f.a else f.b
  some ⟨f, [(f.a, .w32), (f.b, .w32), (f.c, .w32)], s.op32 h chosen, none, s.opPoison h f.c .w32 || s.opPoison h chosen .w32⟩

/-- A packed operation of R138, R139 or R146, element by element. -/
def packed (m : IntMod) (el : IntMod → Nat → Nat → Int × Bool) : Word → Word → Word × FlagSet := zipEl (ewWidth m.ew) (el m)

/-- Table 6-1: the integer instructions of one word result. -/
def intWord (s : State) (h : Hart) : Instr → Option WordResult
  | .mov f => one s h f.fields (fun b => (b, 0))
  | .movC f => one s h f.fields (fun b => (b, 0))
  | .movW f => one s h f.fields (fun b => (b, 0))
  | .add f m => two s h f.fields m.ew (packed m addEl)
  | .addC f => two s h f.fields .w32 (packed {} addEl)
  | .addW f => two s h f.fields .w32 (packed {} addEl)
  | .sub f m => two s h f.fields m.ew (packed m subEl)
  | .subC f => two s h f.fields .w32 (packed {} subEl)
  | .subW f => two s h f.fields .w32 (packed {} subEl)
  | .min f m => two s h f.fields m.ew (packed m minEl)
  | .minC f => two s h f.fields .w32 (packed {} minEl)
  | .minW f => two s h f.fields .w32 (packed {} minEl)
  | .minUW f => two s h f.fields .w32 (packed { u := true } minEl)
  | .max f m => two s h f.fields m.ew (packed m maxEl)
  | .maxC f => two s h f.fields .w32 (packed {} maxEl)
  | .maxW f => two s h f.fields .w32 (packed {} maxEl)
  | .maxUW f => two s h f.fields .w32 (packed { u := true } maxEl)
  | .mul f => two s h f.fields .w32 (fun a b => (a * b, 0))
  | .mulC f => two s h f.fields .w32 (fun a b => (a * b, 0))
  | .mulW f => two s h f.fields .w32 (fun a b => (a * b, 0))
  | .mulh f m => two s h f.fields .w32 (fun a b => (mulhOp m.u a b, 0))
  | .mulhW f => two s h f.fields .w32 (fun a b => (mulhOp false a b, 0))
  | .mulhUW f => two s h f.fields .w32 (fun a b => (mulhOp true a b, 0))
  | .mad f => three s h f.fields (fun a b c => (a * b + c, 0))
  | .abs f m => one s h f.fields (absOp m)
  | .absW f => one s h f.fields (absOp {})
  | .neg f m => one s h f.fields (negOp m)
  | .negW f => one s h f.fields (negOp {})
  | .cmp f m => two s h f.fields .w32 (fun a b => (cmpOp m a b, 0))
  | .cmpEqW f => two s h f.fields .w32 (fun a b => (if a = b then 1 else 0, 0))
  | .cmpNeW f => two s h f.fields .w32 (fun a b => (if a ≠ b then 1 else 0, 0))
  | .cmpLtW f => two s h f.fields .w32 (fun a b => (if a.toInt < b.toInt then 1 else 0, 0))
  | .cmpGeW f => two s h f.fields .w32 (fun a b => (if b.toInt ≤ a.toInt then 1 else 0, 0))
  | .cmpLtUW f => two s h f.fields .w32 (fun a b => (if a.toNat < b.toNat then 1 else 0, 0))
  | .cmpGeUW f => two s h f.fields .w32 (fun a b => (if b.toNat ≤ a.toNat then 1 else 0, 0))
  | .sel f => sel s h f.fields
  | .and f => two s h f.fields .w32 (fun a b => (a &&& b, 0))
  | .andC f => two s h f.fields .w32 (fun a b => (a &&& b, 0))
  | .andW f => two s h f.fields .w32 (fun a b => (a &&& b, 0))
  | .or f => two s h f.fields .w32 (fun a b => (a ||| b, 0))
  | .orC f => two s h f.fields .w32 (fun a b => (a ||| b, 0))
  | .orW f => two s h f.fields .w32 (fun a b => (a ||| b, 0))
  | .xor f => two s h f.fields .w32 (fun a b => (a ^^^ b, 0))
  | .xorC f => two s h f.fields .w32 (fun a b => (a ^^^ b, 0))
  | .xorW f => two s h f.fields .w32 (fun a b => (a ^^^ b, 0))
  | .andn f => two s h f.fields .w32 (fun a b => (a &&& ~~~b, 0))
  | .andnW f => two s h f.fields .w32 (fun a b => (a &&& ~~~b, 0))
  | .shl f m => two s h f.fields m.ew (packed m shlEl)
  | .shlC f => two s h f.fields .w32 (packed {} shlEl)
  | .shlW f => two s h f.fields .w32 (packed {} shlEl)
  | .shr f m => two s h f.fields m.ew (packed m shrEl)
  | .shrC f => two s h f.fields .w32 (packed {} shrEl)
  | .shrW f => two s h f.fields .w32 (packed {} shrEl)
  | .sar f m => two s h f.fields m.ew (packed m sarEl)
  | .sarC f => two s h f.fields .w32 (packed {} sarEl)
  | .sarW f => two s h f.fields .w32 (packed {} sarEl)
  | .rot f => two s h f.fields .w32 (fun a b => (a.rotateLeft (b.toNat % 32), 0))
  | .rotW f => two s h f.fields .w32 (fun a b => (a.rotateLeft (b.toNat % 32), 0))
  | .fsh f => three s h f.fields (fun a b c => (((pairOf a b) >>> (c.toNat % 64)).setWidth 32, 0))
  | .bfx f m => two s h f.fields .w32 (fun a b => (bfxOp m.u a b, 0))
  | .bfi f => three s h f.fields (fun a b c => (bfiOp a b c, 0))
  | .popc f => one s h f.fields (fun b => (popcOp b, 0))
  | .popcW f => one s h f.fields (fun b => (popcOp b, 0))
  | .clz f => one s h f.fields (fun b => (clzOp b, 0))
  | .clzW f => one s h f.fields (fun b => (clzOp b, 0))
  | .ctz f => one s h f.fields (fun b => (ctzOp b, 0))
  | .ctzW f => one s h f.fields (fun b => (ctzOp b, 0))
  | .brev f => one s h f.fields (fun b => (b.reverse, 0))
  | .brevW f => one s h f.fields (fun b => (b.reverse, 0))
  | .perm f => three s h f.fields (fun a b c => (permOp a b c, 0))
  | .dot4 f m => three s h f.fields (dot4Op m)
  | _ => none

/-- What an instruction of one pair result does. -/
structure PairResult where
  f : Fields
  uses : List OpUse
  val : Pair

def wide3 (s : State) (h : Hart) (f : Fields) (op : Word → Word → Word → Pair) : Option PairResult :=
  some ⟨f, [(f.a, .w32), (f.b, .w32), (f.c, .w32)], op (s.op32 h f.a) (s.op32 h f.b) (s.op32 h f.c)⟩
def wide2 (s : State) (h : Hart) (f : Fields) (op : Pair → Pair → Pair) : Option PairResult :=
  some ⟨f, [(f.a, .pair), (f.b, .pair)], op (s.opPair h f.a) (s.opPair h f.b)⟩
def widen (u : Bool) (b : Word) : Pair := if u then b.setWidth 64 else b.signExtend 64

/-- Table 6-1: the integer instructions of a pair result. The pair of ADDC and SUBB holds the sum or difference below the
carry or borrow (R139). -/
def intPair (s : State) (h : Hart) : Instr → Option PairResult
  | .li f m => some ⟨f.fields, [(f.fields.b, .w32)], widen m.u (s.op32 h f.fields.b)⟩
  | .addc f => wide3 s h f.fields (fun a b c => BitVec.ofNat 64 (a.toNat + b.toNat + c.toNat % 2))
  | .subb f => wide3 s h f.fields (fun a b c =>
      pairOf (a - b - BitVec.ofNat 32 (c.toNat % 2)) (if a.toNat < b.toNat + c.toNat % 2 then 1 else 0))
  | .madw f m => some ⟨f.fields, [(f.fields.a, .w32), (f.fields.b, .w32), (f.fields.c, .pair)],
      madwOp m.u (s.op32 h f.fields.a) (s.op32 h f.fields.b) (s.opPair h f.fields.c)⟩
  | .add64 f => wide2 s h f.fields (· + ·)
  | .add64W f => wide2 s h f.fields (· + ·)
  | .sub64 f => wide2 s h f.fields (· - ·)
  | .lea f m => some ⟨f.fields, [(f.fields.a, .pair), (f.fields.b, .w32)],
      s.opPair h f.fields.a + widen m.u (s.op32 h f.fields.b)⟩
  | .leaW f => some ⟨f.fields, [(f.fields.a, .pair), (f.fields.b, .w32)],
      s.opPair h f.fields.a + (s.op32 h f.fields.b).signExtend 64⟩
  | _ => none

/-! ## Floating point -/

/-- An element-wise operation of two packed operands, in the direction and under the FTZ of the thread (R96, R155). -/
def fl2 (s : State) (h : Hart) (f : Fields) (m : FMod) (el : FloatFmt → Dir → Bool → Nat → Nat → Nat × FlagSet) :
    Option WordResult :=
  let us : List OpUse := [(f.a, .w32), (f.b, .w32)]
  let ft := pkFmt m.pk
  let r := mapEl ft.width (pkCap m.pk) (fun i => el ft (rmDir m.rm (s.fmode h)) (ftzOf (s.fmode h))
    (elem ft.width (s.opFloat h m.pk f.a) i) (elem ft.width (s.opFloat h m.pk f.b) i))
  some ⟨f, us, r.1, some r.2, s.opsPoison h us⟩

def fl3 (s : State) (h : Hart) (f : Fields) (m : FMod) : Option WordResult :=
  let us : List OpUse := [(f.a, .w32), (f.b, .w32), (f.c, .w32)]
  let ft := pkFmt m.pk
  let r := mapEl ft.width (pkCap m.pk) (fun i => ffmaEl ft (rmDir m.rm (s.fmode h)) (ftzOf (s.fmode h))
    (elem ft.width (s.opFloat h m.pk f.a) i) (elem ft.width (s.opFloat h m.pk f.b) i) (elem ft.width (s.opFloat h m.pk f.c) i))
  some ⟨f, us, r.1, some r.2, s.opsPoison h us⟩

def minMaxEl (max prop : Bool) : FloatFmt → Dir → Bool → Nat → Nat → Nat × FlagSet := fun ft _ ftz => ft.minMax ftz max prop

/-- FCMP of one element: 1 or all ones where the condition holds (R157). -/
def fcmpEl (c : Cond) (ones : Bool) : FloatFmt → Dir → Bool → Nat → Nat → Nat × FlagSet := fun ft _ ftz a b =>
  (if (ft.compare ftz c a b).1 then (if ones then 2 ^ ft.width - 1 else 1) else 0, (ft.compare ftz c a b).2)

def cvtWord (s : State) (h : Hart) (f : Fields) (m : CvtMod) : Option WordResult :=
  let us : List OpUse := [(f.b, .w32)]
  let r := mapEl (numFmt m.df).width (Nat.min (fmtCap m.df) (fmtCap m.sf)) (fun i =>
    convert (rmDir m.rm (s.fmode h)) (ftzOf (s.fmode h)) m.sat (numFmt m.sf) (numFmt m.df)
      (elem (numFmt m.sf).width (s.opNum h (numFmt m.sf) (fmtCap m.sf) f.b) i))
  some ⟨f, us, r.1, some r.2, s.opsPoison h us⟩

def spWord (s : State) (h : Hart) (f : Fields) (fn : SpFn) : Option WordResult :=
  let us : List OpUse := [(f.b, .w32)]
  let r := spCode fn (ftzOf (s.fmode h)) (s.opFloat h .f32 f.b).toNat
  some ⟨f, us, BitVec.ofNat 32 r.1, some r.2, s.opsPoison h us⟩

/-- Table 7-1 and R161: the floating-point instructions and special functions. -/
def floatWord (s : State) (h : Hart) : Instr → Option WordResult
  | .fadd f m => fl2 s h f.fields m faddEl
  | .fsub f m => fl2 s h f.fields m fsubEl
  | .fmul f m => fl2 s h f.fields m fmulEl
  | .ffma f m => fl3 s h f.fields m
  | .fmin f m => fl2 s h f.fields m (minMaxEl false false)
  | .fmax f m => fl2 s h f.fields m (minMaxEl true false)
  | .fminp f m => fl2 s h f.fields m (minMaxEl false true)
  | .fmaxp f m => fl2 s h f.fields m (minMaxEl true true)
  | .fcmp f m => fl2 s h f.fields m (fcmpEl m.cond m.ones)
  | .fclass f m =>
    let us : List OpUse := [(f.fields.b, .w32)]
    let ft := pkFmt m.pk
    some ⟨f.fields, us, (mapEl ft.width (pkCap m.pk) (fun i =>
      (2 ^ ft.classBit (elem ft.width (s.opFloat h m.pk f.fields.b) i), 0))).1, none, s.opsPoison h us⟩
  | .frnd f m =>
    let us : List OpUse := [(f.fields.b, .w32)]
    let nf := numFmt m.df
    let r := mapEl nf.width (fmtCap m.df) (fun i => match nf with
      | .float ft => ft.roundIntegral (rmDir m.rm (s.fmode h)) (ftzOf (s.fmode h))
          (elem nf.width (s.opNum h nf (fmtCap m.df) f.fields.b) i)
      | .int .. => (elem nf.width (s.opNum h nf (fmtCap m.df) f.fields.b) i, 0))
    some ⟨f.fields, us, r.1, some r.2, s.opsPoison h us⟩
  | .cvt f m => cvtWord s h f.fields m
  | .faddC f => fl2 s h f.floatFields {} faddEl
  | .fsubC f => fl2 s h f.floatFields {} fsubEl
  | .fmulC f => fl2 s h f.floatFields {} fmulEl
  | .fmaxC f => fl2 s h f.floatFields {} (minMaxEl true false)
  | .faddW f => fl2 s h f.fields {} faddEl
  | .fsubW f => fl2 s h f.fields {} fsubEl
  | .fmulW f => fl2 s h f.fields {} fmulEl
  | .fminW f => fl2 s h f.fields {} (minMaxEl false false)
  | .fmaxW f => fl2 s h f.fields {} (minMaxEl true false)
  | .faddBf16x2W f => fl2 s h f.fields { pk := .bf16x2 } faddEl
  | .faddF16x2W f => fl2 s h f.fields { pk := .f16x2 } faddEl
  | .fmulBf16x2W f => fl2 s h f.fields { pk := .bf16x2 } fmulEl
  | .fmulF16x2W f => fl2 s h f.fields { pk := .f16x2 } fmulEl
  | .fcmpLtW f => fl2 s h f.fields {} (fcmpEl .lt false)
  | .fcmpLeW f => fl2 s h f.fields {} (fcmpEl .le false)
  | .fcmpEqW f => fl2 s h f.fields {} (fcmpEl .eq false)
  | .cvtF32I32W f => cvtWord s h f.fields { df := .f32, sf := .i32 }
  | .cvtI32F32W f => cvtWord s h f.fields { df := .i32, sf := .f32 }
  | .frcp f => spWord s h f.fields .rcp
  | .frsq f => spWord s h f.fields .rsq
  | .fsqrt f => spWord s h f.fields .sqrt
  | .fexp2 f => spWord s h f.fields .exp2
  | .flog2 f => spWord s h f.fields .log2
  | .fsint f => spWord s h f.fields .sint
  | .fcost f => spWord s h f.fields .cost
  | .frcpW f => spWord s h f.fields .rcp
  | .frsqW f => spWord s h f.fields .rsq
  | .fsqrtW f => spWord s h f.fields .sqrt
  | .fexp2W f => spWord s h f.fields .exp2
  | .flog2W f => spWord s h f.fields .log2
  | _ => none

/-! ## Cross-lane -/

/-- What a cross-lane instruction reads: its fields, the widths of a and of its destination, and whether it has a b. -/
structure CrossLane where
  f : Fields
  aw : OpW
  dw : OpW
  hasB : Bool

def crossLane : Instr → Option CrossLane
  | .shfl f _ => some ⟨f.fields, .w32, .w32, true⟩
  | .bcst f => some ⟨f.fields, .pair, .pair, true⟩
  | .vote f m => some ⟨f.fields, .w32, if m = .ballot then .pair else .w32, false⟩
  | .lred f _ => some ⟨f.fields, .w32, .w32, false⟩
  | .lscan f _ => some ⟨f.fields, .w32, .w32, false⟩
  | .match f => some ⟨f.fields, .w32, .pair, false⟩
  | .elect f => some ⟨f.fields, .w32, .w32, false⟩
  | _ => none

def CrossLane.uses (x : CrossLane) : List OpUse :=
  [(x.f.a, x.aw)] ++ (if x.hasB then [(x.f.b, .w32)] else []) ++ [(x.f.c, .pair)] ++ x.f.dst x.dw

/-- One lane alone in its group (R169, R170): the result of each instruction from its own a. `lane` is the lane, `xw` its
a as a word, `x` as a pair. -/
def aloneResult (lane : Nat) (xw : Word) (x : Pair) (fmode : BitVec 3) : Instr → Pair × Bool × FlagSet
  | .shfl .. => (xw.setWidth 64, true, 0)
  | .bcst _ => (x, true, 0)
  | .vote _ .any => (if xw ≠ 0 then 1 else 0, true, 0)
  | .vote _ .all => (if xw ≠ 0 then 1 else 0, true, 0)
  | .vote _ .ballot => (if xw ≠ 0 then BitVec.ofNat 64 (2 ^ lane) else 0, true, 0)
  | .match _ => (BitVec.ofNat 64 (2 ^ lane), true, 0)
  | .elect _ => (if xw ≠ 0 then 1 else 0, true, 0)
  | .lred _ m =>
    let r := chain m.opc m.u fmode [xw]
    (r.1.setWidth 64, true, r.2)
  | .lscan _ m =>
    let r := if m.excl then chain m.opc m.u fmode [] else chain m.opc m.u fmode [xw]
    (r.1.setWidth 64, !m.excl, r.2)
  | _ => (0, false, 0)

/-- The operation with which a thread joins its group. -/
def crossOp : Instr → XOp
  | .shfl _ m => .shfl m
  | .bcst _ => .bcst
  | .vote _ m => .vote m
  | .match _ => .match_
  | .lred _ m => .lred m.opc m.u
  | .lscan _ m => .lscan m.opc m.u m.excl
  | _ => .elect

/-- What a thread contributes (R169). -/
def memberOf (s : State) (h : Hart) (i : Instr) (x : CrossLane) : XMember :=
  { lane := (rowLane h).2, op := crossOp i, x := if x.aw = .pair then s.opPair h x.f.a else (s.op32 h x.f.a).setWidth 64
    xp := s.opPoison h x.f.a x.aw, y := if x.hasB then some (s.op32 h x.f.b) else none
    yp := x.hasB && s.opPoison h x.f.b .w32, fmode := s.fmode h, dst := x.f.dest }

/-- R169 and R170: the result of member `me` over the group `ms`, in ascending lane order; none where BCST's first member has no b,
which leaves the result free (log 16). -/
def memberResult (ms : List XMember) (me : XMember) : Option XOut :=
  let on (l : Int) : Option XMember := ms.find? (fun m => decide ((m.lane : Int) = l))
  let y : Nat := (me.y.getD 0).toNat
  let truth (p : Prop) [Decidable p] : Option XOut := some ⟨if p then 1 else 0, false, ms.any (·.xp), 0⟩
  let lanes (p : XMember → Bool) : Option XOut :=
    some ⟨(ms.filter p).foldl (fun v m => v ||| BitVec.ofNat 64 (2 ^ m.lane)) 0, true, ms.any (·.xp), 0⟩
  let combined (opc : Opc) (u : Bool) (p : Nat → Bool) : Option XOut :=
    let xs := ms.filter (fun m => p m.lane)
    let r := chain opc u me.fmode (xs.map (fun m => m.x.lo))
    some ⟨r.1.setWidth 64, false, xs.any (·.xp), r.2⟩
  match me.op with
  | .shfl mode =>
    let m := (on (match mode with
      | .idx => (y : Int)
      | .up => (me.lane : Int) - y
      | .down => (me.lane : Int) + y
      | .bxor => ((me.lane ^^^ y : Nat) : Int))).getD me
    some ⟨m.x.lo.setWidth 64, false, m.xp || me.yp, 0⟩
  | .bcst => match ms.head? with
    | some g0 => g0.y.map (fun y0 =>
        let m := (on (y0.toNat : Int)).getD me
        ⟨m.x, true, m.xp || g0.yp, 0⟩)
    | none => none
  | .vote .any => truth (∃ m ∈ ms, m.x.lo ≠ 0)
  | .vote .all => truth (∀ m ∈ ms, m.x.lo ≠ 0)
  | .vote .ballot => lanes (fun m => m.x.lo ≠ 0)
  | .match_ => lanes (fun m => m.x.lo == me.x.lo)
  | .elect => truth ((ms.find? (fun m => m.x.lo ≠ 0)).map (·.lane) = some me.lane)
  | .lred opc u => combined opc u (fun _ => true)
  | .lscan opc u excl => combined opc u (fun l => if excl then l < me.lane else l ≤ me.lane)

/-- Thread `t` of core `c` is a running thread of its workgroup, and no open group of its row waits for it or holds it. -/
def FreeLane (s : State) (c t : Nat) : Prop :=
  (s.core c).hasThread t = true ∧ ((s.core c).thread t).run ≠ .exited ∧ t < 960 ∧
  ∀ g ∈ (s.core c).groups, g.row = 1 + t / 64 →
    g.mask.getLsbD (t % 64) = false ∧ ∀ m ∈ g.members, m.lane ≠ t % 64

/-! ## Memory -/

/-- The forms of LD. -/
def ldForm : Instr → Option (Fields × MemMod)
  | .ld f m => some (f.fields, m)
  | .ld4W f => some (f.fields, { size := .s4 })
  | .ld8W f => some (f.fields, { size := .s8 })
  | .ld1W f => some (f.fields, { size := .s1 })
  | .ld1SxW f => some (f.fields, { size := .s1, sx := true })
  | .ld2W f => some (f.fields, { size := .s2 })
  | .ld2SxW f => some (f.fields, { size := .s2, sx := true })
  | _ => none

/-- An access of `n` bytes meets no condition of Table 10-2 on its address: aligned, in range, in no registered range, and
its address fields not poisoned. -/
def AddrOk (s : State) (h : Hart) (f : Fields) (n : Nat) (writes : Bool) : Prop :=
  (s.addrOf h f).toNat % n = 0 ∧ (s.addrOf h f).toNat < 2 ^ 60 ∧ s.lockHit h (s.addrOf h f) n writes = false ∧
  Clean (s.addrPoison h f)

/-- A place whose bytes a load reads: not a register of control space, and not behind an open window to a peer. -/
def Readable (s : State) : Place → Prop
  | .ctl _ => False
  | .dev pa => ¬(isPeer pa = true ∧ (s.peerWindow? pa).isSome = true)
  | _ => True

/-- The access of an LD. -/
def loadAccess (s : State) (h : Hart) (f : Fields) (m : MemMod) : Access :=
  { kind := .load m.sx m.sc, addr := s.addrOf h f, size := sizeBytes m.size, data := 0, dpoison := false, acq := m.ord,
    rel := false, scope := m.scope, dst := f.dest }

/-- A load has been noted for the requests of its issue group, or, on the management core, for its line (R226, R262). -/
def loadNoted (s1 : State) (h : Hart) (p : Place) (sc : Bool) : State :=
  match p with
  | .dev pa => s1.noteLoad h pa sc
  | _ => s1

/-- The state after a load of `n` bytes at a place: `s1` is the state after the translation. -/
def loaded (s s1 : State) (h : Hart) (f : Fields) (m : MemMod) (p : Place) (key : Nat) : State :=
  let r := (loadNoted s1 h p m.sc).loadBytes h p key (sizeBytes m.size) (loadAccess s h f m).acquire
  r.2.2.modThread h (loadResult (loadAccess s h f m) m.sx m.sc r.1 r.2.1)

/-- The destination of an LD (R221). -/
def ldUses (f : Fields) (m : MemMod) : List OpUse := addrUses f ++ f.dst (if m.sc then .w32 else dataW (sizeBytes m.size))

/-- The forms of the class 101 read-modify-writes but RED.sc: their fields, modifiers, the uses of D, the new value from the
old one (none: no write), and what the thread gets of the old value and its mark. -/
structure Rmw where
  f : Fields
  m : SyncMod
  uses : List OpUse
  dPoison : Bool
  new : BitVec 128 → Option (BitVec 128)
  put : Thread → BitVec 128 → Bool → Thread
  ordered : Bool

def rmwForm (s : State) (h : Hart) : Instr → Option Rmw
  | .atom f m =>
    let n := szBytes m.sz
    some ⟨f.fields, m, f.fields.dst (dataW n), false, fun old => some (atomNew m.opc m.u n old (s.opData h f.fields.c n)),
      fun th old mark => th.putData f.fields.dest n false old mark, true⟩
  | .cas f m =>
    let n := szBytes m.sz
    let d : Opd := .reg f.fields.d
    some ⟨f.fields, m, [(d, dataW n)], s.opPoison h d (dataW n),
      fun old => if old = s.opData h d n then some (s.opData h f.fields.c n) else none,
      fun th old mark => th.putData f.fields.dest n false old mark, true⟩
  | .red f m =>
    let n := szBytes m.sz
    if m.sc then none
    else some ⟨f.fields, m, [], false, fun old => some (atomNew m.opc m.u n old (s.opData h f.fields.c n)),
      fun th _ _ => th, false⟩
  | _ => none

/-- What the checks of an access to memory look at (R223): its fields, its bytes, the operands it names, what it needs of a leaf, whether
it writes, and the marks of its data fields that raise POISON_USE, each with its number (R390). -/
structure AccForm where
  f : Fields
  n : Nat
  uses : List OpUse
  need : AccNeed
  writes : Bool
  data : List (Bool × Nat)

def syncForm (s : State) (h : Hart) (f : Fields) (m : SyncMod) (need : AccNeed) (writes : Bool) (more : List OpUse)
    (data : List (Bool × Nat)) : Option AccForm :=
  let w := dataW (szBytes m.sz)
  some ⟨f, szBytes m.sz, addrUses f ++ [(f.c, w)] ++ more, need, writes, (s.opPoison h f.c w, 2) :: data⟩

/-- The loads, stores, atomics and WAITV. -/
def accForm (s : State) (h : Hart) (i : Instr) : Option AccForm :=
  match ldForm i, i with
  | some (f, m), _ => some ⟨f, sizeBytes m.size, ldUses f m, .load, false, []⟩
  | _, .st f m =>
    let w := dataW (sizeBytes m.size)
    let d : Opd := .reg f.fields.d
    some ⟨f.fields, sizeBytes m.size, addrUses f.fields ++ [(d, w)], .store, true, [(s.opPoison h d w && !m.psn, 3)]⟩
  | _, .atom f m => syncForm s h f.fields m .atomic true (f.fields.dst (dataW (szBytes m.sz))) []
  | _, .cas f m =>
    let w := dataW (szBytes m.sz)
    let d : Opd := .reg f.fields.d
    syncForm s h f.fields m .atomic true [(d, w)] [(s.opPoison h d w, 3)]
  | _, .red f m =>
    if m.sc then
      some ⟨f.fields, 16, addrUses f.fields ++ [(f.fields.c, .w32)], .atomic, true, [(s.opPoison h f.fields.c .w32, 2)]⟩
    else syncForm s h f.fields m .atomic true [] []
  | _, .waitv f m => syncForm s h f.fields m .waitv false (f.fields.dst (dataW (szBytes m.sz))) []
  | _, _ => none

/-- The scope of a read-modify-write's acquire, when wider than core (R201). -/
def Rmw.acquire (r : Rmw) : Option Scope := if r.ordered && ordAcq r.m.ord && r.m.scope ≠ .core then some r.m.scope else none

/-- The scope of its release, its own or that of an earlier release fence (R201, R202); a RED, always relaxed, has none. -/
def Rmw.release (r : Rmw) (th : Thread) : Option Scope :=
  if r.ordered then relScope th (if ordRel r.m.ord then some r.m.scope else none) else none

/-- The state after a read-modify-write at its home: what its read tells the thread, the bytes written (a RED leaves the poison
mark as it is, R247), then the old value given to the thread. -/
def rmwDone (s1 : State) (h : Hart) (r : Rmw) (p : Place) (key : Nat) : State :=
  let n := szBytes r.m.sz
  let q := (s1.noteAtomic h p).homeRead h p key n
  let old := bytesVal q.1
  let s2 := q.2.2.modThread h (fun th => { th with mv := q.2.2.learnAt h p r.acquire th.mv })
  let s3 := match r.new old with
    | some v => s2.homeStore h p key (natBytes n v.toNat) (!r.ordered && q.2.1) (r.release (s1.thread h))
    | none => s2
  s3.modThread h (fun th => r.put th old q.2.1)

/-- The state after PREF of `n` bytes: one whose address meets a condition, or whose page is not resident, does nothing; else the
granule is one of those that the requests of the issue group cover (R226, R234). -/
def prefNoted (s : State) (h : Hart) (f : Fields) (n : Nat) : State :=
  match (s.checkAccess h .load (s.addrOf h f) n (s.lockHit h (s.addrOf h f) n false) false []).1 with
  | .at (.dev pa) _ => s.noteLoad h pa false
  | _ => s

/-- PREF can send its request: its core has one free, and a read of the peer tier a tag (R10, R344). -/
def PrefFree (s : State) (h : Hart) (f : Fields) (n : Nat) : Prop :=
  ∀ pa key, (s.checkAccess h .load (s.addrOf h f) n (s.lockHit h (s.addrOf h f) n false) false []).1 = .at (.dev pa) key →
    s.requestWaits h (.dev pa) = false

/-- The state after a FENCE whose waiting is over: the view it leaves its thread, its place among the full fences, and the
window that one wider than core empties (R202, R206, R248). -/
def fenced (s : State) (h : Hart) (m : SyncMod) : State :=
  let s1 := s.modThread h (fun th => { th with mv := th.mv.fence m th.stores (s.orderSeq h) })
  let s2 := if m.ord = .acqrel then s1.fullFence h m.scope else s1
  if m.scope ≠ .core then s2.modThread h (·.clearWindow) else s2

/-! ## Transfers (R295) -/

/-- A transfer: the sources it reads, its target, and where its link goes. -/
structure Transfer where
  uses : List OpUse
  target : BitVec 64
  link : Option Dest

def Transfer.dst (x : Transfer) (f : Fields) : List OpUse := if x.link.isSome then f.dst .pair else []

/-- Table 13-1: the transfers that are taken, with PC the address of parcel 0. -/
def transferOf (s : State) (h : Hart) : Instr → Option (Fields × Transfer)
  | .br f nz =>
    if (s.op32 h f.fields.a = 0 ∧ nz = false) ∨ (s.op32 h f.fields.a ≠ 0 ∧ nz = true) then
      some (f.fields, ⟨[(f.fields.a, .w32), (f.fields.b, .w32)], s.pc h + (s.op32 h f.fields.b).signExtend 64, none⟩)
    else none
  | .jmp f => some (f.fields, ⟨[(f.fields.b, .w32)], s.pc h + (s.op32 h f.fields.b).signExtend 64, none⟩)
  | .jmpr f => some (f.fields, ⟨[(f.fields.a, .pair), (f.fields.b, .w32)],
      s.opPair h f.fields.a + (s.op32 h f.fields.b).signExtend 64, none⟩)
  | .call f => some (f.fields, ⟨[(f.fields.b, .w32)], s.pc h + (s.op32 h f.fields.b).signExtend 64, some f.fields.dest⟩)
  | .callInd f => some (f.fields, ⟨[(f.fields.a, .pair), (f.fields.b, .w32)],
      s.opPair h f.fields.a + (s.op32 h f.fields.b).signExtend 64, some f.fields.dest⟩)
  | .ret f => some (f.fields, ⟨[(f.fields.a, .pair)], s.opPair h f.fields.a, none⟩)
  | _ => none

/-- The sources of a transfer with the numbers of their fields (R390), whether or not it is taken. -/
def transferMarks (s : State) (h : Hart) : Instr → List (Bool × Nat)
  | .br f _ => [(s.opPoison h f.fields.a .w32, 0), (s.opPoison h f.fields.b .w32, 1)]
  | .jmp f => [(s.opPoison h f.fields.b .w32, 1)]
  | .call f => [(s.opPoison h f.fields.b .w32, 1)]
  | .jmpr f => s.addrPoison h f.fields
  | .callInd f => s.addrPoison h f.fields
  | .ret f => [(s.opPoison h f.fields.a .pair, 0)]
  | _ => []

/-- A legal target: even, and in the 60-bit space. -/
def TargetOk (t : BitVec 64) : Prop := t.toNat % 2 = 0 ∧ t.toNat < 2 ^ 60

/-- User thread `t` of core `c` has trapped between `s` and `u` with a cause, a TVAL and an EPC (R46): its four trap
registers, its window and its run state are written and nothing else of it but that its wait for issue starts anew (R284); it stands
in TRQ after all that trapped before this clk and in ascending order among those that trap in it (R42); a supervisor group parked at its EXIT is Ready again. Nothing else differs: not another thread, the rest of the core,
another core, the management core, memory, the I/O die, the scheduler, the error log, the key store, nor what has left the device. -/
def TrapEntered (s u : State) (c t : Nat) (cause : Cause) (tval : Pair) (epc : BitVec 64) : Prop :=
  u.thread (.user c t) = { s.thread (.user c t) with
    causeActive := true, causeCode := cause.code, tval, epc, latches := noLatches, run := .trapped, age := 0 } ∧
  (u.core c).trq = (s.core c).trq.take (s.core c).trqOld ++ insertAsc t ((s.core c).trq.drop (s.core c).trqOld) ∧
  (∀ l, l < 64 → u.thread (.sup c l) = { s.thread (.sup c l) with
    run := if (s.core c).supIdle = true then .ready else (s.thread (.sup c l)).run }) ∧
  (∀ t', t' < 960 → t' ≠ t → u.thread (.user c t') = s.thread (.user c t')) ∧
  { u.core c with threads := [], trq := [] } = { s.core c with threads := [], trq := [] } ∧
  (∀ c', c' ≠ c → u.core c' = s.core c') ∧ u.mgmt = s.mgmt ∧
  u.mem = s.mem ∧ u.memPoison = s.memPoison ∧ u.memKey = s.memKey ∧
  u.io = s.io ∧ u.sched = s.sched ∧ u.errors = s.errors ∧ u.keys = s.keys ∧ u.out = s.out

/-- The supervisor group of core `c` has trapped (R47): every lane holds the cause, EPC and TVAL, and the core has stopped. -/
def GroupTrapped (u : State) (c : Nat) (cause : Cause) (tval : Pair) (epc : BitVec 64) : Prop :=
  (u.core c).status = .stopped ∧ ∀ l, l < 64 → (u.thread (.sup c l)).causeCode = cause.code ∧
    (u.thread (.sup c l)).causeActive = true ∧ (u.thread (.sup c l)).epc = epc ∧ (u.thread (.sup c l)).tval = tval

/-! ## Barriers (R299–R303) -/

/-- BAR_SCOPE does not hold for barrier `b` below 24 at level `lvl`: barriers 0–15 at level 0, barriers 16–23 at a level of
the launch's rectangle and the one that the thread has used (R299, R300). -/
def ScopeOk (s : State) (c t : Nat) (w : Workgroup) (b lvl : Nat) : Prop :=
  (s.core c).wg = some w ∧
  ((b < 16 ∧ lvl = 0) ∨ (16 ≤ b ∧ b < 24 ∧ lvl ≤ maxLevel w ∧
    (mget none (s.thread (.user c t)).barLvl b = none ∨ mget none (s.thread (.user c t)).barLvl b = some lvl)))

/-- BAR_SCOPE does not hold for a wait: the same, or barrier 24 to 31, at level 0, that an entry of the interrupt binding table binds
(R302, R305). -/
def WaitScopeOk (s : State) (c t : Nat) (w : Workgroup) (b lvl : Nat) : Prop :=
  ScopeOk s c t w b lvl ∨ ((s.core c).wg = some w ∧ 24 ≤ b ∧ b ≤ 31 ∧ lvl = 0 ∧ s.irqBound c b = true)

/-- BAR_COUNT does not hold: a count of 1 to 65,535 that the phase's first arrival also gave (R301). -/
def CountOk (s : State) (c b lvl n : Nat) : Prop :=
  1 ≤ n ∧ n ≤ 65535 ∧ ((s.barrier c b lvl).count = none ∨ (s.barrier c b lvl).count = some n)

/-- The state after a wait that ends at once (R302): the record of the phase seen, no arrival record, and an empty window. -/
def waited (s : State) (c t b lvl : Nat) : State :=
  (s.modThread (.user c t) (·.useLevel b lvl)).modThread (.user c t) (fun th =>
    (th.leaveBarrier b (s.barrier c b lvl)).clearWindow)

/-- The phase that a wait waits for: that of the thread's arrival, else the last it has seen (R302). -/
def waitTarget (s : State) (c t b : Nat) : BitVec 16 :=
  (mget none (s.thread (.user c t)).arrive b).getD (mget 0 (s.thread (.user c t)).seen b)

/-- A supervisor group completes instruction `i` with effect `eff` in each lane, one lane after the other, where every lane
meets `ok` in the state after the lanes before it. -/
def GroupCompletes (i : Instr) (ok : Hart → State → Prop) (eff : Hart → State → State) : Prop :=
  ∀ (s : State) (c : Nat), GroupTurn s c → (∀ l, l < 64 → ok (.sup c l) (lanesState eff c s l)) →
    exec i s = .next (groupDone c i s (lanesState eff c s 64))

/-- A user thread and the management core complete `i` where `ok` holds of them. -/
def SingleCompletes (i : Instr) (ok : Hart → State → Prop) (eff : Hart → State → State) : Prop :=
  ∀ (s : State) (h : Hart), Turn s h → ok h s → exec i s = .next (done h i s (eff h s))

/-- The management core completes `i`. -/
def MgmtCompletes (i : Instr) (ok : State → Prop) (eff : State → State) : Prop :=
  ∀ (s : State), MgmtTurn s → ok s → exec i s = .next (done .mgmt i s (eff s))

/-! ## Special registers (R39–R41, R336) -/

/-- May this hart access special register `n`: assigned, present on its core, and not above its level (R39)? -/
def SrAllowed (h : Hart) (n : Nat) : Prop := srGate h n = none

def rdsrEff (f : Fields) (n : Nat) (h : Hart) (s : State) : State := s.putSr h f.dest (srWidth n) (s.readSr h n)

/-- The value a WRSR writes. -/
def wrsrValue (s : State) (h : Hart) (f : Fields) (n : Nat) : Pair :=
  if srWidth n = .pair then s.opPair h f.b else (s.op32 h f.b).setWidth 64

def WrsrOk (f : Fields) (n : Nat) (h : Hart) (s : State) : Prop :=
  SrAllowed h n ∧ n ≠ 0x002 ∧ n ≠ 0x405 ∧ n ≠ 0x408 ∧ Named s h [(f.b, srWidth n)] ∧
  s.opPoison h f.b (srWidth n) = false ∧
  (n = 0x803 → (wrsrValue s h f n).getLsbD 31 = true → s.keyInFlight s.mgmt.ksx.toNat = false)

def wrsrEff (f : Fields) (n : Nat) (h : Hart) (s : State) : State :=
  match s.writeSr h n (wrsrValue s h f n) with
  | .ok s' => s'
  | _ => s

/-! ## The agent's own instructions (R42, R312, R338–R340, R354) -/

/-- A read of TRQ: the oldest trapped thread leaves and is returned with V clear; with none, V alone (R42). -/
def trqEff (f : Fields) (h : Hart) (s : State) : State :=
  match h, (s.coreOf h).trq with
  | .sup c _, t :: rest =>
    (s.modCore c (fun k => { k with trq := rest, trqOld := k.trqOld - 1 })).put32 h f.dest (bputs 0 [(6, 4, 1 + t / 64), (0, 6, t % 64)])
      false
  | _, _ => s.put32 h f.dest 0x80000000 false

/-- A read of MBOX: the oldest request leaves, marked as read (R312). -/
def mboxEff (f : Fields) (h : Hart) (s : State) : State :=
  match h, (s.coreOf h).mbox with
  | .sup c _, r :: rest =>
    (s.modCore c (fun k => { k with mbox := rest, mboxRead := k.mboxRead ++ [r.tid] })).putPair h f.dest
      (bputs 0 [(48, 10, r.tid), (32, 16, r.code.toNat), (0, 32, r.arg.toNat)]) false
  | _, _ => s.putPair h f.dest 0x8000000000000000 false

/-- A reply: the thread that bits 41:32 name wakes with bits 31:0 as its result, if its request has been read; what the agent's stores
know goes on to it (R204, R312). -/
def replyEff (f : Fields) (h : Hart) (s : State) : State :=
  match h with
  | .sup c _ =>
    let v := s.opPair h f.b
    let t := bget v 32 10
    match (s.thread (.user c t)).run with
    | .parked (.svcMb _ _ dst) =>
      if (s.core c).mboxRead.contains t then
        (s.modCore c (fun k => { k with mboxRead := k.mboxRead.filter (· ≠ t) })).wake (.user c t)
          (fun th => { th.put32 dst v.lo false with mv := th.mv.raise (s.core c).agentFloor })
      else s
    | _ => s
  | _ => s

/-- Sources named and not poisoned. -/
def Sources (s : State) (h : Hart) (us dst : List OpUse) : Prop := Named s h (us ++ dst) ∧ s.opsPoison h us = false

/-- The thread that RDTH, WRTH, WAKE and PARK name: one of the resident workgroup (R339). -/
def target? (s : State) (h : Hart) (f : Fields) : Option (Nat × Nat × Workgroup) :=
  let t := (s.op32 h f.b).toNat % 1024
  match h, (s.coreOf h).wg with
  | .sup c _, some w => if t < w.nth then some (c, t, w) else none
  | _, _ => none

/-- No save under way holds the capture of the thread that RDTH names: its stores, the workgroup's engines, its claim of the
dispenser and its loads from a peer module have ended; item 0x300 is never held (R218, R310, log 95). -/
def RdthOk (f : Fields) (h : Hart) (s : State) : Prop :=
  (s.op32 h f.c).toNat % 4096 = 0x300 ∨ ∀ c t w, target? s h f = some (c, t, w) →
    (s.core c).captureHeld w t = false ∧ s.saveHolds h t = false

/-- RDTH returns the item; 5 for item 0x300 of a thread that does not exist, 0 for its others (R339). -/
def rdthEff (f : Fields) (h : Hart) (s : State) : State :=
  let i := (s.op32 h f.c).toNat % 4096
  s.put32 h f.dest (match target? s h f with
    | some (c, t, w) => ((s.core c).thread t).item w.regs ((s.core c).trq.findIdx? (· == t)) i
    | none => if i = 0x300 then 5 else 0) false

/-- WRTH writes the item of an existing thread whose state admits it (R339). -/
def wrthEff (f : Fields) (h : Hart) (s : State) : State :=
  let i := (s.op32 h f.c).toNat % 4096
  let v := s.op32 h (.reg f.d)
  match target? s h f with
  | some (c, t, w) =>
    if itemWritable i ((s.core c).thread t).stateNum then
      s.modCore c (fun k =>
        if i = 0x410 then k.queueTrap t v
        else if i = 0x306 then (k.modThread t (·.setItem w.regs i v)).restoreCause t v
        else k.modThread t (·.setItem w.regs i v))
    else s
  | none => s

def wakeEff (f : Fields) (h : Hart) (s : State) : State :=
  match target? s h f with
  | some (c, t, w) => s.wakeThread c t w
  | none => s

/-- PARK stops a thread that has not exited and is not stopped (R340). -/
def parkEff (f : Fields) (h : Hart) (s : State) : State :=
  match target? s h f with
  | some (c, t, _) =>
    let th := s.thread (.user c t)
    if th.stopped = true ∨ th.run = .exited then s
    else (s.modThread (.user c t) (fun th => { th with stopped := true })).dropFetches (· == .user c t)
  | none => s

/-- IRQB: bind, which also ends a hold of the entry for a saved workgroup, or unbind, with status 0, or the reason of a refusal
(R354, R355). -/
def irqbEff (bind : Bool) (f : Fields) (h : Hart) (s : State) : State :=
  let n := (s.op32 h f.b).toNat
  let k := (s.op32 h f.c).toNat
  match h with
  | .sup c _ =>
    let r := irqbReason s c n (if bind then some k else none)
    if r = 0 then
      (if bind then (s.dropHeld n).setIrq n (bputs (s.irq n) [(60, 2, 1), (4, 8, c), (1, 3, k - 24)]) else s.unbindIrq n).put32 h f.dest 0 false
    else s.put32 h f.dest (BitVec.ofNat 32 (r * 2 ^ 28 + n % 4096 * 65536 + 0xC1)) false
  | _ => s

/-- TLBI whose drain ends at once: the translations are gone (R338). -/
def tlbiEff (kind : TlbiKind) (f : Fields) (h : Hart) (s : State) : State :=
  (s.startDrain (.hart h) kind (if kind = .page then s.opPair h f.a else 0) ((s.op32 h f.b).setWidth 16)).dropDrain (.hart h)

def TlbiOk (kind : TlbiKind) (f : Fields) (h : Hart) (s : State) : Prop :=
  let us : List OpUse := (if kind = .page then [(f.a, .pair)] else []) ++ (if kind = .all then [] else [(f.b, .w32)])
  Sources s h us [] ∧ (kind = .page → (s.opPair h f.a).toNat < 2 ^ 60) ∧ s.drainOf (.hart h) = none ∧
  s.orderHome h = true ∧ s.accessesDone = true ∧ s.atsFunctions = []

/-- SELFT: 2 where it is refused, else the free result of the test (R343). -/
def selftEff (f : Fields) (h : Hart) (s : State) : State :=
  let id := s.op32 h f.b
  let kind := bget id 28 4
  let outside : Bool := match h with
    | .sup c _ => decide (kind = 4 ∨ kind = 5 ∨ bget id 20 8 ≠ c)
    | _ => false
  if selftIndexOk kind (bget id 0 20) = false ∨ outside = true then s.put32 h f.dest 2 false
  else { s with free := s.free + 1 }.put32 h f.dest (if Config.freeBit s.free then 1 else 0) false

/-! ## The management core's own instructions -/

/-- BIND: the status of R342, and the record written where it is 0. -/
def bindEff (f : Fields) (s : State) : State :=
  let r := s.opQuad .mgmt f.a
  let k := (s.op32 .mgmt f.b).toNat
  (if s.bindStatus k r = 0 then s.writeBind k r else s).put32 .mgmt f.dest (BitVec.ofNat 32 (s.bindStatus k r)) false

/-- The record of a security instruction passes the checks of R376: aligned, in range, in regions that admit what it does,
its address not poisoned. -/
def RecordOk (s : State) (f : Fields) (total : Nat) (spans : List (AccNeed × Nat × Nat)) : Prop :=
  let ps := s.addrPoison .mgmt f
  s.secCheck (s.addrOf .mgmt f) 16 total (ps.any (·.1)) ps spans = none

/-- No load of a security instruction's record must wait (R376). -/
def RecordReads (s : State) (f : Fields) (n : Nat) : Prop := (s.loadSpan (spanPieces (s.addrOf .mgmt f).toNat n)).1.isSome = true

/-- What a security instruction reads of its record. -/
def recordRead (s : State) (f : Fields) (n : Nat) : List Byte × Bool × State :=
  let r := s.loadSpan (spanPieces (s.addrOf .mgmt f).toNat n)
  ((r.1.getD ([], false)).1, (r.1.getD ([], false)).2, r.2)

/-! ## Tiles (R125–R129, R230–R232) -/

/-- A handle that names a tile which no task or engine operation uses. -/
def FreeTile (s : State) (c hn : Nat) (x : Tile) : Prop :=
  (s.core c).tile? hn = some x ∧ (s.core c).handleInUse hn = false

/-- The position of a scratchpad access of `n` bytes. -/
def spAccess (s : State) (h : Hart) (f : Fields) (m : MemMod) : SpAccess :=
  { h := (s.op32 h f.a).toNat, row := (s.op32 h f.b).toNat, col := (s.op32 h f.c).toNat, size := sizeBytes m.size,
    column := m.col, sx := m.sx, clr := m.clr, acq := m.ord, dst := f.dest }

/-- The conditions of TALLOC on the header it reads and on the handle do not hold, and its storage has a place (R126). -/
def TallocOk (s : State) (c : Nat) (m : Header) (hn : Nat) (md : AllocMod) (base span : Nat) : Prop :=
  Hd.ok m = true ∧
  descOk (some md.lv) m ⟨md.xshape, md.xsparse, md.xscale, md.xfmt⟩ = true ∧
  ¬(md.lv = .sp ∧ md.span = 0 ∧ (md.xfmt = true ∨ md.xshape = true)) ∧
  hn ≤ 255 ∧ (s.core c).wg.isSome = true ∧ (s.core c).tile? hn = none ∧ (s.core c).placeTile m md = some (base, span) ∧
  (md.lv = .sp → (s.core c).queuedInto base (base + span) = false)

/-- The tile that TALLOC makes of a header. -/
def tallocTile (m : Header) (md : AllocMod) (base span : Nat) : Tile :=
  { hdr := Hd.rehash (bput m 24 3 0), lv := md.lv, xshape := md.xshape, xsparse := md.xsparse, xscale := md.xscale,
    xfmt := md.xfmt, span, base }

/-- `hdr` with word `k` replaced under `mask`. -/
def hdrMasked (hdr : Header) (k : Nat) (v mask : Word) : Header :=
  bput hdr (32 * k) 32 ((v &&& mask) ||| (hdrWord hdr k &&& ~~~mask)).toNat

/-! ## Tasks and engine operations (R173–R192, R235–R243, R409, R410) -/

/-- `u` is `s` after user thread `t` of core `c` had a task accepted: the record appended, its ranges registered, the token
returned and counted on, nothing in memory changed. -/
def TaskAccepted (s u : State) (c t : Nat) (i : Instr) (f : Fields) (w : Workgroup) (x : Task) (locks : List RangeLock) : Prop :=
  (u.core c).tasks = (s.core c).tasks ++ [x] ∧ (u.core c).locks = (s.core c).locks ++ locks ∧
  ((u.core c).wg.map (·.taskTok)) = some (nextToken w.taskTok) ∧
  u.thread (.user c t) = { (s.thread (.user c t)).put32 f.dest (w.taskTok.setWidth 32) false with
    pc := nextPc s (.user c t) i, age := 0 } ∧ u.mem = s.mem

/-- A task can be accepted: a workgroup whose state is not being saved, a free record, room in the range-lock table, and no store
of the thread queued. -/
def TaskRoom (s : State) (c t : Nat) (w : Workgroup) (idx n : Nat) : Prop :=
  (s.core c).wg = some w ∧ (s.core c).freeRecord = some idx ∧ (s.core c).locks.length + n ≤ 64 ∧
  (s.thread (.user c t)).storeQ = [] ∧ (s.core c).stopsTasks = false

/-- The operands of MMA raise no condition of R188. -/
def MmaOk (s : State) (h : Hart) (f : Fields) (z : Bool) (ta tb : Tile) : Prop :=
  let a := s.taskOpd h 0 f.a true (some .om)
  let b := s.taskOpd h 1 f.b true (some .om)
  let d := s.taskOpd h 2 f.c (!z) (some .acc)
  a.tile = some ta ∧ b.tile = some tb ∧
  opdFaults [a, b] ++ mmaFaults ta tb b.hn d.tile d.hn z ++ opdFaults [d] ++ fieldFaults [a, b, d] = []

/-- The operands of TMOV or QUANT raise no condition of R188. -/
def MoveOk (s : State) (h : Hart) (f : Fields) (tr quant : Bool) (ts td : Tile) : Prop :=
  let d := s.taskOpd h 0 f.a false none
  let x := s.taskOpd h 1 f.b true none
  x.tile = some ts ∧ d.tile = some td ∧
  opdFaults [x] ++ moveFaults tr quant ts x.hn td d.hn ++ opdFaults [d] ++ fieldFaults [d, x] = []

/-- An engine operation can be accepted: a workgroup, a free entry of its engine, room in the range-lock table, no store of
the thread queued (R208, R210, R235). -/
def OpRoom (s : State) (c key : Nat) (w : Workgroup) (kind : EngKind) (n : Nat) : Prop :=
  (s.core c).wg = some w ∧ ((s.core c).ops.filter (fun o => o.kind.gather == kind.gather)).length < 32 ∧
  (s.core c).locks.length + n ≤ 64 ∧ ((s.core c).thread key).storeQ = []

/-- `u` is `s` after an engine operation of thread `key` of core `c` was accepted with its ranges (source first); `sealN` is the seal
number that a CPY.seal takes. -/
def OpAccepted (s u : State) (c key : Nat) (f : Fields) (w : Workgroup) (kind : EngKind) (ranges : List (Bool × Range))
    (sealN : BitVec 32 := 0) : Prop :=
  (u.core c).ops = (s.core c).ops ++ [{ token := w.copyTok, tid := key, kind, ctx := (s.core c).ctxid, ksel := (s.core c).ksel
                                        view := ((s.core c).thread key).mv.floor, sealN }] ∧
  (u.core c).locks = (s.core c).locks ++ ranges.map (fun r => ⟨false, w.copyTok, r.1, r.2⟩) ∧
  ((u.core c).wg.map (·.copyTok)) = some (nextToken w.copyTok) ∧
  ((u.core c).thread key).regs = (((s.core c).thread key).put32 f.dest (w.copyTok.setWidth 32) false).regs ∧
  ((u.core c).thread key).latches = (((s.core c).thread key).put32 f.dest (w.copyTok.setWidth 32) false).latches

/-- `u` is `s` after an operation of length 0: nothing but its token. -/
def OpEmpty (s u : State) (c key : Nat) (f : Fields) (w : Workgroup) : Prop :=
  (u.core c).ops = (s.core c).ops ∧ (u.core c).locks = (s.core c).locks ∧
  ((u.core c).wg.map (·.copyTok)) = some (nextToken w.copyTok) ∧
  ((u.core c).thread key).regs = (((s.core c).thread key).put32 f.dest (w.copyTok.setWidth 32) false).regs

/-- The two ends of an image operation and its control word raise no condition of R409; one of a workgroup's own state, and every one
of a save, comes after the drain (R404). -/
def ImageOk (s : State) (c : Nat) (image side : BitVec 64) (ctl : Pair) : Prop :=
  let src := bget ctl 48 2
  let dlen := bget ctl 0 24
  let raw := side.toNat % 2 ^ 32
  image.toNat % 64 = 0 ∧ 0 < dlen ∧ dlen % 16 = 0 ∧ image.toNat < 2 ^ 60 ∧
  (image + BitVec.ofNat 64 (63 + imageLen dlen)).toNat < 2 ^ 60 ∧
  (src = 0 → side.toNat % 16 = 0 ∧ side.toNat < 2 ^ 60 ∧ (side + BitVec.ofNat 64 (dlen - 1)).toNat < 2 ^ 60) ∧
  (src = 1 → raw % 16 = 0 ∧ raw + dlen ≤ (s.core c).bankLimit * bankBytes) ∧ (src = 2 → dlen = 20752) ∧
  (src = 3 → dlen = engMemSize) ∧ (src ≠ 0 ∨ (s.core c).saving = true → (s.core c).drained = true)

/-- The ranges that an image operation registers: its sources before its destination; none for engine memory. -/
def imageRanges (sealing : Bool) (image side : BitVec 64) (ctl : Pair) : List (Bool × Range) :=
  let src := bget ctl 48 2
  let dlen := bget ctl 0 24
  let raw := side.toNat % 2 ^ 32
  if src = 3 then []
  else (if src = 0 then memLock (!sealing) side.toNat dlen
      else if src = 1 then [(!sealing, .banks (raw / bankBytes) (ceilDiv (raw + dlen) bankBytes))] else [])
    ++ memLock sealing image.toNat (64 + imageLen dlen)

/-- A launch of a slot's grant is running or starting on the cores it holds: not killed, and being pre-empted. -/
def Preempting (g : Grant) : Prop := g.launch = true ∧ g.preemptReq = true ∧ g.killed = false

/-- It is a connection's turn in the responder's scan, and its next request is accepted, its code `code`. -/
def SpdmAccepts (s : State) (conn : Conn) (code : Byte) (req reply : List Byte) (after : Spdm) : Prop :=
  s.scanTurn conn = true ∧ s.request? conn = some req ∧ s.answer conn req = ⟨code, reply, some after⟩

/-! ## Requests of a connection (R381, R384) -/

/-- A request that the connection has not seen waits in RBUF, and the responder's scan is at the connection (R384). -/
def SpdmPosted (s : State) (conn : Conn) (req : List Byte) : Prop :=
  s.scanTurn conn = true ∧
  (s.spdm conn).seen.toNat ≠ s.rseq conn ∧
    peeks s.mgmt.sram (Conn.area conn + 0x1000) (s.sramWord (Conn.area conn + 4)) = req

/-- Neither log of the connection is full. -/
def logsOpen (p : Spdm) : Prop := p.m1.length < 24576 ∧ p.l1.length < 24576

/-- A reply of the bytes given stands in TBUF with its length and TSEQ = RSEQ; the connection's records are `p` but that the request
has been seen, and the other connection, memory, the I/O die and the error log are as they were; the scan goes on to I3C after
DOE where a request waits there, else it starts again with DOE. -/
def SpdmLaid (s u : State) (conn : Conn) (p : Spdm) (reply : List Byte) : Prop :=
  peeks u.mgmt.sram (Conn.area conn + 0x2000) reply.length = reply ∧
    u.sramWord (Conn.area conn + 12) = reply.length ∧ u.tseq conn = s.rseq conn ∧ u.rseq conn = s.rseq conn ∧
    u.scanI3c = (conn == .doe && (u.request? .i3c).isSome) ∧ u.spdm conn = { p with seen := BitVec.ofNat 32 (s.rseq conn) } ∧ (∀ other, other ≠ conn → u.spdm other = s.spdm other) ∧
    u.mem = s.mem ∧ u.io = s.io ∧ u.errors = s.errors

/-- An event of a connection completes with the reply laid down. -/
def SpdmAnswers (s : State) (i : Instr) (conn : Conn) (p : Spdm) (reply : List Byte) : Prop :=
  ∃ u, exec i s = .next u ∧ SpdmLaid s u conn p reply

/-- The records after a request whose reply enters both logs. -/
def spdmLogged (p : Spdm) (st : SpdmState) (m1 l1 : List Byte) : Spdm := { p with st, m1, l1, vca := m1.length }

/-- CHALLENGE_AUTH without its signature. -/
def challengeBody (s : State) (conn : Conn) (nonce summary : List Byte) : List Byte :=
  [0x12, 0x03, 0x00, 0x01] ++ sha384 s.chain ++ responderNonce (s.spdm conn).cnt nonce ++ summary ++ [0, 0]

/-- MEASUREMENTS of one index without its signature. -/
def measurementBody (s : State) (conn : Conn) (op : Byte) (nonce : List Byte) : List Byte :=
  [0x12, 0x60, 0, 0, 1] ++ natBytes 3 (s.measBlock op.toNat).length ++ s.measBlock op.toNat
    ++ responderNonce (s.spdm conn).cnt nonce ++ [0, 0]

/-! ## Migrations (R256) -/

/-- An aligned word of eight bytes in installed memory of this module, on a sub-channel that works, in no slot area. -/
def WordAt (s : State) (a : Nat) : Prop :=
  a % 8 = 0 ∧ s.installed a = true ∧ s.installed (a + 7) = true ∧ isPeer (a / 16 * 16) = false ∧ s.subFailed (a / 16 * 16) = false ∧
    s.slotGranule? (a / 16) = none

/-- Where the next frame appended to a ring goes, and where the next frame taken from it lies. -/
def ringEnd (s : State) (fast : Bool) : Nat :=
  (s.ring fast).1.toNat + 8 * (Ring.widx (s.ring fast).2 % 2 ^ Ring.slog (s.ring fast).2)
def ringHead (s : State) (fast : Bool) : Nat :=
  (s.ring fast).1.toNat + 8 * (Ring.ridx (s.ring fast).2 % 2 ^ Ring.slog (s.ring fast).2)

/-- The eight bytes at `a` share no granule with the word at `e`. -/
def ApartFrom (a e : Nat) : Prop := a / 16 ≠ e / 16 ∧ (a + 7) / 16 ≠ e / 16

/-- No parked access waits for any page. -/
def NoPageWaits (s : State) : Prop := ∀ p ∈ s.cores, ∀ t ∈ p.2.threads, ∀ x va a, t.2.run ≠ .parked (.page x va a)

/-- A migration that nothing waits for and that no other follows. -/
def Migration.alone (m : Migration) : Prop := m.waiters = [] ∧ m.demoteAfter = false ∧ m.promoteAfter = false

/-! ## A supervisor group, lane by lane (R24)

For each shape of instruction, when a lane may complete it and what it does. -/

def pairEff (i : Instr) (h : Hart) (s : State) : State :=
  match intPair s h i with
  | some r => s.putPair h r.f.dest r.val (s.opsPoison h r.uses)
  | none => s

def LoadOk (i : Instr) (h : Hart) (s : State) : Prop :=
  ∃ f m p key s1, ldForm i = some (f, m) ∧ Named s h (ldUses f m) ∧ AddrOk s h f (sizeBytes m.size) false ∧
    s.place h .load (s.addrOf h f).toNat = (.at p key, s1) ∧ Readable s1 p ∧ s1.requestWaits h p = false ∧
      s1.loadWaits h p (sizeBytes m.size) = false

def loadEff (i : Instr) (h : Hart) (s : State) : State :=
  match ldForm i with
  | some (f, m) => match s.place h .load (s.addrOf h f).toNat with
    | (.at p key, s1) => loaded s s1 h f m p key
    | _ => s
  | none => s

/-- The state after a store has entered its thread's queue. -/
def queued (s s1 : State) (h : Hart) (f : Fields) (m : MemMod) (p : Place) (key : Nat) : State :=
  let n := sizeBytes m.size
  let d : Opd := .reg f.d
  (s1.enqueue h p key (natBytes n (s.opData h d n).toNat) (s.opPoison h d (dataW n))
    (if m.ord && m.scope ≠ .core then some m.scope else none)).modThread h id

def StoreOk (f : Fields) (m : MemMod) (h : Hart) (s : State) : Prop :=
  let n := sizeBytes m.size
  let d : Opd := .reg f.d
  Named s h (addrUses f ++ [(d, dataW n)]) ∧ AddrOk s h f n true ∧ (s.opPoison h d (dataW n) = true → m.psn = true) ∧
    ∃ p key s1, s.place h .store (s.addrOf h f).toNat = (.at p key, s1) ∧ (∀ off, p ≠ .ctl off) ∧ s1.queueFull h = false

def storeEff (f : Fields) (m : MemMod) (h : Hart) (s : State) : State :=
  match s.place h .store (s.addrOf h f).toNat with
  | (.at p key, s1) => queued s s1 h f m p key
  | _ => s

def RmwOk (i : Instr) (h : Hart) (s : State) : Prop :=
  ∃ r p key s1, rmwForm s h i = some r ∧ Named s h (addrUses r.f ++ [(r.f.c, dataW (szBytes r.m.sz))] ++ r.uses) ∧
    AddrOk s h r.f (szBytes r.m.sz) true ∧ s.opPoison h r.f.c (dataW (szBytes r.m.sz)) = false ∧ r.dPoison = false ∧
    s.place h .atomic (s.addrOf h r.f).toNat = (.at p key, s1) ∧
    s1.atomReady h p (relScope (s1.thread h) (if r.ordered && ordRel r.m.ord then some r.m.scope else none)) = true ∧
    s1.atomicWaits h p (szBytes r.m.sz) = false ∧ s1.requestWaits h p = false

def rmwEff (i : Instr) (h : Hart) (s : State) : State :=
  match rmwForm s h i with
  | some r => match s.place h .atomic (s.addrOf h r.f).toNat with
    | (.at p key, s1) => rmwDone s1 h r p key
    | _ => s
  | none => s

/-- The link of a transfer is written; the jump itself is the group's. -/
def linkEff (i : Instr) (h : Hart) (s : State) : State :=
  match transferOf s h i with
  | some (_, ⟨_, _, some d⟩) => s.putPair h d (nextPc s h i) false
  | _ => s

/-- A taken transfer of a lane to `t`. -/
def TransferOk (i : Instr) (t : BitVec 64) (h : Hart) (s : State) : Prop :=
  ∃ f x, transferOf s h i = some (f, x) ∧ Named s h (x.uses ++ x.dst f) ∧ s.opsPoison h x.uses = false ∧ x.target = t

/-- `s'`, with the supervisor group of core `c` at `t`. -/
def groupJumped (c : Nat) (t : BitVec 64) (s s' : State) : State :=
  { s'.modCore c (fun k => { k with supPc := t, lanesDone := [] }) with stalled := decide (t.toNat ≤ (s.core c).supPc.toNat) }

/-- An arrival of a lane at a barrier of the core's workgroup (log 119). -/
def BaraOk (f : Fields) (lvl : Nat) (h : Hart) (s : State) : Prop :=
  let b := (s.op32 h f.b).toNat
  let n := (s.op32 h f.c).toNat
  Sources s h [(f.b, .w32), (f.c, .w32)] [] ∧ b < 24 ∧ s.barScope h b lvl = false ∧ 1 ≤ n ∧ n ≤ 65535 ∧
    s.barCountBad h b lvl n = false ∧ s.barReady h b = true

def baraEff (f : Fields) (lvl : Nat) (h : Hart) (s : State) : State :=
  s.arriveBar h (h.core?.getD 0) (s.op32 h f.b).toNat lvl (s.op32 h f.c).toNat

/-- The tile that the handle in b names. -/
def ThdrOk (f : Fields) (h : Hart) (s : State) : Prop :=
  ∃ x, Sources s h [(f.b, .w32)] (f.dst .w32) ∧ FreeTile s (h.core?.getD 0) (s.op32 h f.b).toNat x ∧ x.ok = true

def thdrEff (k : Nat) (f : Fields) (h : Hart) (s : State) : State :=
  match (s.core (h.core?.getD 0)).tile? (s.op32 h f.b).toNat with
  | some x => s.put32 h f.dest (x.hdr.extractLsb' (32 * k) 32) false
  | none => s

def tfreeEff (f : Fields) (h : Hart) (s : State) : State :=
  let c := h.core?.getD 0
  (s.modCore c (·.setTile (s.op32 h f.b).toNat none)).dropWaiters c (s.op32 h f.b).toNat

/-- A scratchpad access of `n` bytes to tile `x`, level 0, whose header can be used and whose position is legal. -/
def SpOk (s : State) (h : Hart) (a : SpAccess) (x : Tile) : Prop :=
  x.ok = true ∧ x.lv = .sp ∧ (s.coreOf h).tile? a.h = some x ∧ descOk (some .sp) x.hdr x.wild = true ∧
    ∀ q ∈ spFaults (geoOf x.hdr) a.column a.h a.row a.col a.size, q.1 = false

def LdtOk (f : Fields) (m : MemMod) (h : Hart) (s : State) : Prop :=
  let three : List OpUse := [(f.a, .w32), (f.b, .w32), (f.c, .w32)]
  ∃ x, Sources s h three (f.dst (dataW (sizeBytes m.size))) ∧ SpOk s h (spAccess s h f m) x ∧ x.wild.any = false ∧
    ∀ q ∈ spGranules (geoOf x.hdr) x (spAccess s h f m), ((s.coreOf h).bankLock (q / 1024) (q / 1024 + 1)).2 = false

def ldtEff (f : Fields) (m : MemMod) (h : Hart) (s : State) : State :=
  match (s.coreOf h).tile? (s.op32 h f.a).toNat with
  | some x => s.ldtDo h x (spAccess s h f m) id
  | none => s

/-- The position of an STT, and the state after it: its store queued and counted, with the granules that it will make Full, and a tile
with wildcard fields completed by their stored values (R124, R230, R232). -/
def sttAccess (s : State) (h : Hart) (f : Fields) (m : MemMod) : SpAccess :=
  { spAccess s h f m with sx := false, clr := false, acq := false, dst := ⟨0, true⟩ }

def sttQueued (s : State) (h : Hart) (f : Fields) (m : MemMod) (x : Tile) : State :=
  let n := sizeBytes m.size
  let d : Opd := .reg f.d
  let b := sttAccess s h f m
  let gs := if m.fill then spGranules (geoOf x.hdr) x b else []
  (s.modThread h (fun th => { th with
    storeQ := th.storeQ ++ [s.storeEnt h .scratch (spStoreBytes (geoOf x.hdr) x b (s.opData h d n)) 0 (s.opPoison h d (dataW n)) gs none]
    stores := th.stores + 1 })).modCore (h.core?.getD 0) (·.completeTile b.h)

def SttOk (f : Fields) (m : MemMod) (x : Tile) (h : Hart) (s : State) : Prop :=
  let n := sizeBytes m.size
  let d : Opd := .reg f.d
  let three : List OpUse := [(f.a, .w32), (f.b, .w32), (f.c, .w32)]
  Named s h (three ++ [(d, dataW n)]) ∧ s.opsPoison h three = false ∧ (s.opPoison h d (dataW n) = true → m.psn = true) ∧
    SpOk s h (sttAccess s h f m) x ∧ x.fillFault (geoOf x.hdr) = none ∧
    (∀ q ∈ spGranules (geoOf x.hdr) x (sttAccess s h f m), (s.coreOf h).bankLock (q / 1024) (q / 1024 + 1) = (false, false)) ∧
    s.queueFull h = false

def sttEff (f : Fields) (m : MemMod) (h : Hart) (s : State) : State :=
  match (s.coreOf h).tile? (s.op32 h f.a).toNat with
  | some x => sttQueued s h f m x
  | none => s

/-- LDT or STT, the operands that it names, and the marks that raise POISON_USE, each with its field's number. -/
def spInstr (f : DF) (m : MemMod) (writes : Bool) : Instr := if writes then .stt f m else .ldt f m
def spUses (f : Fields) (m : MemMod) (writes : Bool) : List OpUse :=
  [(f.a, .w32), (f.b, .w32), (f.c, .w32)] ++
    (if writes then [(.reg f.d, dataW (sizeBytes m.size))] else f.dst (dataW (sizeBytes m.size)))
def spMarks (s : State) (h : Hart) (f : Fields) (m : MemMod) (writes : Bool) : List (Bool × Nat) :=
  [(s.opPoison h f.a .w32, 0), (s.opPoison h f.b .w32, 1), (s.opPoison h f.c .w32, 2)] ++
    (if writes then [(s.opPoison h (.reg f.d) (dataW (sizeBytes m.size)) && !m.psn, 3)] else [])

/-- The stored header of a tile can be used by an access: a store may complete a tile with wildcard fields, no load reads one (R107,
R124). -/
def SpHeaderOk (x : Tile) (writes : Bool) : Prop :=
  x.ok = true ∧ descOk (some x.lv) x.hdr x.wild = true ∧
    (if writes then x.fillFault (geoOf x.hdr) = none else x.wild.any = false)

/-- The position of a row access is aligned to its size in its row (R230). -/
def SpAligned (g : Geo) (col n : Nat) : Prop :=
  (g.w = 4 → col % 2 = 0) ∧ (g.w = 6 → col % 4 = 0) ∧ rowOff g.w col % n = 0

/-! ## Frames -/

/-- Two harts that are not the same one. -/
def OtherHart (h h' : Hart) : Prop := h'.core? ≠ h.core? ∨ h'.key ≠ h.key

/-- Nothing but hart `h` differs between `s` and `u`: not another hart, memory, scratchpad or other memory of a core, the I/O die, the
scheduler, the key store, the error log, what has left the device, nor anything else of the module. -/
def OthersKept (s u : State) (h : Hart) : Prop :=
  (∀ h', OtherHart h h' → u.thread h' = s.thread h') ∧
  (∀ a, peek u.mem a = peek s.mem a) ∧ u.memPoison = s.memPoison ∧ u.memKey = s.memKey ∧
  (∀ c, { u.core c with threads := [] } = { s.core c with threads := [] }) ∧
  { u.mgmt with thread := {} } = { s.mgmt with thread := {} } ∧
  u.io = s.io ∧ u.sched = s.sched ∧ u.keys = s.keys ∧ u.errors = s.errors ∧ u.out = s.out ∧
  { u with cores := s.cores, mgmt := s.mgmt } = s

/-- What an instruction of one result, with destinations `ds` and flags `fl`, changes in its own hart: the registers `ds` and
their poison, the latch window, the flags it raises and the pc. -/
def OnlyWrites (s u : State) (h : Hart) (i : Instr) (ds : List Nat) (fl : FlagSet) : Prop :=
  (∀ r, r ∉ ds → (u.thread h).reg r = (s.thread h).reg r ∧ (u.thread h).regPoison r = (s.thread h).regPoison r) ∧
  u.thread h = { s.thread h with
    regs := (u.thread h).regs, poison := (u.thread h).poison, latches := (u.thread h).latches
    flags := (s.thread h).flags ||| fl, pc := nextPc s h i, age := 0 } ∧
  (u.thread h).latches.tail = (s.thread h).latches.take 7 ∧
  OthersKept s u h

/-- A result of one word: the register with N = 0, and L1. -/
def WordPut (u : State) (h : Hart) (f : Fields) (v : Word) (p : Bool) : Prop :=
  (f.n = false → (u.thread h).reg f.d = v ∧ (u.thread h).regPoison f.d = p) ∧
  (u.thread h).latch 0 = some ⟨v.setWidth 64, false, p⟩

/-- A result of one pair: the even register and the odd one with N = 0, and L1. -/
def PairPut (u : State) (h : Hart) (f : Fields) (v : Pair) (p : Bool) : Prop :=
  (f.n = false → (u.thread h).reg f.d = v.lo ∧ (u.thread h).reg (f.d + 1) = v.hi ∧
    (u.thread h).regPoison f.d = p ∧ (u.thread h).regPoison (f.d + 1) = p) ∧
  (u.thread h).latch 0 = some ⟨v, true, p⟩

/-- The registers that a destination field names. -/
def Fields.writes (f : Fields) (w : OpW) : List Nat := if f.n then [] else (List.range w.count).map (f.d + ·)

/-! ## Decoding -/

/-- Is `i` an instruction, with an encoding, rather than an event? -/
def Encoded (i : Instr) : Prop := i.bits.isSome = true

/-! ## Memories in canonical form -/

/-- Device memory is in canonical form: addresses strictly rising, and no byte listed that an unlisted address reads as. -/
def MemoriesWf (s : State) : Prop := Memory.wf s.mem = true

/-- Table 3-13: the instructions that compute cores alone have. -/
def computeOnly : Instr → Bool
  | .bara .. | .barw .. | .bars .. | .tdisp _ | .svc _ | .svcMb _ | .yield _ | .safe _ | .exit _ | .shfl .. | .bcst _ | .vote ..
  | .lred .. | .lscan .. | .match _ | .elect _ | .cpy .. | .gth _ | .ewait _ | .cpySeal _ | .cpyOpen _ | .dbell .. | .trqRead _
  | .mboxRead _ | .mbrplWrite _ | .rdth _ | .wrth _ | .wake _ | .park _ | .irqbBind _ | .irqbUnbind _ | .mma .. | .tmov .. | .quant _
  | .mwait _ | .mwaitAll _ | .talloc .. | .tfree _ | .thdr .. | .thdrCtl _ | .thset .. | .thsetCtl _ | .ldt .. | .stt .. => true
  | _ => false

/-- The instructions of level S that are present on compute cores (Table 3-13). -/
def levelS : Instr → Bool
  | .cpySeal _ | .cpyOpen _ | .trqRead _ | .mboxRead _ | .mbrplWrite _ | .tlbiPage _ | .tlbiCtx _ | .tlbiAll _ | .rdth _ | .wrth _
  | .wake _ | .park _ | .irqbBind _ | .irqbUnbind _ | .selft _ => true
  | _ => false

/-- The instructions of level M: on every core, and on the management core alone. -/
def levelM : Instr → Bool
  | .eret _ | .bind _ => true
  | _ => false

def managementOnly : Instr → Bool
  | .hashb .. | .hashf .. | .ecver _ | .ecsig _ | .mext .. | .mread .. => true
  | _ => false

end Sys2Proof.Claims
end

