-- ==== Sys2Proof/Certificates/Slice0/Obligations.lean ====
section
/-! DEFINITION. The statements for the provers, in the terms of Safety.lean. -/

open Sys2Proof Sys2Proof.Machine Sys2Proof.Claims

/-- Every integer instruction of one word result, in every form, writes its value to its destination and to L1, raises its
flags and goes on to the next instruction (R137–R151); with N the destination register stays (R135). -/
def Obligations.IntegerWordCompletes : Prop :=
  ∀ (s : State) (h : Hart) (i : Instr) (r : WordResult), Turn s h → intWord s h i = some r →
    Named s h (r.uses ++ r.f.dst .w32) → exec i s = .next (done h i s (r.state h s))

/-- Every integer instruction of a pair result completes the same way. -/
def Obligations.IntegerPairCompletes : Prop :=
  ∀ (s : State) (h : Hart) (i : Instr) (r : PairResult), Turn s h → intPair s h i = some r →
    Named s h (r.uses ++ r.f.dst .pair) →
    exec i s = .next (done h i s (s.putPair h r.f.dest r.val (s.opsPoison h r.uses)))

/-- Every floating-point instruction and special function, in every form, completes with its result (R155–R162). How FEXP2, FLOG2,
FSINT and FCOST round is what the model presumes (log 15). -/
def Obligations.FloatCompletes : Prop :=
  ∀ (s : State) (h : Hart) (i : Instr) (r : WordResult), Turn s h → floatWord s h i = some r →
    Named s h (r.uses ++ r.f.dst .w32) → exec i s = .next (done h i s (r.state h s))

/-- A thread whose mask names its own lane alone completes its cross-lane instruction at once, whichever it is: the window
is emptied, the flags of its chain raised, and the result of a group of one written and pushed, poisoned where a is, but for
an exclusive scan, or where the b of SHFL and BCST is (R164–R166, R169, R170). A thread whose mask names other lanes too and whose row has
no open group for its lane opens one and parks; one that joins an open group which still waits
for another lane parks in it; the one whose arrival completes the group takes the result of its instruction over all the members and
goes on, and every other member wakes with its own. What a member's result is where the members come with different operations or widths
is the model's choice (log 16: R165 to R169 say nothing of such a group). -/
def Obligations.LoneLaneCompletes : Prop :=
  (∀ (s : State) (c t : Nat) (i : Instr) (x : CrossLane), UserTurn s c t → crossLane i = some x →
    Named s (.user c t) x.uses → FreeLane s c t →
    s.opPair (.user c t) x.f.c = BitVec.ofNat 64 (2 ^ (t % 64)) → s.opPoison (.user c t) x.f.c .pair = false →
    ∃ u, exec i s = .next u ∧
      u.thread (.user c t) =
        (let h : Hart := .user c t
         let r := aloneResult (t % 64) (if x.aw = .pair then (s.opPair h x.f.a).lo else s.op32 h x.f.a)
           (s.opPair h x.f.a) (s.fmode h) i
         let p := (r.2.1 && s.opPoison h x.f.a x.aw) || (x.hasB && s.opPoison h x.f.b .w32)
         let th := ((s.thread h).clearWindow).raise r.2.2
         let th := if x.dw = .pair then th.putPair x.f.dest r.1 p else th.put32 x.f.dest r.1.lo p
         { th with pc := nextPc s h i, age := 0 }) ∧
      (u.core c).groups = (s.core c).groups ∧ u.mem = s.mem) ∧
  (∀ (s : State) (c t : Nat) (i : Instr) (x : CrossLane) (g : XGroup), UserTurn s c t → crossLane i = some x →
    let h : Hart := .user c t
    let row := 1 + t / 64
    let me := memberOf s h i x
    let ms := insertMember me g.members
    Named s h x.uses →
    (∀ q ∈ maskTraps (s.core c) c row (t % 64) (s.opPair h x.f.c) (s.opPoison h x.f.c .pair), q.1 = false) →
    (s.core c).groups.find? (fun g => g.row == row && g.mask.getLsbD (t % 64)) = some g →
    (∀ g' ∈ (s.core c).groups, g'.row = row → ∀ m ∈ g'.members, m.lane ≠ t % 64) →
    ((∃ l, l < 64 ∧ g.mask.getLsbD l = true ∧ ∀ m ∈ ms, m.lane ≠ l) →
      exec i s = .next (parkedAt h i s (s.modCore c (fun k =>
        { k with groups := joinGroup row (s.opPair h x.f.c) me (s.core c).groups })) .xlane)) ∧
    ((∀ l, l < 64 → g.mask.getLsbD l = true → ∃ m ∈ ms, m.lane = l) → (ms.map (·.lane)).Nodup →
      (∀ m ∈ ms, (memberResult ms m).isSome = true) →
      ∃ u, exec i s = .next u ∧ u.mem = s.mem ∧
        (∀ r, memberResult ms me = some r → u.thread h = { (s.thread h).takeX me.dst r with pc := nextPc s h i, age := 0 }) ∧
        (∀ m ∈ g.members, ∀ r, memberResult ms m = some r →
          let o := s.thread (hartAt c row m.lane)
          u.thread (hartAt c row m.lane) = { o.takeX m.dst r with run := .ready, pc := o.npc, age := 0 }) ∧
        (u.core c).groups = (joinGroup row (s.opPair h x.f.c) me (s.core c).groups).filter (· ≠ { g with members := ms }))) ∧
  (∀ (s : State) (c t : Nat) (i : Instr) (x : CrossLane), UserTurn s c t → crossLane i = some x →
    let h : Hart := .user c t
    let row := 1 + t / 64
    let mask := s.opPair h x.f.c
    Named s h x.uses →
    (∀ q ∈ maskTraps (s.core c) c row (t % 64) mask (s.opPoison h x.f.c .pair), q.1 = false) →
    (∀ g ∈ (s.core c).groups, g.row = row → g.mask.getLsbD (t % 64) = false ∧ ∀ m ∈ g.members, m.lane ≠ t % 64) →
    (∃ l, l < 64 ∧ l ≠ t % 64 ∧ mask.getLsbD l = true) →
    exec i s = .next (parkedAt h i s (s.modCore c (fun k =>
      { k with groups := k.groups ++ [⟨row, mask, [memberOf s h i x]⟩] })) .xlane))

/-- A load in any form, at an address that passes its checks and whose place is memory, writes what the memory model
returns to its destination and goes on (R199, R224, R228; LD.sc: the sum of the cell, R101, R226). A load from control space
returns the register, and a load through an open window to a peer module joins the requests that its core sends, one of the management
core going out at once at the peer's bus address, and holds its thread until the answer (R263, R369). A load waits while its core has no
request free (R10), and where it returns bytes from beneath stores that must themselves follow another load's (the model's reading of R195
and R196, log 107). -/
def Obligations.LoadCompletes : Prop :=
  (∀ (s s1 : State) (h : Hart) (i : Instr) (f : Fields) (m : MemMod) (p : Place) (key : Nat), Turn s h →
     ldForm i = some (f, m) → Named s h (ldUses f m) → AddrOk s h f (sizeBytes m.size) false →
     s.place h .load (s.addrOf h f).toNat = (.at p key, s1) → Readable s1 p → s1.requestWaits h p = false →
     s1.loadWaits h p (sizeBytes m.size) = false →
     exec i s = .next (done h i s (loaded s s1 h f m p key))) ∧
  (∀ (s s1 : State) (h : Hart) (i : Instr) (f : Fields) (m : MemMod) (key : Nat), Turn s h →
     ldForm i = some (f, m) → Named s h (ldUses f m) → AddrOk s h f (sizeBytes m.size) false →
     (∀ off, s.place h .load (s.addrOf h f).toNat = (.at (.ctl off) key, s1) →
       let a := loadAccess s h f m
       let r := s1.ioRead off (sizeBytes m.size)
       exec i s = .next (done h i s ((r.2.modThread h (fun th => { th with mv := r.2.learnAt h (.ctl off) a.acquire th.mv })).modThread h
         (loadResult a m.sx m.sc (natBytes (sizeBytes m.size) r.1.toNat) false)))) ∧
     (∀ pa w, s.place h .load (s.addrOf h f).toNat = (.at (.dev pa) key, s1) → isPeer pa = true →
       s1.peerWindow? pa = some w → s1.requestWaits h (.dev pa) = false → s1.loadWaits h (.dev pa) (sizeBytes m.size) = false →
       exec i s = .next (done h i s ((s1.modIo (fun io =>
         { io with peers := io.peers ++ [⟨h, loadAccess s h f m, pa, s1.ownBytes h pa (sizeBytes m.size), false⟩] })).noteLoad h pa m.sc)) ∧
       ∀ u, exec i s = .next u → u.peerHeld h = true ∧
         (h = .mgmt → u.out = s1.out ++ [.peerRead (w / 32) (s1.peerBus w (16 * (pa / 16))) 16])))

/-- A store that passes its checks enters the thread's store queue with the bytes of its data, least significant first, at
its place, and goes on (R198, R229); one to control space that orders nothing, or whose earlier accesses are done, writes the
register (R202, R369), where poisoned data mark the words that they write of a message to be sent (log 130). -/
def Obligations.StoreCompletes : Prop :=
  ∀ (s s1 : State) (h : Hart) (f : DF) (m : MemMod) (p : Place) (key : Nat), Turn s h →
    let n := sizeBytes m.size
    let d : Opd := .reg f.fields.d
    Named s h (addrUses f.fields ++ [(d, dataW n)]) → AddrOk s h f.fields n true →
    (s.opPoison h d (dataW n) = true → m.psn = true) →
    s.place h .store (s.addrOf h f.fields).toNat = (.at p key, s1) →
    ((∀ off, p ≠ .ctl off) → s1.queueFull h = false →
      exec (.st f m) s = .next (done h (.st f m) s ((s1.enqueue h p key (natBytes n (s.opData h d n).toNat)
        (s.opPoison h d (dataW n)) (if m.ord && m.scope ≠ .core then some m.scope else none)).modThread h id))) ∧
    (∀ off, p = .ctl off → (m.ord = true → m.scope ≠ .core → s1.orderHome h = true) →
      ((s1.thread h).mv.fencedRel.isSome = true → s1.releaseReady h (s1.thread h).mv.fenceOrd (s1.thread h).mv.fenceSeq = true) →
      exec (.st f m) s = .next (done h (.st f m) s ((s1.ioWrite .management off n ((s.opData h d n).setWidth 64)).markMsend off n
        (s.opPoison h d (dataW n)))))

/-- ATOM, CAS and RED that pass their checks, once the stores they must read have taken effect, a request of their core is free (R10) and
none of its stores must first follow another load's (log 107), act at the home of their granule and go on; ATOM and CAS return the old value with its mark (R212, R245–R247). RED.sc.fadd of a finite value adds it
to the 16-byte cell at its home and leaves its mark; a NaN or an infinity raises IV and adds nothing (R98–R100, R247). That a RED
acts in the step that issues it is log 49, and that these act on control space as a read and then a write is log 56. -/
def Obligations.AtomicCompletes : Prop :=
  (∀ (s s1 : State) (h : Hart) (i : Instr) (r : Rmw) (p : Place) (key : Nat), Turn s h → rmwForm s h i = some r →
     let n := szBytes r.m.sz
     Named s h (addrUses r.f ++ [(r.f.c, dataW n)] ++ r.uses) → AddrOk s h r.f n true →
     s.opPoison h r.f.c (dataW n) = false → r.dPoison = false →
     s.place h .atomic (s.addrOf h r.f).toNat = (.at p key, s1) →
     s1.atomReady h p (relScope (s1.thread h) (if r.ordered && ordRel r.m.ord then some r.m.scope else none)) = true →
     s1.atomicWaits h p n = false → s1.requestWaits h p = false →
     exec i s = .next (done h i s (rmwDone s1 h r p key))) ∧
  (∀ (s s1 : State) (h : Hart) (f : DF) (m : SyncMod) (p : Place) (key : Nat), Turn s h → m.sc = true →
     Named s h (addrUses f.fields ++ [(f.fields.c, .w32)]) → AddrOk s h f.fields 16 true →
     s.opPoison h f.fields.c .w32 = false → s.place h .atomic (s.addrOf h f.fields).toNat = (.at p key, s1) →
     let x := s.opFloat h .f32 f.fields.c
     ((∃ a b c, fF32.decode x.toNat = .fin a b c) → s1.atomReady h p (relScope (s1.thread h) none) = true →
       s1.atomicWaits h p 16 = false → s1.requestWaits h p = false →
       let q := (s1.noteAtomic h p).homeRead h p key 16
       exec (.red f m) s = .next (done h (.red f m) s
         ((q.2.2.modThread h (fun th => { th with mv := q.2.2.learnAt h p none th.mv })).homeStore h p key
           (natBytes 16 (cellAdd (bytesVal q.1) x).toNat) q.2.1))) ∧
     ((∀ a b c, fF32.decode x.toNat ≠ .fin a b c) →
       exec (.red f m) s = .next (done h (.red f m) s (s1.raise h flIV))))

/-- PREF, CINV and CWB whose address is not poisoned change nothing and go on, a PREF of a page that is resident with its
granule among those that the requests of its issue group will cover, once its core has a request free (R10, R226, R234). FENCE completes once what it waits for is done: with .eng every engine operation of the thread, with acqrel the stores of its
scope. An acquire raises the thread's view, a release of a wider scope is remembered for the stores that follow, and a fence
wider than core empties the window (R202, R206, R211, R248). -/
def Obligations.HintsAndFencesComplete : Prop :=
  (∀ (s : State) (h : Hart) (f : DF) (z : Size), Turn s h → Named s h (addrUses f.fields) → Clean (s.addrPoison h f.fields) →
     (PrefFree s h f.fields (sizeBytes z) →
       exec (.pref f z) s = .next (done h (.pref f z) s (prefNoted s h f.fields (sizeBytes z)))) ∧
     exec (.cinv f z) s = .next (done h (.cinv f z) s s) ∧
     exec (.cwb f z) s = .next (done h (.cwb f z) s s)) ∧
  (∀ (s : State) (h : Hart) (f : DF) (m : SyncMod), Turn s h →
     (m.eng = true → (s.coreOf h).engineIdle h.key = true) →
     let s0 := if m.eng then s.takeEngine h else s
     (m.ord = .acqrel → (if m.scope ≠ .core ∨ h = .mgmt then s0.orderHome h else (s0.thread h).storeQ.isEmpty) = true) →
     exec (.fence f m) s = .next (done h (.fence f m) s (fenced s0 h m)))

/-- WAITV of a place in memory: a value that differs from c is returned at once into an emptied window; an equal one parks
the thread (R249). As for a load, it performs once its core has a request free and no store that it lies beneath must wait (log 107). -/
def Obligations.WaitvCompletes : Prop :=
  ∀ (s s1 : State) (h : Hart) (f : DF) (m : SyncMod) (p : Place) (key : Nat), Turn s h →
    let n := szBytes m.sz
    Named s h (addrUses f.fields ++ [(f.fields.c, dataW n)] ++ f.fields.dst (dataW n)) → AddrOk s h f.fields n false →
    s.opPoison h f.fields.c (dataW n) = false →
    s.place h .waitv (s.addrOf h f.fields).toNat = (.at p key, s1) → (∀ off, p ≠ .ctl off) → s1.requestWaits h p = false →
    s1.loadWaits h p n = false →
    let q := (s1.noteAtomic h p).loadBytes h p key n (if ordAcq m.ord && m.scope ≠ .core then some m.scope else none) true
    (bytesVal q.1 ≠ s.opData h f.fields.c n →
      exec (.waitv f m) s = .next (done h (.waitv f m) s (q.2.2.modThread h (fun th =>
        th.clearWindow.putData f.fields.dest n false (bytesVal q.1) q.2.1)))) ∧
    (bytesVal q.1 = s.opData h f.fields.c n →
      ∃ u, exec (.waitv f m) s = .next u ∧ ∃ a, (u.thread h).run = .parked (.waitv a))

/-- Every transfer that is taken, to a legal target from sources that are not poisoned, goes there; CALL writes the address
of the next instruction to its link pair and pushes it (R295). -/
def Obligations.TransferCompletes : Prop :=
  ∀ (s : State) (h : Hart) (i : Instr) (f : Fields) (x : Transfer), Turn s h → transferOf s h i = some (f, x) →
    Named s h (x.uses ++ x.dst f) → s.opsPoison h x.uses = false → TargetOk x.target →
    exec i s = .next (jumped h s (match x.link with
      | some d => s.putPair h d (nextPc s h i) false
      | none => s) x.target)

/-- A branch whose condition does not hold goes on to the next instruction; that it forms no target and so meets no condition of one,
whatever its offset, is the model's reading of R295 (log 60). NOP in each form has no effect, for a hart and for a supervisor group (R296). -/
def Obligations.BranchNotTakenAndNop : Prop :=
  (∀ (s : State) (h : Hart) (f : DF) (nz : Bool), Turn s h → (s.op32 h f.fields.a = 0 ↔ nz = true) →
    Named s h [(f.fields.a, .w32), (f.fields.b, .w32)] → s.opsPoison h [(f.fields.a, .w32), (f.fields.b, .w32)] = false →
    exec (.br f nz) s = .next (done h (.br f nz) s s)) ∧
  (∀ (s : State) (h : Hart) (f : DF), Turn s h →
    exec (.nop f) s = .next (done h (.nop f) s s) ∧ exec .nopW s = .next (done h .nopW s s)) ∧
  (∀ (s : State) (c : Nat) (f : DF), GroupTurn s c →
    exec (.nop f) s = .next (groupDone c (.nop f) s s) ∧ exec .nopW s = .next (groupDone c .nopW s s))

/-- SVC and TRAP of a user thread trap with SVC_CALL and TRAP_INSN, TVAL = b and EPC the next instruction, whether or not b
is poisoned (R311, R46). -/
def Obligations.CallsTrap : Prop :=
  ∀ (s : State) (c t : Nat) (f : DF), UserTurn s c t → t < 960 → Named s (.user c t) [(f.fields.b, .w32)] →
    (∃ u, exec (.svc f) s = .next u ∧
      TrapEntered s u c t .svcCall ((s.op32 (.user c t) f.fields.b).setWidth 64) (nextPc s (.user c t) (.svc f))) ∧
    (∃ u, exec (.trap f) s = .next u ∧
      TrapEntered s u c t .trapInsn ((s.op32 (.user c t) f.fields.b).setWidth 64) (nextPc s (.user c t) (.trap f)))

/-- A trap on the management core with ACTIVE clear sets its registers and continues at MTVEC; with ACTIVE set it halts the
core and logs the second cause; ERET returns to EPC and clears ACTIVE; and the TRAP instruction there takes such a trap (R48). -/
def Obligations.ManagementTraps : Prop :=
  ∀ (s : State) (cause : Cause) (v : Pair) (epc : BitVec 64),
    (s.mgmt.thread.causeActive = false →
      (s.takeTrap .mgmt cause v epc).mgmt = { s.mgmt with loaded := [], thread := { s.mgmt.thread with
        causeActive := true, causeCode := cause.code, epc, tval := v, latches := noLatches, pc := s.mgmt.mtvec, run := .ready
        age := 0 } }) ∧
    (s.mgmt.thread.causeActive = true →
      (s.takeTrap .mgmt cause v epc).mgmt = { s.mgmt with halted := true } ∧
      (s.takeTrap .mgmt cause v epc).errors.elp = s.errors.elp + 1 ∧
      bget (mget 0 (s.takeTrap .mgmt cause v epc).errors.log (s.errors.elp.toNat % 256)) 208 8 = cause.code.toNat) ∧
    (MgmtTurn s → ∀ f, Named s .mgmt [(f.fields.b, .w32)] → s.mgmt.thread.causeActive = false →
      exec (.trap f) s = .next (s.takeTrap .mgmt .trapInsn ((s.op32 .mgmt f.fields.b).setWidth 64)
        (nextPc s .mgmt (.trap f)))) ∧
    (MgmtTurn s → ∀ f, ∃ u, exec (.eret f) s = .next u ∧
      u.mgmt = { s.mgmt with thread := { s.mgmt.thread with pc := s.mgmt.thread.epc, causeActive := false, age := 0 } } ∧
      u.cores = s.cores ∧ u.mem = s.mem)

/-- YIELD and TDISP of a user thread park it, its window emptied, with no result yet, a TDISP's claim last among its core's
(R282, R297, R298, R309); the request of SVC.mb enters the mailbox and its thread parks once its stores have left and there is room (R312). -/
def Obligations.ParksComplete : Prop :=
  ∀ (s : State) (c t : Nat) (f : DF), UserTurn s c t → t < 960 →
    exec (.yield f) s = .next (parkedAt (.user c t) (.yield f) s s .yield) ∧
    (Named s (.user c t) (f.fields.dst .quad) →
      exec (.tdisp f) s = .next (parkedAt (.user c t) (.tdisp f) s
        (s.modCore c (fun k => { k with claims := k.claims.filter (· ≠ t) ++ [t] })) (.tdisp f.fields.dest))) ∧
    (Named s (.user c t) ([(f.fields.b, .w32), (f.fields.c, .w32)] ++ f.fields.dst .w32) →
      s.opsPoison (.user c t) [(f.fields.b, .w32), (f.fields.c, .w32)] = false →
      (s.thread (.user c t)).storeQ = [] → (s.core c).mbox.length < 32 →
      let code : BitVec 16 := (s.op32 (.user c t) f.fields.b).setWidth 16
      let arg := s.op32 (.user c t) f.fields.c
      ∃ u, exec (.svcMb f) s = .next u ∧ (u.core c).mbox = (s.core c).mbox ++ [⟨t, code, arg⟩] ∧
        u.thread (.user c t) = { s.thread (.user c t) with
          latches := noLatches, run := .parked (.svcMb code arg f.fields.dest), npc := nextPc s (.user c t) (.svcMb f), age := 0 } ∧
        ((s.core c).supIdle = true → ∀ l, l < 64 → (u.thread (.sup c l)).run = .ready))

/-- BARA by a user thread that meets no condition of R299 and R301, once its earlier accesses are performed at the barrier's
scope, is one arrival, and the thread goes on; an arrival at a barrier of the workgroup counts by one, and the one that
completes the phase advances it, empties the count and starts the next phase with none arrived (R301); what the arriving
threads know of memory goes on to those that wait (R214). That the arrival counts in the step that executes BARA is log 57. -/
def Obligations.BarrierArrivalCompletes : Prop :=
  ∀ (s : State) (c t : Nat) (w : Workgroup) (f : DF) (lvl : BitVec 4), UserTurn s c t →
    let h : Hart := .user c t
    let b := (s.op32 h f.fields.b).toNat
    let n := (s.op32 h f.fields.c).toNat
    Named s h [(f.fields.b, .w32), (f.fields.c, .w32)] → s.opsPoison h [(f.fields.b, .w32), (f.fields.c, .w32)] = false →
    ScopeOk s c t w b lvl.toNat → CountOk s c b lvl.toNat n → s.barReady h b = true →
    exec (.bara f lvl) s = .next (done h (.bara f lvl) s (s.arriveBar h c b lvl.toNat n)) ∧
    (b < 16 → (s.arriveBar h c b lvl.toNat n).barrier c b lvl.toNat =
      (let x := s.barrier c b lvl.toNat
       let v := Nat.max x.view (s.thread h).mv.floor
       if x.arrivals + 1 = n then { phase := x.phase + 1, count := none, arrivals := 0, view := 0, doneView := Nat.max x.doneView v }
       else { x with count := some n, arrivals := x.arrivals + 1, view := v }))

/-- BARW and BARS by a user thread: the wait ends at once where its target phase has completed, else the thread parks with
that target; BARS is the arrival and then the wait (R302, R303), the arrival counting in the step that executes it (log 57). BARW waits on
barriers 24 to 31 as well where an entry of the interrupt binding table binds them, and traps with BAR_SCOPE where none does (R302). -/
def Obligations.BarrierWaitCompletes : Prop :=
  ∀ (s : State) (c t : Nat) (w : Workgroup) (f : DF) (lvl : BitVec 4), UserTurn s c t →
    let h : Hart := .user c t
    let b := (s.op32 h f.fields.b).toNat
    let n := (s.op32 h f.fields.c).toNat
    let ends (s' : State) : Prop := phaseDone (s'.barrier c b lvl.toNat).phase (waitTarget s' c t b) = true
    let held (i : Instr) (s' : State) : State := parkedAt h i s (s'.modThread h (·.useLevel b lvl.toNat))
      (.barrier b lvl.toNat (waitTarget s' c t b))
    (Named s h [(f.fields.b, .w32)] → s.opsPoison h [(f.fields.b, .w32)] = false → WaitScopeOk s c t w b lvl.toNat →
      (ends s → exec (.barw f lvl) s = .next (done h (.barw f lvl) s (waited s c t b lvl.toNat))) ∧
      (¬ends s → exec (.barw f lvl) s = .next (held (.barw f lvl) s))) ∧
    (Named s h [(f.fields.b, .w32)] → s.opPoison h f.fields.b .w32 = false → t < 960 → 24 ≤ b → b ≤ 31 → s.irqBound c b = false →
      ∃ u, exec (.barw f lvl) s = .next u ∧ TrapEntered s u c t .barScope (BitVec.ofNat 64 b) (s.pc h)) ∧
    (Named s h [(f.fields.b, .w32), (f.fields.c, .w32)] → s.opsPoison h [(f.fields.b, .w32), (f.fields.c, .w32)] = false →
      ScopeOk s c t w b lvl.toNat → CountOk s c b lvl.toNat n → s.barReady h b = true →
      let s' := s.arriveBar h c b lvl.toNat n
      (ends s' → exec (.bars f lvl) s = .next (done h (.bars f lvl) s (waited s' c t b lvl.toNat))) ∧
      (¬ends s' → exec (.bars f lvl) s = .next (held (.bars f lvl) s')))

/-- SAFE n: without effect in a workgroup that is not armed, in a save routine, and in a supervisor group; else the thread goes
to the SAVE offset of entry n with the resume point in L2 and its save area in L1, aligned, at a base that the firmware chooses for
the queue (log 22). An n that has no entry traps with SAFE_INDEX (R313). EXIT ends a user thread that is in no save routine; in one of an armed workgroup it leaves the thread stopped with its
routine finished; in one of a workgroup that is not armed, or of a thread restored inside it, the thread starts its restore routine. The supervisor group's EXIT
goes on with empty windows where an item waits for it and parks all its lanes where none does (R36, R315); it ends the agent's service of
a pre-emption request that it took (log 112), and which item it takes is log 23. -/
def Obligations.SafeAndExitComplete : Prop :=
  ((∀ (s : State) (c t : Nat) (w : Workgroup) (f : DF), UserTurn s c t → (s.core c).wg = some w →
     let h : Hart := .user c t
     let n := (s.op32 h f.fields.b).toNat
     let armed : Prop := w.preempt = .armed ∨ w.preempt = .forced true
     (∀ sp, w.safe[n]? = some sp → ¬armed ∨ (s.thread h).save.phase = .inside →
       exec (.safe f) s = .next (done h (.safe f) s s)) ∧
     (∀ sp, w.safe[n]? = some sp → armed → (s.thread h).save.phase ≠ .inside →
       ∃ u, exec (.safe f) s = .next u ∧ (s.saveArea w t).toNat % 16 = 0 ∧ (s.saveArea w t).toNat < 2 ^ 60 ∧
         (u.thread h).pc = w.hdr + BitVec.ofNat 64 sp.save ∧
         (u.thread h).latches = some ⟨s.saveArea w t, true, false⟩ :: some ⟨nextPc s h (.safe f), true, false⟩ ::
           [none, none, none, none, none, none] ∧
         (u.thread h).save = { phase := .inside, entry := n, resume := nextPc s h (.safe f), area := s.saveArea w t } ∧
         (u.thread h).regs = (s.thread h).regs ∧ u.mem = s.mem) ∧
     (w.safe[n]? = none → exec (.safe f) s =
       .next (s.takeTrap h .safeIndex (BitVec.ofNat 64 n) (s.pc h)))) ∧
   (∀ (s : State) (c : Nat) (f : DF), GroupTurn s c → exec (.safe f) s = .next (groupDone c (.safe f) s s))) ∧
  ((∀ (s : State) (c t : Nat) (w : Workgroup) (f : DF), UserTurn s c t → t < 960 → (s.core c).wg = some w →
     let h : Hart := .user c t
     let armed : Prop := w.preempt = .armed ∨ w.preempt = .forced true
     ((s.thread h).save.phase ≠ .inside → ∃ u, exec (.exit f) s = .next u ∧ (u.thread h).run = .exited ∧
       (u.thread h).regs = (s.thread h).regs ∧ (u.thread h).storeQ = (s.thread h).storeQ ∧ u.mem = s.mem) ∧
     ((s.thread h).save.phase = .inside → armed → (s.thread h).save.again = false → ∃ u, exec (.exit f) s = .next u ∧
       (u.thread h).stopped = true ∧ (u.thread h).save.phase = .finished ∧ (u.thread h).regs = (s.thread h).regs) ∧
     ((s.thread h).save.phase = .inside → ¬armed ∨ (s.thread h).save.again = true → ∃ u, exec (.exit f) s = .next u ∧
       (u.thread h).pc = w.hdr + BitVec.ofNat 64 (((w.safe[(s.thread h).save.entry]?).map (·.restore)).getD 0) ∧
       (u.thread h).save.phase = .none ∧
       (u.thread h).latches = some ⟨(s.thread h).save.area, true, false⟩ :: some ⟨(s.thread h).save.resume, true, false⟩ ::
         [none, none, none, none, none, none])) ∧
   (∀ (s : State) (c : Nat) (f : DF), GroupTurn s c →
     ((s.core c).trq ≠ [] ∨ (s.core c).mbox ≠ [] ∨ (s.core c).events ≠ [] →
       ∃ u, exec (.exit f) s = .next u ∧ (u.core c).supPc = (s.core c).supPc + BitVec.ofNat 64 (Instr.exit f).len ∧
         (u.core c).trq = (s.core c).trq ∧ (u.core c).mbox = (s.core c).mbox ∧
         (u.core c).events = (if (s.core c).events.any (·.first) = true then (s.core c).events.eraseP (·.first)
           else if (s.core c).trq = [] ∧ (s.core c).mbox = [] then (s.core c).events.drop 1 else (s.core c).events) ∧
         (∀ l, l < 64 → u.thread (.sup c l) = (s.thread (.sup c l)).clearWindow) ∧
         (∀ t, t < 960 → u.thread (.user c t) = s.thread (.user c t)) ∧ (u.core c).wg = (s.core c).endService.wg ∧ u.mem = s.mem) ∧
     ((s.core c).trq = [] → (s.core c).mbox = [] → (s.core c).events = [] →
       ∃ u, exec (.exit f) s = .next u ∧ (∀ l, l < 64 → (u.thread (.sup c l)).run = .parked .supIdle) ∧
         (u.core c).supPc = (s.core c).supPc + BitVec.ofNat 64 (Instr.exit f).len ∧ (u.core c).wg = (s.core c).endService.wg)))

/-- RDSR and WRSR of every special register that the hart may access complete with the value and the effect of R40, R41 and
R336, on a user thread, on the management core and on a supervisor group; a WRSR of a read-only register traps with SR_RO, its number in TVAL. What a hart
reads of its own registers after it has written `v` to them: FMODE keeps 3 bits, FLAGS 7, QPCT 14 and clamps at 10,000, CODE keeps 8 bits beside ACTIVE, EPC drops bit 0 and bits 63:60, TVAL keeps all (R40, R41). -/
def Obligations.SpecialRegistersComplete : Prop :=
  (∀ (f : DF) (sr : BitVec 12),
     SingleCompletes (.rdsr f sr) (fun h s => SrAllowed h sr.toNat ∧ Named s h (f.fields.dst (srWidth sr.toNat)))
       (rdsrEff f.fields sr.toNat) ∧
     GroupCompletes (.rdsr f sr) (fun h s => SrAllowed h sr.toNat ∧ Named s h (f.fields.dst (srWidth sr.toNat)))
       (rdsrEff f.fields sr.toNat) ∧
     SingleCompletes (.wrsr f sr) (WrsrOk f.fields sr.toNat) (wrsrEff f.fields sr.toNat) ∧
     GroupCompletes (.wrsr f sr) (WrsrOk f.fields sr.toNat) (wrsrEff f.fields sr.toNat)) ∧
  (∀ (s : State) (h : Hart) (v : Pair) (n : Nat) (s' : State), s.writeSr h n v = .ok s' →
     (n = 0x000 → s'.readSr h n = v &&& 7) ∧ (n = 0x001 → s'.readSr h n = v &&& 0x7F) ∧
     (n = 0x003 → (s'.readSr h n).toNat = Nat.min 10000 (v.toNat % 2 ^ 14)) ∧
     (n = 0x400 → s'.readSr h n = (v &&& 0xFF) ||| (if (s.thread h).causeActive then 0x80000000 else 0)) ∧
     (n = 0x401 → s'.readSr h n = v &&& 0x0FFFFFFFFFFFFFFE) ∧ (n = 0x402 → s'.readSr h n = v)) ∧
  (∀ (s : State) (c t : Nat) (f : DF), UserTurn s c t → t < 960 → Named s (.user c t) [(f.fields.b, .w32)] →
     ∃ u, exec (.wrsr f 0x002) s = .next u ∧ TrapEntered s u c t .srRo 0x002 (s.pc (.user c t))) ∧
  (∀ (s : State) (c : Nat) (f : DF), ∀ sr ∈ [(0x002 : BitVec 12), 0x405, 0x408], GroupTurn s c → (s.core c).status = .running →
     (∀ l, l < 64 → Named s (.sup c l) [(f.fields.b, srWidth sr.toNat)]) →
     ∃ u, exec (.wrsr f sr) s = .next u ∧ GroupTrapped u c .srRo (sr.setWidth 64) (s.core c).supPc)

/-- The supervisor agent's own instructions complete in every lane of its group: the reads of TRQ and MBOX, a reply, RDTH,
WRTH, WAKE, PARK, IRQB, TLBI and SELFT (R42, R312, R338–R343, R354). The model's readings in it: each lane pops an entry of its own
of TRQ and MBOX (log 59), the corners of WRTH and WAKE (logs 60, 92), what holds a capture that RDTH makes (log 95), what a TLBI waits
for (log 17), and which indexes SELFT refuses (log 30). -/
def Obligations.AgentInstructionsComplete : Prop :=
  ∀ (f : DF),
    GroupCompletes (.trqRead f) (fun h s => Named s h (f.fields.dst .w32)) (trqEff f.fields) ∧
    GroupCompletes (.mboxRead f) (fun h s => Named s h (f.fields.dst .pair)) (mboxEff f.fields) ∧
    GroupCompletes (.mbrplWrite f) (fun h s => Sources s h [(f.fields.b, .pair)] [] ∧ (s.coreOf h).agentDrained = true)
      (replyEff f.fields) ∧
    GroupCompletes (.rdth f)
      (fun h s => Sources s h [(f.fields.b, .w32), (f.fields.c, .w32)] (f.fields.dst .w32) ∧ RdthOk f.fields h s)
      (rdthEff f.fields) ∧
    GroupCompletes (.wrth f) (fun h s => Sources s h [(f.fields.b, .w32), (f.fields.c, .w32), (.reg f.fields.d, .w32)] [])
      (wrthEff f.fields) ∧
    GroupCompletes (.wake f) (fun h s => Sources s h [(f.fields.b, .w32)] []) (wakeEff f.fields) ∧
    GroupCompletes (.park f) (fun h s => Sources s h [(f.fields.b, .w32)] []) (parkEff f.fields) ∧
    GroupCompletes (.irqbBind f) (fun h s => Sources s h [(f.fields.b, .w32), (f.fields.c, .w32)] (f.fields.dst .w32))
      (irqbEff true f.fields) ∧
    GroupCompletes (.irqbUnbind f) (fun h s => Sources s h [(f.fields.b, .w32)] (f.fields.dst .w32)) (irqbEff false f.fields) ∧
    GroupCompletes (.tlbiPage f) (TlbiOk .page f.fields) (tlbiEff .page f.fields) ∧
    GroupCompletes (.tlbiCtx f) (TlbiOk .ctx f.fields) (tlbiEff .ctx f.fields) ∧
    GroupCompletes (.tlbiAll f) (TlbiOk .all f.fields) (tlbiEff .all f.fields) ∧
    GroupCompletes (.selft f) (fun h s => Sources s h [(f.fields.b, .w32), (f.fields.c, .w32)] (f.fields.dst .w32))
      (selftEff f.fields)

/-- The instructions of the management core alone: TLBI and SELFT as the group's, BIND, HASHB, HASHF, ECVER, ECSIG, MEXT and
MREAD (R342, R375–R379); one that reads memory once its loads need not wait (R376). Which indexes SELFT refuses is log 30, what a TLBI waits for log 17. -/
def Obligations.ManagementInstructionsComplete : Prop :=
  ∀ (f : DF),
    MgmtCompletes (.tlbiPage f) (TlbiOk .page f.fields .mgmt) (tlbiEff .page f.fields .mgmt) ∧
    MgmtCompletes (.tlbiCtx f) (TlbiOk .ctx f.fields .mgmt) (tlbiEff .ctx f.fields .mgmt) ∧
    MgmtCompletes (.tlbiAll f) (TlbiOk .all f.fields .mgmt) (tlbiEff .all f.fields .mgmt) ∧
    MgmtCompletes (.selft f) (fun s => Sources s .mgmt [(f.fields.b, .w32), (f.fields.c, .w32)] (f.fields.dst .w32))
      (selftEff f.fields .mgmt) ∧
    MgmtCompletes (.bind f) (fun s => Sources s .mgmt [(f.fields.a, .quad), (f.fields.b, .w32)] (f.fields.dst .w32) ∧
      s.storesHome .mgmt = true) (bindEff f.fields) ∧
    (∀ k : BitVec 2, MgmtCompletes (.hashb f k)
      (fun s => Named s .mgmt [(f.fields.a, .pair), (f.fields.b, .w32), (f.fields.c, .w32)] ∧
        (let n := (s.op32 .mgmt f.fields.c).toNat
         let ps := s.addrPoison .mgmt f.fields ++ [(s.opPoison .mgmt f.fields.c .w32, 2)]
         s.secCheck (s.addrOf .mgmt f.fields) 1 n ((s.addrPoison .mgmt f.fields).any (·.1)) ps [(.load, (s.addrOf .mgmt f.fields).toNat, n)] = none ∧
           RecordReads s f.fields n))
      (fun s => let r := recordRead s f.fields (s.op32 .mgmt f.fields.c).toNat
        r.2.2.setHashCtx k.toNat ((r.2.2.hashCtx k.toNat).absorb r.1 r.2.1))) ∧
    (∀ k : BitVec 2, MgmtCompletes (.hashf f k)
      (fun s => Named s .mgmt (addrUses f.fields) ∧ RecordOk s f.fields 48 [(.store, (s.addrOf .mgmt f.fields).toNat, 48)] ∧
        s.storeRoom 48 = true)
      (fun s => (s.storeSpan (s.addrOf .mgmt f.fields).toNat (s.hashCtx k.toNat).digest (s.hashCtx k.toNat).poison).setHashCtx
        k.toNat hashEmpty)) ∧
    MgmtCompletes (.ecver f)
      (fun s => Named s .mgmt (addrUses f.fields ++ f.fields.dst .w32) ∧
        RecordOk s f.fields 240 [(.load, (s.addrOf .mgmt f.fields).toNat, 240)] ∧ RecordReads s f.fields 240 ∧ (recordRead s f.fields 240).2.1 = false)
      (fun s => (recordRead s f.fields 240).2.2.put32 .mgmt f.fields.dest
        (let m := (recordRead s f.fields 240).1
         if ecdsaVerify (octets48 m 0) (octets48 m 48) (octets48 m 96) (octets48 m 144) (octets48 m 192) then 1 else 0) false) ∧
    MgmtCompletes (.ecsig f)
      (fun s => Named s .mgmt (addrUses f.fields) ∧ RecordOk s f.fields 144
          [(.load, (s.addrOf .mgmt f.fields).toNat, 48), (.store, (s.addrOf .mgmt f.fields).toNat + 48, 96)] ∧
        s.storeRoom 96 = true ∧ RecordReads s f.fields 48 ∧ (recordRead s f.fields 48).2.1 = false)
      (fun s => (recordRead s f.fields 48).2.2.storeSpan ((s.addrOf .mgmt f.fields).toNat + 48)
        (ecdsaSign dik (recordRead s f.fields 48).1) false) ∧
    (∀ k : BitVec 3, MgmtCompletes (.mext f k)
      (fun s => Named s .mgmt (addrUses f.fields) ∧ RecordOk s f.fields 48 [(.load, (s.addrOf .mgmt f.fields).toNat, 48)] ∧
        RecordReads s f.fields 48 ∧ (recordRead s f.fields 48).2.1 = false)
      (fun s => let r := recordRead s f.fields 48
        r.2.2.setMeas k.toNat (sha384 (r.2.2.meas k.toNat ++ r.1)))) ∧
    (∀ k : BitVec 3, MgmtCompletes (.mread f k)
      (fun s => Named s .mgmt (addrUses f.fields) ∧ RecordOk s f.fields 48 [(.store, (s.addrOf .mgmt f.fields).toNat, 48)] ∧
        s.storeRoom 48 = true)
      (fun s => s.storeSpan (s.addrOf .mgmt f.fields).toNat (s.meas k.toNat) false))

/-- A supervisor group completes an instruction together where each lane, after those below it, completes its own part (R24). Shape by
shape: the integer and floating-point instructions of a word or a pair result, loads, stores, read-modify-writes, PREF, CINV, CWB and
FENCE, BARA (log 119), THDR and TFREE, LDT and STT; a transfer that all lanes take to one target goes there, and a copy by the last
lane still to do it is accepted (a core's engine has no entry for all 64, log 35). -/
def Obligations.GroupComputes : Prop :=
  (∀ (s : State) (c lvl : Nat) (p : Presence) (i : Instr) (lane : Hart → State → Res) (eff : Hart → State → State), GroupTurn s c →
    gate lvl p (.sup c) = none →
    (∀ l, l < 64 → lane (.sup c l) (lanesState eff c s l) = .ok (eff (.sup c l) (lanesState eff c s l))) →
    issue lvl p i lane s = .next (groupDone c i s (lanesState eff c s 64))) ∧
  (∀ (i : Instr), GroupCompletes i (fun h s => ∃ r, intPair s h i = some r ∧ Named s h (r.uses ++ r.f.dst .pair)) (pairEff i) ∧
    GroupCompletes i (LoadOk i) (loadEff i) ∧ GroupCompletes i (RmwOk i) (rmwEff i)) ∧
  (∀ (f : DF) (m : MemMod), GroupCompletes (.st f m) (StoreOk f.fields m) (storeEff f.fields m) ∧
    (m.wf = false → GroupCompletes (.ldt f m) (LdtOk f.fields m) (ldtEff f.fields m)) ∧
    GroupCompletes (.stt f m) (fun h s => ∃ x, SttOk f.fields m x h s) (sttEff f.fields m)) ∧
  (∀ (f : DF) (z : Size),
    let ok (h : Hart) (s : State) : Prop := Named s h (addrUses f.fields) ∧ Clean (s.addrPoison h f.fields)
    GroupCompletes (.pref f z) (fun h s => ok h s ∧ PrefFree s h f.fields (sizeBytes z)) (fun h s => prefNoted s h f.fields (sizeBytes z)) ∧
    GroupCompletes (.cinv f z) ok (fun _ s => s) ∧ GroupCompletes (.cwb f z) ok (fun _ s => s)) ∧
  (∀ (f : DF) (m : SyncMod),
    let s0 (h : Hart) (s : State) : State := if m.eng then s.takeEngine h else s
    GroupCompletes (.fence f m)
      (fun h s => (m.eng = true → (s.coreOf h).engineIdle h.key = true) ∧ (m.ord = .acqrel →
        (if m.scope ≠ .core then (s0 h s).orderHome h else ((s0 h s).thread h).storeQ.isEmpty) = true))
      (fun h s => fenced (s0 h s) h m)) ∧
  (∀ (f : DF) (lvl : BitVec 4) (k : BitVec 4),
    GroupCompletes (.bara f lvl) (BaraOk f.fields lvl.toNat) (baraEff f.fields lvl.toNat) ∧
    GroupCompletes (.thdr f k) (ThdrOk f.fields) (thdrEff k.toNat f.fields) ∧
    GroupCompletes (.tfree f) (fun h s => ∃ x, Sources s h [(f.fields.b, .w32)] [] ∧
      FreeTile s (h.core?.getD 0) (s.op32 h f.fields.b).toNat x) (tfreeEff f.fields)) ∧
  (∀ (s : State) (c : Nat) (i : Instr) (t : BitVec 64), GroupTurn s c → TargetOk t →
    (∀ l, l < 64 → TransferOk i t (.sup c l) (lanesState (linkEff i) c s l)) →
    exec i s = .next (groupJumped c t s (lanesState (linkEff i) c s 64))) ∧
  (∀ (s : State) (c l : Nat) (w : Workgroup) (f : DF) (col : Bool), s.cur = .sup c → (s.core c).lanesLeft = [l] →
    (∀ l' ∈ (s.core c).lanesDone, (s.thread (.sup c l')).run = .ready) →
    let h : Hart := .sup c l
    let a := s.opPair h f.fields.a
    let b := s.opPair h f.fields.b
    let x := s.op32 h f.fields.c
    let len := x.toNat % 2 ^ 24
    let ranges := memLock false b.toNat len ++ memLock true a.toNat len
    Sources s h [(f.fields.a, .pair), (f.fields.b, .pair), (f.fields.c, .w32)] (f.fields.dst .w32) → x.getLsbD 30 = false → 0 < len →
    (∀ y ∈ [a, a + BitVec.ofNat 64 (len - 1), b, b + BitVec.ofNat 64 (len - 1)], y.toNat < 2 ^ 60) →
    OpRoom s c (supKey l) w (.bytes a b len) ranges.length →
    ∃ u, exec (.cpy f col) s = .next u ∧ OpAccepted s u c (supKey l) f.fields w (.bytes a b len) ranges) ∧
  ∀ (i : Instr),
    GroupCompletes i (fun h s => ∃ r, intWord s h i = some r ∧ Named s h (r.uses ++ r.f.dst .w32))
      (fun h s => match intWord s h i with
        | some r => r.state h s
        | none => s) ∧
    GroupCompletes i (fun h s => ∃ r, floatWord s h i = some r ∧ Named s h (r.uses ++ r.f.dst .w32))
      (fun h s => match floatWord s h i with
        | some r => r.state h s
        | none => s)

/-- TALLOC of a header in memory that meets no condition makes the tile, clears its storage and returns where it lies (R126), whatever
the poison marks of the header's granules (log 85). TFREE, THDR, THSET and their control forms on a tile that nothing uses: the tile goes; a word of its header, or its control
word, is returned; a word of its header, or its wildcard bits, change under the mask of c (R127–R129). -/
def Obligations.TileTableInstructionsComplete : Prop :=
  (∀ (s s1 : State) (c t : Nat) (f : DF) (md : AllocMod) (p : Place) (key base span : Nat), UserTurn s c t →
     let h : Hart := .user c t
     let hn := (s.op32 h f.fields.c).toNat
     Named s h (addrUses f.fields ++ [(f.fields.c, .w32)] ++ f.fields.dst .w32) →
     Clean (s.addrPoison h f.fields) → s.opPoison h f.fields.c .w32 = false →
     s.checkGranules h (s.addrOf h f.fields) 64 4 false (s.addrPoison h f.fields) = (.at p key, s1) → s1.granulesWait h p 4 = false →
     let r := s1.loadGranules h p key 4
     let m : Header := BitVec.ofNat 512 (bytesNat r.1)
     TallocOk r.2.2 c m hn md base span →
     exec (.talloc f md) s = .next (done h (.talloc f md) s
       ((r.2.2.modCore c (fun k => (k.setTile hn (some (tallocTile m md base span))).clearStorage (tallocTile m md base span))).put32
         h f.fields.dest (BitVec.ofNat 32 base) false))) ∧
  (∀ (s : State) (c t : Nat) (f : DF) (x : Tile), UserTurn s c t →
     let h : Hart := .user c t
     let hb := (s.op32 h f.fields.b).toNat
     let ha := (s.op32 h f.fields.a).toNat
     let v := s.op32 h f.fields.b
     let mask := s.op32 h f.fields.c
     let three : List OpUse := [(f.fields.a, .w32), (f.fields.b, .w32), (f.fields.c, .w32)]
     (Sources s h [(f.fields.b, .w32)] [] → FreeTile s c hb x →
       exec (.tfree f) s = .next (done h (.tfree f) s ((s.modCore c (·.setTile hb none)).dropWaiters c hb))) ∧
     (Sources s h [(f.fields.b, .w32)] (f.fields.dst .w32) → FreeTile s c hb x →
       (∀ k : BitVec 4, x.ok = true → exec (.thdr f k) s = .next (done h (.thdr f k) s
         (s.put32 h f.fields.dest (x.hdr.extractLsb' (32 * k.toNat) 32) false))) ∧
       exec (.thdrCtl f) s = .next (done h (.thdrCtl f) s (s.put32 h f.fields.dest x.ctl false))) ∧
     (Sources s h three [] → FreeTile s c ha x →
       (∀ k : BitVec 4,
         let n := hdrMasked x.hdr k.toNat v mask
         x.ok = true → descOk (some x.lv) n x.wild = true → x.holds n x.wild = true →
         ∃ u, exec (.thset f k) s = .next u ∧ (u.core c).tile? ha = some { x with hdr := Hd.rehash n } ∧
           (u.thread h).pc = nextPc s h (.thset f k) ∧ (u.thread h).regs = (s.thread h).regs ∧ u.mem = s.mem) ∧
       (let pick (b : Nat) (old : Bool) : Bool := if mask.getLsbD b then v.getLsbD b else old
        ∃ u, exec (.thsetCtl f) s = .next u ∧ (u.core c).tile? ha = some { x with
           xshape := pick 29 x.xshape, xsparse := pick 28 x.xsparse, xscale := pick 27 x.xscale, xfmt := pick 26 x.xfmt } ∧
         (u.thread h).pc = nextPc s h (.thsetCtl f) ∧ (u.thread h).regs = (s.thread h).regs ∧ u.mem = s.mem)))

/-- LDT of a place in a tile without wildcard fields returns its bytes, and with `.wf` waits for them: Full granules give the value
into an emptied window, Empty ones park the thread; STT, to any tile whose header is one, enters the store queue with the bytes of its
row or column and the granules that it will make Full, and completes a wildcard tile by the fields stored in its header (R124, R230–R232;
log 84; which granules a column access covers is log 86). -/
def Obligations.ScratchpadAccessCompletes : Prop :=
  ∀ (s : State) (c t : Nat) (f : DF) (m : MemMod) (x : Tile), UserTurn s c t →
    let h : Hart := .user c t
    let a := spAccess s h f.fields m
    let n := sizeBytes m.size
    let g := geoOf x.hdr
    let three : List OpUse := [(f.fields.a, .w32), (f.fields.b, .w32), (f.fields.c, .w32)]
    x.ok = true → x.lv = .sp → (s.core c).tile? a.h = some x → descOk (some .sp) x.hdr x.wild = true →
    (∀ q ∈ spFaults g m.col a.h a.row a.col n, q.1 = false) →
    (Named s h (three ++ f.fields.dst (dataW n)) → s.opsPoison h three = false → x.wild.any = false →
      let gs := spGranules g x a
      let free : Prop := ∀ q ∈ gs, ((s.core c).bankLock (q / 1024) (q / 1024 + 1)).2 = false
      (m.wf = false → free → exec (.ldt f m) s = .next (done h (.ldt f m) s (s.ldtDo h x a id))) ∧
      (m.wf = true → (∀ q ∈ gs, mget GState.empty (s.core c).spState q = .full) →
        exec (.ldt f m) s = .next (done h (.ldt f m) s (s.ldtWfDo h x a Thread.clearWindow))) ∧
      (m.wf = true → (∀ q ∈ gs, mget GState.empty (s.core c).spState q ≠ .failed) →
        (∃ q ∈ gs, mget GState.empty (s.core c).spState q = .empty) →
        exec (.ldt f m) s = .next (parkedAt h (.ldt f m) s s (.ldtWf a)))) ∧
    (SttOk f.fields m x h s → exec (.stt f m) s = .next (done h (.stt f m) s (sttQueued s h f.fields m x)))

/-- MMA, TMOV and QUANT whose operands raise no condition enter the task table with the operands, the direction and the mode
bits of their thread at issue, register their ranges, and return the workgroup's next token (R173, R176, R187–R189). The header of a
product's destination takes the shape of the product, its other fields zero but the marks (R123). -/
def Obligations.TaskIssueCompletes : Prop :=
  ∀ (s : State) (c t : Nat) (w : Workgroup) (idx : Nat) (f : DF), UserTurn s c t →
    let h : Hart := .user c t
    let n (o : Opd) : Nat := (s.op32 h o).toNat
    let blank : Task := { idx, kind := .tmov, running := none, token := w.taskTok, tid := t, ha := n f.fields.a,
                          hb := n f.fields.b, hc := 0, rm := 0, ftz := false, nbv := false, opt := false, os := false,
                          od := false, qpct := 0, view := (s.thread h).mv.floor }
    let ftz : Bool := (s.thread h).fmode.getLsbD 2
    (∀ z ta tb, Named s h ([(f.fields.a, .w32), (f.fields.b, .w32), (f.fields.c, .w32)] ++ f.fields.dst .w32) →
      MmaOk s h f.fields z ta tb → TaskRoom s c t w idx 0 →
      ∃ u, exec (.mma f z) s = .next u ∧ TaskAccepted s u c t (.mma f z) f.fields w
        { blank with kind := .mma, hc := n f.fields.c, ftz, nbv := w.nbv, opt := z } [] ∧
        ∀ td, (s.core c).tile? (n f.fields.c) = some td →
          (u.core c).tile? (n f.fields.c) = some (td.product (mmaGeo (geoOf ta.hdr) (geoOf tb.hdr)))) ∧
    (∀ (m : MovMod) ts td, Named s h ([(f.fields.a, .w32), (f.fields.b, .w32)] ++ f.fields.dst .w32) →
      MoveOk s h f.fields (m.os ^^ m.od) false ts td →
      TaskRoom s c t w idx (moveLocks w.taskTok ts td).length →
      ∃ u, exec (.tmov f m) s = .next u ∧ TaskAccepted s u c t (.tmov f m) f.fields w
        { blank with rm := dirCode (rmDir m.rm (s.thread h).fmode), ftz, nbv := w.nbv, opt := m.sat, os := m.os, od := m.od }
        (moveLocks w.taskTok ts td)) ∧
    (∀ ts td, Named s h ([(f.fields.a, .w32), (f.fields.b, .w32)] ++ f.fields.dst .w32) →
      MoveOk s h f.fields false true ts td → TaskRoom s c t w idx (moveLocks w.taskTok ts td).length →
      ∃ u, exec (.quant f) s = .next u ∧ TaskAccepted s u c t (.quant f) f.fields w
        { blank with kind := .quant, qpct := (s.thread h).qpct } (moveLocks w.taskTok ts td))

/-- MWAIT, MWAITALL and EWAIT: with nothing left to wait for, the thread's engine flags join FLAGS, or its failure word is
returned and cleared, and the window is emptied; else the thread parks (R192, R243). The thread of an EWAIT has seen the
operation's completion (R210). -/
def Obligations.EngineWaitCompletes : Prop :=
  ∀ (s : State) (c t : Nat) (f : DF), UserTurn s c t →
    let h : Hart := .user c t
    let tok : BitVec 16 := (s.op32 h f.fields.b).setWidth 16
    let merged := s.modThread h (fun th =>
      { th with flags := th.flags ||| th.engFlags, engFlags := 0, latches := noLatches })
    (Sources s h [(f.fields.b, .w32)] [] →
      ((∀ x ∈ (s.core c).tasks, x.token ≠ tok) → exec (.mwait f) s = .next (done h (.mwait f) s merged)) ∧
      ((∃ x ∈ (s.core c).tasks, x.token = tok) → exec (.mwait f) s = .next (parkedAt h (.mwait f) s s (.mwait tok)))) ∧
    ((∀ x ∈ (s.core c).tasks, x.tid ≠ t) → exec (.mwaitAll f) s = .next (done h (.mwaitAll f) s merged)) ∧
    ((∃ x ∈ (s.core c).tasks, x.tid = t) → exec (.mwaitAll f) s = .next (parkedAt h (.mwaitAll f) s s .mwaitAll)) ∧
    (Sources s h [(f.fields.b, .w32)] (f.fields.dst .w32) →
      let waits : Prop := if tok = 0 then ∃ o ∈ (s.core c).ops, o.tid = t else ∃ o ∈ (s.core c).ops, o.token = tok
      (¬waits → exec (.ewait f) s = .next (done h (.ewait f) s (s.modThread h (fun th =>
        ({ th with latches := noLatches, fail := false, failToken := 0, failCode := 0 }.put32 f.fields.dest
          (if th.fail then bputs 0 [(31, 1, 1), (8, 16, th.failToken.toNat), (0, 8, th.failCode.toNat)] else 0) false).seeOp tok
            (mget 0 (s.core c).engView tok.toNat))))) ∧
      (waits → exec (.ewait f) s = .next (parkedAt h (.ewait f) s s (.ewait tok f.fields.dest))))

/-- CPY: a byte copy whose ends lie in the 60-bit space is accepted with both ranges, and one of length 0 only returns its
token, as does a gather of no record, even while the engine or the thread's store queue is full (log 89, the model's reading of R239 and
R242 against the wait of R235); a tile copy whose header in memory and whose tile raise no condition is accepted in either direction (R238–R240), whatever the
poison marks of the header's granules (log 85), with a range in memory that ends where log 36 says. GTH: a gather of no record only returns its token; one whose list header can be read unpoisoned and whose destination raises no
condition is accepted, to memory or to a tile (R241, R242, R390), a wildcard tile too (log 90). -/
def Obligations.CopiesAndGathersComplete : Prop :=
  (∀ (s : State) (c t : Nat) (w : Workgroup) (f : DF) (col : Bool), UserTurn s c t →
     let h : Hart := .user c t
     let a := s.opPair h f.fields.a
     let b := s.opPair h f.fields.b
     let x := s.op32 h f.fields.c
     let len := x.toNat % 2 ^ 24
     Sources s h [(f.fields.a, .pair), (f.fields.b, .pair), (f.fields.c, .w32)] (f.fields.dst .w32) → (s.core c).wg = some w →
     (x.getLsbD 30 = false → len = 0 → ∃ u, exec (.cpy f col) s = .next u ∧ OpEmpty s u c t f.fields w) ∧
     (x.getLsbD 30 = false → 0 < len →
       let ranges := memLock false b.toNat len ++ memLock true a.toNat len
       (∀ y ∈ [a, a + BitVec.ofNat 64 (len - 1), b, b + BitVec.ofNat 64 (len - 1)], y.toNat < 2 ^ 60) →
       OpRoom s c t w (.bytes a b len) ranges.length →
       ∃ u, exec (.cpy f col) s = .next u ∧ OpAccepted s u c t f.fields w (.bytes a b len) ranges) ∧
     (x.getLsbD 30 = true →
       let into : Bool := !x.getLsbD 31
       let addr := if into then b else a
       let hn := ((if into then a else b).setWidth 32 : Word).toNat
       ∀ (s1 : State) (p : Place) (key : Nat) (tl : Tile), s.checkGranules h addr 64 4 false [] = (.at p key, s1) →
         s1.granulesWait h p 4 = false →
         let r := s1.loadGranules h p key 4
         let m : Header := BitVec.ofNat 512 (bytesNat r.1)
         let hv : Word := BitVec.ofNat 32 hn
         (s.core c).tile? hn = some tl →
         (∀ q ∈ handleFaults (some tl) hv (!into) ++ copyHeaderFaults m addr (some tl) hv into, q.1 = false) →
         let kind : EngKind := if into then .tileIn hn addr m else .tileOut addr hn m
         let banks : Range := .banks tl.base (tl.base + tl.span)
         let ranges := if into then memLock false addr.toNat (memSpan m) ++ [(true, banks)]
           else [(false, banks)] ++ memLock true addr.toNat (memSpan m)
         OpRoom r.2.2 c t w kind ranges.length →
         ∃ u, exec (.cpy f col) s = .next u ∧ OpAccepted r.2.2 u c t f.fields w kind ranges)) ∧
  (∀ (s : State) (c t : Nat) (w : Workgroup) (f : DF), UserTurn s c t →
     let h : Hart := .user c t
     let a := s.opPair h f.fields.a
     let b := s.opPair h f.fields.b
     let x := s.op32 h f.fields.c
     let count := x.toNat % 65536
     let grain := 16 * 2 ^ (x.toNat / 2 ^ 30)
     let hn := a.toNat % 2 ^ 32
     Sources s h [(f.fields.a, .pair), (f.fields.b, .pair), (f.fields.c, .w32)] (f.fields.dst .w32) → (s.core c).wg = some w →
     (count = 0 → ∃ u, exec (.gth f) s = .next u ∧ OpEmpty s u c t f.fields w) ∧
     (0 < count → ∀ (s1 : State) (p : Place) (key : Nat), s.checkGranules h b 16 1 false [] = (.at p key, s1) →
       s1.granulesWait h p 1 = false →
       let r := s1.loadGranules h p key 1
       let base : BitVec 64 := BitVec.ofNat 64 (bytesNat (r.1.take 8))
       r.2.1 = false → base.toNat % grain = 0 → base.toNat < 2 ^ 60 →
       (∀ q ∈ gatherDestFaults ((s.core c).tile? hn) a false x grain count, q.1 = false) →
       let src := memLock false b.toNat (16 + 4 * count)
       (x.getLsbD 29 = false →
         let ranges := src ++ memLock true a.toNat (count * grain)
         OpRoom r.2.2 c t w (.gatherMem b base grain count a) ranges.length →
         ∃ u, exec (.gth f) s = .next u ∧ OpAccepted r.2.2 u c t f.fields w (.gatherMem b base grain count a) ranges) ∧
       (x.getLsbD 29 = true → ∀ tl, (s.core c).tile? hn = some tl →
         let ranges := src ++ [(true, .banks tl.base (tl.base + tl.span))]
         OpRoom r.2.2 c t w (.gatherTile b base grain count hn) ranges.length →
         ∃ u, exec (.gth f) s = .next u ∧ OpAccepted r.2.2 u c t f.fields w (.gatherTile b base grain count hn) ranges)))

/-- CPY.seal and CPY.open of the last lane of a supervisor group still to do it: the operation is accepted with its ranges, a seal
with its key slot's next seal number (R408, R411), and the group goes on; with a key slot or queue that R409 refuses, it fails at issue
with KEY_SLOT and only its token is returned, and an open of a workgroup under restore has its context killed (R413). Which conditions stand at issue is
log 44; that lanes already done keep their effects while the last tries alone is log 35. -/
def Obligations.ImageIssueCompletes : Prop :=
  ∀ (s : State) (c l : Nat) (w : Workgroup) (f : DF) (sealing : Bool), s.cur = .sup c → (s.core c).lanesLeft = [l] →
    (∀ l' ∈ (s.core c).lanesDone, (s.thread (.sup c l')).run = .ready) →
    let h : Hart := .sup c l
    let i : Instr := if sealing then .cpySeal f else .cpyOpen f
    let a := s.opPair h f.fields.a
    let b := s.opPair h f.fields.b
    let ctl := s.opPair h f.fields.c
    let image := if sealing then a else b
    let side := if sealing then b else a
    let qid : BitVec 16 := BitVec.ofNat 16 (bget ctl 32 16)
    let part : BitVec 8 := BitVec.ofNat 8 (bget ctl 24 8)
    let kind : EngKind := if sealing then .sealImg image side (bget ctl 48 2) qid part (bget ctl 0 24)
      else .openImg side image (bget ctl 48 2) qid part (bget ctl 0 24)
    Sources s h [(f.fields.a, .pair), (f.fields.b, .pair), (f.fields.c, .pair)] (f.fields.dst .w32) →
    ImageOk s c image side ctl → (s.core c).wg = some w →
    (s.imageKeyFault c qid.toNat sealing = false →
      OpRoom s c (supKey l) w kind (imageRanges sealing image side ctl).length →
      let sealN : BitVec 32 := mget 0 s.keys.sealN (s.core c).ksel.toNat
      ∃ u, exec i s = .next u ∧
        OpAccepted s u c (supKey l) f.fields w kind (imageRanges sealing image side ctl) (if sealing then sealN else 0) ∧
        mget 0 u.keys.sealN (s.core c).ksel.toNat = sealN + (if sealing then 1 else 0) ∧
        (u.core c).supPc = (s.core c).supPc + BitVec.ofNat 64 i.len ∧ (u.core c).lanesDone = []) ∧
    (s.imageKeyFault c qid.toNat sealing = true → sealing = false → w.restoring = true → w.ctx ≠ 0 →
      ∃ u, exec i s = .next u ∧ CtxF.barred (u.ctxRec w.ctx.toNat) = true) ∧
    (s.imageKeyFault c qid.toNat sealing = true → (s.thread h).run = .ready → sealing = true ∨ w.restoring = false →
      ∃ u, exec i s = .next u ∧ OpEmpty s u c (supKey l) f.fields w ∧
        ((u.core c).thread (supKey l)).fail = true ∧ (u.core c).supPc = (s.core c).supPc + BitVec.ofNat 64 i.len)

/-- What the engines of a core do: a free engine takes the oldest ready task; a running task ends, its record and ranges gone;
a copy whose plan meets no fault and needs no page completes, one whose plan meets a fault fails, one that lacks pages has them
migrated; a granule of scratchpad that no error has touched may become Full before the end (R119, R175, R178, R180, R207, R236). -/
def Obligations.EngineEventsHappen : Prop :=
  ∀ (s : State) (c : Nat) (token : BitVec 16) (g : Nat),
    (∀ t e, (s.core c).readyTask = some t → (s.core c).freeEngine = some e →
      ∃ u, exec (.taskStart c) s = .next u ∧ u.mem = s.mem ∧
        (u.core c).tasks = (s.core c).tasks.map (fun x => if x.token = t.token then { x with running := some e } else x)) ∧
    (∀ t, (s.core c).runningTask token = some t →
      exec (.taskComplete c token) s = .next (((s.modCore c (·.finishTask t)).wakeTasks c).wakeWf c) ∧
      ((s.core c).finishTask t).tasks = (s.core c).tasks.filter (fun x => x.token ≠ t.token) ∧
      ∀ l ∈ ((s.core c).finishTask t).locks, ¬(l.matrix = true ∧ l.token = t.token)) ∧
    (∀ op, s.runningOp c token = some op →
      let p := s.plan c op
      (p.1.missing = [] → p.1.faults = [] → exec (.copyComplete c token) s = .next (p.2.completeOp c op p.1)) ∧
      (p.1.missing ≠ [] → exec (.copyComplete c token) s = .next (s.startPages c op p.1.missing)) ∧
      (p.1.faults ≠ [] → exec (.copyFail c token) s = .next (p.2.failOp c op p.1 p.1.faults)) ∧
      (∀ w, op.done.contains g = false → p.1.early g = some w →
        exec (.engineGranuleWrite c false token g) s = .next (((p.2.dropReads s).modCore c (fun k =>
          { k.putSp w op.view with
            ops := (k.putSp w op.view).ops.map (fun x => if x.token = token then { x with done := x.done ++ [g] } else x) })).wakeWf c))) ∧
    (∀ t d v x y w, (s.core c).runningTask token = some t → (s.core c).taskResult t = some (d, v, x, y) → d.lv = .sp →
      t.ha ≠ t.hb → t.done.contains g = false → (t.spWrites d v).find? (fun w => w.1.g == g && !w.2) = some w →
      exec (.engineGranuleWrite c true token g) s = .next ((s.modCore c (fun k =>
        { k.putTask t w with
          tasks := (k.putTask t w).tasks.map (fun x => if x.token = token then { x with done := x.done ++ [g] } else x) })).wakeWf c))

/-- What ends the waits of threads: the answer of the tile dispenser gives the next chunk to the oldest claim of its core and wakes
the thread past its instruction; a YIELD ends; a formed access or WAITV looks again; a `.wf` wait that no producer can end traps with
WAIT_NO_PRODUCER, and nothing of the core but its threads and its TRQ changes (R282, R298, R307, R309). -/
def Obligations.WaitEventsHappen : Prop :=
  (∀ (s : State) (c t k : Nat) (w : Workgroup) (g : Grant) (dst : Dest), (s.thread (.user c t)).run = .parked (.tdisp dst) →
    (s.core c).oldestClaim = some t → (s.thread (.user c t)).stopped = false → (s.core c).wg = some w → w.slot = k → (s.slot k).grant = some g →
    let total := g.disp.x * g.disp.y * g.disp.z
    let stop := Nat.min (g.disp.next + g.disp.chunk) total
    ∃ u, exec (.dispenserAnswer (.user c t)) s = .next u ∧ (u.thread (.user c t)).run = .ready ∧
      (u.thread (.user c t)).pc = (s.thread (.user c t)).npc ∧
      (u.thread (.user c t)).regs = ((s.thread (.user c t)).putQuad dst (BitVec.ofNat 64 stop ++ BitVec.ofNat 64 g.disp.next) false).regs ∧
      (u.slot k).grant = some { g with disp := { g.disp with next := stop } }) ∧
  (∀ (s : State) (c t : Nat), (s.thread (.user c t)).run = .parked .yield →
    ∃ u, exec (.yieldWake (.user c t)) s = .next u ∧ (u.thread (.user c t)).run = .ready ∧
      (u.thread (.user c t)).pc = (s.thread (.user c t)).npc ∧ (u.thread (.user c t)).age = 0 ∧ u.mem = s.mem) ∧
  (∀ (s : State) (h : Hart) (a : Access), (s.thread h).run = .parked (.waitv a) → s.underKill h = false →
    exec (.waitvReread h) s = .next (s.resumeAccess h a)) ∧
  (∀ (s : State) (h : Hart) (x : BitVec 16) (va : BitVec 64) (a : Access), (s.thread h).run = .parked (.page x va (.access a)) →
    s.underKill h = false → (∀ m ∈ s.io.migs, m.ctx ≠ x ∨ m.va.toNat / 65536 ≠ va.toNat / 65536) →
    exec (.waitvReread h) s = .next (s.resumeAccess h a)) ∧
  (∀ (s : State) (c t : Nat) (a : SpAccess), (s.core c).hopeless = [(t, a)] → t < 960 →
    ∃ u, exec (.noProducerTrap c) s = .next u ∧
      TrapEntered s u c t .waitNoProducer (spTval a.h a.row a.col) (s.thread (.user c t)).pc)

/-- The clk of a core's selector puts the agents it chose in issue order and changes no memory; a fetch that gives an instruction
changes no memory, mark, key, slot or thread, one that faults traps, one of a page that is not resident holds its agent; the oldest
store of a hart leaves its queue, which keeps the others, for the end of the core order, where no load that it would pass over must first
have its own stores placed (log 107), and an entry that may goes home (R52, R194, R198, R285). -/
def Obligations.SelectEventsHappen : Prop :=
  (∀ (s : State) (c : Nat), ∃ u, exec (.issueSelect c) s = .next u ∧ u.mem = s.mem ∧
    u.issueQ = s.issueQ ++ s.clkAgents c ∧ u.io = s.io ∧ u.sched = s.sched) ∧
  (∀ (s s1 : State) (ag : Agent), s.agentReady ag = true →
    (∀ i, s.fetch (agentHart ag) = (.instr i, s1) → exec (.instructionFetch ag) s = .next s1 ∧ s1.mem = s.mem ∧
      s1.memPoison = s.memPoison ∧ s1.keys = s.keys ∧ s1.sched = s.sched ∧ ∀ h', s1.thread h' = s.thread h') ∧
    (∀ c v, s.fetch (agentHart ag) = (.trap c v, s1) →
      exec (.instructionFetch ag) s = .next (s1.takeTrap (agentHart ag) c v (s1.pc (agentHart ag)))) ∧
    (∀ e, s.fetch (agentHart ag) = (.held e, s1) → ∃ u, exec (.instructionFetch ag) s = .next u ∧ u.fetchHeld (agentHart ag) = true)) ∧
  (∀ (s : State) (e : StoreEnt) (rest : List StoreEnt), (s.thread .mgmt).storeQ = e :: rest → e.space = .global →
    s.requestFree .mgmt = true →
    ∃ u, exec (.storeDrain .mgmt .leave) s = .next u ∧ (u.thread .mgmt).storeQ = rest ∧
      u.mgmt.order = s.mgmt.order ++ [{ e with seq := s.mgmt.orderSeq }] ∧ u.mem = s.mem) ∧
  (∀ (s : State) (c t : Nat) (e : StoreEnt) (rest : List StoreEnt), (s.thread (.user c t)).storeQ = e :: rest → e.space = .global →
    s.requestFree (.user c t) = true → (∀ p ∈ (s.core c).threads, ∀ a, p.2.run ≠ .parked (.ldtWf a)) →
    s.meetsHold { who := .core c, tid := t, bytes := addrsOf [e], joins := true, home := false } = false →
    ∃ u, exec (.storeDrain (.user c t) .leave) s = .next u ∧ (u.thread (.user c t)).storeQ = rest ∧
      (u.core c).coreOrder = (s.core c).coreOrder ++ [{ e with seq := (s.core c).seq }] ∧ u.mem = s.mem) ∧
  (∀ (s : State) (h : Hart) (i : Nat) (e : StoreEnt), (s.order h)[i]? = some e → mayGoHome (s.order h) i = true →
    s.retrains e = false → exec (.storeDrain h (.home i)) s = .next ((s.goHome h i).settleDrains))

/-- What the scheduler does with a slot: in the Summer stage, and in no other, a doorbell value is taken or refused (R422), a packet is fetched, a demand granted that R273
allows, one that no record can serve noticed once, a fetch fault lifted
when its migration has ended, a refusal word that waited written, a held error event posted (R266, R267, R272–R278). A write of VCODE in
the slot's area, whoever makes it (log 120), answers the claimed head that awaits its verdict, else the oldest queue-error event posted,
which it consumes (R271, R278). A verdict of 0 on a launch keeps it, any other refuses and finishes the head; one on a packet that is no
launch finishes it; the answer of an event raises its context's guilt count where VGUILT says so. -/
def Obligations.SlotEventsHappen : Prop :=
  (∀ (s : State) (k : Nat),
     (∀ (q : BitVec 16) (v : Word), s.mgmt.stage ≠ .summer → exec (.queueDoorbell q v) s = .next s) ∧
     (∀ (q : BitVec 16) (v : Word), s.mgmt.stage = .summer → s.qDesc? q.toNat = none →
       ∃ u, exec (.queueDoorbell q v) s = .next u ∧ u.errors.elp = s.errors.elp + 1 ∧ u.mem = s.mem ∧ u.sched = s.sched) ∧
     (∀ (q : BitVec 16) (v : Word) d, s.mgmt.stage = .summer → s.qDesc? q.toNat = some d →
       exec (.queueDoorbell q v) s = .next (s.ringQueue q.toNat v.toNat)) ∧
     (s.mgmt.stage = .summer → k < 64 → BR.v (s.slot k).bindRec = true → (s.slot k).fetchFault = false →
       ∀ d, s.qDesc? (BR.qid (s.slot k).bindRec) = some d → QD.err s d = false →
       exec (.packetFetch k) s = .next (s.fetchPacket k d)) ∧
     (s.mgmt.stage = .summer → k < 64 → s.slotPending k = true → ∀ f dm, s.head? k = some f → s.demand k = some dm →
       (s.demandBlocked k = true → (s.slot k).noticed = false →
         ∃ u, exec (.slotGrant k) s = .next u ∧ u.out = s.out ++ [.slotNotice k] ∧ (u.slot k).noticed = true) ∧
       (s.demandBlocked k = false → s.grantable k = true → (dm.isSome = true → s.outranked k = false) →
         exec (.slotGrant k) s = .next (s.grantSlot k f dm))) ∧
     ((s.slot k).fetchFault = true → (∀ m ∈ s.io.migs, .slot k ∉ m.waiters) →
       exec (.slotFetchResume k) s = .next ((s.modSlot k (fun sl => { sl with fetchFault := false })).stampPending s)) ∧
     (∀ x a w g, (s.slot k).refusal = some (x, a, w) → (s.slot k).grant = some g → (∀ m ∈ s.io.migs, .refusal k ∉ m.waiters) →
       exec (.refusalWordWrite k) s = .next (s.writeRefusal k g x a w)) ∧
     (∀ x rest, (s.slot k).qerrHeld = x :: rest → (s.slot k).awaits = false →
       ∃ u, exec (.queueErrorEventPost k) s = .next u ∧ (u.slot k).qerrHeld = rest ∧
         (u.slot k).qerrPosted = (s.slot k).qerrPosted ++ [x] ∧ u.mem = s.mem)) ∧
  (∀ (s : State) (k : Nat) (v : Verdict) (rest : List Verdict), (s.slot k).verdicts = v :: rest →
     let s1 := s.modSlot k (fun sl => { sl with verdicts := rest })
     (∀ g, v.event = none → (s.slot k).grant = some g → g.verdictDone = false → g.launch = true → v.code = 0 →
       ∃ u, exec (.verdictApply k) s = .next u ∧ (u.slot k).grant = some { g with verdictDone := true } ∧
         (u.slot k).verdicts = rest ∧ u.mem = s.mem) ∧
     (∀ g, v.event = none → (s.slot k).grant = some g → g.verdictDone = false → (g.launch = false ∨ v.code ≠ 0) →
       exec (.verdictApply k) s = .next (s1.headVerdict k g v.code v.guilt)) ∧
     (∀ x, v.event = some x → exec (.verdictApply k) s = .next (if v.guilt = true then s1.raiseGuilt x.toNat else s1))) ∧
  (∀ (s : State) (k : Nat) (bs : List (Nat × Byte × Byte)) (new : List Byte), k < 64 → s.io.slotb.toNat / 16 ≠ 0 →
     let g := s.io.slotb.toNat / 16 + (8 * k + 1)
     let code := new.getD 0 0
     let guilt : Bool := (new.getD 1 0).getLsbD 0
     let u := s.observeVerdict g bs new
     bs.any (fun w => w.1 == 16 * g) = true →
     (∀ gr, (s.slot k).grant = some gr → gr.claimants ≠ [] → gr.verdictDone = false → (∀ v ∈ (s.slot k).verdicts, v.event ≠ none) →
       u = s.modSlot k (fun sl => { sl with verdicts := sl.verdicts ++ [⟨code, guilt, none⟩] })) ∧
     (∀ x more, (s.slot k).awaits = false → (s.slot k).qerrPosted = x :: more →
       u = s.modSlot k (fun sl => { sl with qerrPosted := more, verdicts := sl.verdicts ++ [⟨code, guilt, some x⟩] })))

/-- A workgroup starts on a held core whose agent has claimed the head, whose verdict was 0, has its context and accepts the packet;
a resident workgroup whose threads
have all exited ends when it is quiet; so does one whose context was killed, whatever its threads, and with the last such core of the
launch its grant ends, with the last of the context the kill's GO; a launch all of whose EXITS have come finishes its head (R30, R272,
R280, R281, R402). What the start waits for is log 64. -/
def Obligations.WorkgroupEventsHappen : Prop :=
  (∀ (s s1 : State) (c k : Nat) (g : Grant) (hdr : BitVec 512) (safe : List SafePoint), s.launchOf c = some (k, g) →
    (s.core c).wg = none → (s.core c).started = true → (s.core c).status = .running → (s.core c).ctxid = g.ctx →
    g.claimants.contains c = true → g.verdictDone = true → g.refused = false →
    s.agentVerdict c k g.ctx.toNat = (.accept hdr safe, s1) →
    ∃ u, exec (.workgroupStart c) s = .next u ∧ ∃ w, (u.core c).wg = some w ∧ w.ctx = g.ctx ∧ w.slot = k ∧
      w.rw = 2 ^ g.wlog ∧ w.rh = 2 ^ g.hlog ∧ w.nth = Kh.threads hdr ∧ w.regs = Kh.regs hdr ∧ w.safe = safe ∧
      w.restoring = g.resumed ∧ (u.core c).carve = Kh.carve hdr ∧ (u.core c).trq = [] ∧ (u.core c).mbox = [] ∧ u.mem = s1.mem) ∧
  (∀ (s : State) (c : Nat) (w : Workgroup), (s.core c).wg = some w → w.killed = false → w.restoring = false → s.boundIrqs c = [] →
    (∀ t, t < w.nth → ((s.core c).thread t).run = .exited ∧ ((s.core c).thread t).storeQ = []) →
    (s.core c).tasks = [] → (s.core c).ops = [] →
    ∃ u, exec (.workgroupEnd c) s = .next u ∧ (u.core c).wg = none ∧ u.mem = s.mem ∧
      ∀ g, (s.slot w.slot).grant = some g → g.killed = false → (u.slot w.slot).grant =
        some { g with ended := g.ended ++ [16 * w.cy + w.cx], held := g.held.filter (· ≠ c) }) ∧
  (∀ (s : State) (c : Nat) (w : Workgroup), (s.core c).wg = some w → w.killed = true → w.restoring = false → s.boundIrqs c = [] →
    (∀ t, t < w.nth → ((s.core c).thread t).storeQ = []) → (s.core c).tasks = [] → (s.core c).ops = [] →
    ∃ u, exec (.workgroupEnd c) s = .next u ∧ (u.core c).wg = none ∧ u.mem = s.mem ∧
      (∀ g, (s.slot w.slot).grant = some g → g.killed = true → (u.slot w.slot).grant =
        (if g.held.filter (· ≠ c) = [] then none else some { g with held := g.held.filter (· ≠ c) })) ∧
      (w.ctx = s.mgmt.ctxkId → (∀ c' v, c' ≠ c → (s.core c').wg = some v → ¬(v.killed = true ∧ v.ctx = w.ctx)) →
        u.mgmt.ctxkGo = false)) ∧
  (∀ (s : State) (k : Nat) (g : Grant), (s.slot k).grant = some g → g.launch = true → g.killed = false → g.verdictDone = true →
    g.refused = false → g.held = [] → g.n ≤ s.slotExits k → exec (.launchEnd k) s = .next (s.finishHead k g))

/-- Pre-emption: the slice of a launch ends, and a pending slot of equal or higher priority that demands a core of it has it
pre-empted; each workgroup of a launch that is not being restored hears of it, the first delivery
advancing SAVECTR, and arms where no barrier 0–23 is partly arrived, else defers, or is forced with DEFER = 0; a deferring
workgroup arms, or is forced when its deferral ends with a barrier still partly arrived, or its deadline (R274, R287, R408, R413). A pre-empted launch every workgroup of which is saved, its agents' services of the request ended too (log 112), leaves its cores: they hold no workgroup, the slot no grant, and the
scheduler keeps the dispenser, the block barriers and the ended cores of the launch beside its queue (R288). -/
def Obligations.PreemptionEventsHappen : Prop :=
  ((∀ (s : State) (k : Nat) (g : Grant), (s.slot k).grant = some g → g.launch = true → BR.slice (s.slot k).bindRec ≠ 0 →
     ∃ u, exec (.sliceExpiry k) s = .next u ∧ (u.slot k).expired = true ∧ u.mem = s.mem ∧ u.cores = s.cores ∧
       ((∃ k', k' < 64 ∧ k' ≠ k ∧ s.slotPending k' = true ∧ BR.prio (s.slot k).bindRec ≤ BR.prio (s.slot k').bindRec ∧
           ∃ c ∈ s.demandCores k', c ∈ g.held) → (u.slot k).grant = some { g with preemptReq := true }) ∧
       ((∀ k', k' < 64 → k' ≠ k → s.slotPending k' = true → BR.prio (s.slot k).bindRec ≤ BR.prio (s.slot k').bindRec →
           ∀ c ∈ s.demandCores k', c ∉ g.held) → (u.slot k).grant = some g)) ∧
   (∀ (s : State) (k c : Nat) (g : Grant) (w : Workgroup), (s.slot k).grant = some g → (s.core c).wg = some w → Preempting g →
     c ∈ g.held → c ∉ g.delivered → w.slot = k → s.launchRestoring g = false →
     ∃ u, exec (.preemptDelivery k c) s = .next u ∧ (u.slot k).grant = some { g with delivered := g.delivered ++ [c] } ∧
       ((u.core c).wg.map (·.preempt)) = some (if s.partlyArrived w = false then .armed
         else if BR.defer (s.slot k).bindRec = 0 then .forced false else .deferring) ∧
       mget 0 u.keys.saveCtr g.qid.toNat = mget 0 s.keys.saveCtr g.qid.toNat + (if g.delivered = [] then 1 else 0) ∧
       u.mem = s.mem) ∧
   (∀ (s : State) (c : Nat) (w : Workgroup), (s.core c).wg = some w →
     (w.preempt = .deferring → s.partlyArrived w = false →
       ∃ u, exec (.workgroupArm c) s = .next u ∧ (u.core c).wg = some { w with preempt := .armed } ∧ u.mem = s.mem) ∧
     (w.preempt = .deferring →
       ∃ u, exec (.deferExpiry c) s = .next u ∧
         (u.core c).wg = some { w with preempt := if s.partlyArrived w = true then .forced false else .armed } ∧ u.mem = s.mem) ∧
     (w.preempt = .armed → (∃ t, t < w.nth ∧ ((s.core c).thread t).saveDone = false) →
       ∃ u, exec (.deadlineExpiry c) s = .next u ∧ (u.core c).wg = some { w with preempt := .forced true } ∧ u.mem = s.mem))) ∧
  (∀ (s : State) (k : Nat) (g : Grant), (s.slot k).grant = some g → Preempting g → g.held ≠ [] →
     (∀ c ∈ g.held, ∃ w, (s.core c).wg = some w ∧ c ∈ g.delivered ∧ (s.core c).saved w = true) →
     (∀ c ∈ g.held, ∀ r ∈ s.io.peers, Hart.userOf c r.h = false) →
     ∃ u, exec (.launchSaved k) s = .next u ∧ (u.slot k).grant = none ∧ (∀ c ∈ g.held, (u.core c).wg = none) ∧
       ∃ l, mget none u.sched.saved g.qid.toNat = some l ∧ l.slot = k ∧ l.seq = g.seq ∧ l.disp = g.disp ∧ l.bars = g.bars ∧ l.ended = g.ended ∧
         l.wlog = g.wlog ∧ l.hlog = g.hlog ∧ l.exits = BitVec.ofNat 32 (s.slotExits k))

/-- A page's migration: a demotion request starts one of a resident page that is not pinned, is refused for PIN, and does
nothing to a page that is not resident or that a large leaf maps (log 71); a frame is taken once the drain has ended and the page copied; it completes where the entry is
as the last CAS left it and the source not lost, and fails where it is not or the source is lost, what a failed demotion leaves being the
model's choice (log 114: the failure row of Table 11-3 is a promotion's); a frame joins its ring; an
answer of a peer module ends the load that waits for it (R217, R256, R263). What a write leaves is stated where no load waits over it (log 107). The system cores act in no Winter stage (R421). -/
def Obligations.MigrationEventsHappen : Prop :=
  (∀ (s : State) (x : BitVec 16) (va : BitVec 64) (e : BitVec 64) (ea : Nat), s.mgmt.stage ≠ .winter →
    s.walk (CtxF.root (s.ctxRec x.toNat)) va.toNat = .leaf e 0 ea → Pte.res e = true → (∀ m ∈ s.io.migs, m.pteAddr ≠ ea) →
    (Pte.pin e = true → ∃ u, exec (.demotionRequest x va) s = .next u ∧ u.errors.elp = s.errors.elp + 1 ∧ u.mem = s.mem ∧ u.io = s.io) ∧
    (Pte.pin e = false → WordAt s ea → s.holds = [] →
      let e' := bputs (s.peekMem ea 8 64) [(8, 1, 0), (9, 1, 1)]
      let page := va &&& ~~~(0xFFFF : BitVec 64)
      ∃ u, exec (.demotionRequest x va) s = .next u ∧ u.peekMem ea 8 64 = e' ∧
        u.io.migs = s.io.migs ++ [{ ctx := x, va := page, pteAddr := ea, promote := false, entry := e' }] ∧
        (∀ t ∈ u.io.tlb, t ∈ s.io.tlb ∧ tlbHit .page page.toNat x.toNat t = false) ∧
        u.cores = s.cores ∧ u.errors.elp = s.errors.elp)) ∧
  (∀ (s : State) (x : BitVec 16) (va : BitVec 64) (e : BitVec 64) (level ea : Nat),
    s.walk (CtxF.root (s.ctxRec x.toNat)) va.toNat = .leaf e level ea → (Pte.res e = false ∨ level ≠ 0) →
    (∀ m ∈ s.io.migs, m.pteAddr ≠ ea) → exec (.demotionRequest x va) s = .next s) ∧
  (∀ (s : State) (i : Nat) (m : Migration), s.io.migs[i]? = some m → m.frame = none →
    (m.promote = true → s.sourceLost m = false) → (m.promote = false → s.settleDrains.drainOf (.demote m.pteAddr) = none) →
    Ring.count (s.ring m.promote).2 ≠ 0 →
    ∃ u, exec (.migrationFrameTake i) s = .next u ∧
      u.io.migs = s.io.migs.set i { m with frame := some (s.peekMem (ringHead s m.promote) 8 64) } ∧
      (u.ring m.promote).1 = (s.ring m.promote).1 ∧ Ring.widx (u.ring m.promote).2 = Ring.widx (s.ring m.promote).2 ∧
      Ring.ridx (u.ring m.promote).2 = (Ring.ridx (s.ring m.promote).2 + 1) % 65536 ∧ u.errors = s.errors) ∧
  (∀ (s t : State) (i : Nat) (m : Migration) (f : BitVec 64), s.io.migs[i]? = some m → m.frame = none →
    (m.promote = true → s.sourceLost m = false) → (m.promote = false → s.settleDrains.drainOf (.demote m.pteAddr) = none) →
    s.settleDrains.takeFrame m.promote = some (f, t) →
    exec (.migrationFrameTake i) s = .next ((t.setMig i { m with frame := some f }).copyPage (Pte.key m.entry) (Pte.addr m.entry) f.toNat)) ∧
  (∀ (s : State) (i : Nat) (m : Migration) (f : BitVec 64), s.io.migs[i]? = some m → m.frame = some f →
    s.peekMem m.pteAddr 8 64 = m.entry → ¬(m.promote = true ∧ s.sourceLost m = true) →
    exec (.migrationComplete i) s = .next ((s.dropMig i).finishMigration m f) ∧
    (WordAt s m.pteAddr → s.holds = [] → Migration.alone m → NoPageWaits s → (∀ fast, ApartFrom (ringEnd s fast) m.pteAddr) →
      ∃ u, exec (.migrationComplete i) s = .next u ∧ u.io.migs = s.io.migs.eraseIdx i ∧ u.cores = s.cores ∧
        u.peekMem m.pteAddr 8 64 = bputs m.entry ([(14, 34, f.toNat / 2 ^ 14), (9, 1, 0)]
          ++ if m.promote then [(6, 2, 0), (8, 1, 1)] else [(6, 2, 1)]))) ∧
  (∀ (s : State) (i : Nat) (m : Migration), s.io.migs[i]? = some m →
    (s.peekMem m.pteAddr 8 64 ≠ m.entry ∨ (m.promote = true ∧ s.sourceLost m = true)) →
    exec (.migrationFail i) s = .next ((s.dropMig i).failMigration m) ∧
    (WordAt s m.pteAddr → s.holds = [] → Migration.alone m → NoPageWaits s → (∀ fast, ApartFrom (ringEnd s fast) m.pteAddr) →
      ∃ u, exec (.migrationFail i) s = .next u ∧ u.io.migs = s.io.migs.eraseIdx i ∧ u.cores = s.cores ∧
        u.peekMem m.pteAddr 8 64 = (if s.peekMem m.pteAddr 8 64 = m.entry then bput m.entry 9 1 0 else s.peekMem m.pteAddr 8 64))) ∧
  (∀ (s : State) (who : IoActor) (fast : Bool) (frame : BitVec 64),
    (who = .management → ∃ u, exec (.frameAppend who fast frame) s = .next u ∧ u.ring fast = s.ring fast ∧
      u.errors.elp = s.errors.elp + 1 ∧ u.mem = s.mem) ∧
    (who ≠ .management → (who = .system → s.mgmt.stage ≠ .winter) → Ring.count (s.ring fast).2 < 2 ^ Ring.slog (s.ring fast).2 →
      WordAt s (ringEnd s fast) → s.holds = [] →
      ∃ u, exec (.frameAppend who fast frame) s = .next u ∧ u.peekMem (ringEnd s fast) 8 64 = frame ∧
        (u.ring fast).1 = (s.ring fast).1 ∧ Ring.ridx (u.ring fast).2 = Ring.ridx (s.ring fast).2 ∧
        Ring.widx (u.ring fast).2 = (Ring.widx (s.ring fast).2 + 1) % 65536 ∧ u.errors.elp = s.errors.elp) ∧
    (who = .system → s.mgmt.stage = .winter → exec (.frameAppend who fast frame) s = .next s)) ∧
  (∀ (s : State) (i : Nat) (r : PeerReq) (data : List Byte) (sx sc : Bool), s.io.peers[i]? = some r → r.a.kind = .load sx sc →
    ∃ u, exec (.peerReadCompletion i data) s = .next u ∧ u.io.peers = s.io.peers.eraseIdx i ∧ u.mem = s.mem)

/-- What the root complex does with a doorbell of the proxy, the entries of a message ring, a message for a context of this
module and one from another module, a message held on a full inbox, and a TURN-READY that arrives when no DATA message of its
engine still waits (R333, R334, R350, R359–R361). That a ring entry which cannot be read is passed over and logged is log 32, that a
management message to a module no link reaches ends with LINK_DOWN log 67. -/
def Obligations.MessageEventsHappen : Prop :=
  (∀ (s : State) (i : Nat) (b : HeldBell), s.io.proxy[i]? = some b → s.bellReady b = true → bellBlocked s.io.proxy i b = false →
    exec (.doorbellSend i) s = .next (((s.sendBell b).modIo (fun io => { io with proxy := io.proxy.eraseIdx i })).settleBell b.entry) ∧
    ∃ u, exec (.doorbellSend i) s = .next u ∧ u.io.proxy = s.io.proxy.eraseIdx i ∧
      (b.kind = 2 → mget 0 u.io.ringW b.entry = b.val.setWidth 32 ∧ u.errors = s.errors ∧ u.mem = s.mem) ∧
      (b.kind = 0 → s.rootUp = false → u.errors.elp = s.errors.elp + 1 ∧ u.out = s.out ∧ u.mem = s.mem) ∧
      (b.kind = 1 → s.qDesc? (b.target.toNat % 65536) = none → u.errors.elp = s.errors.elp + 1 ∧ u.sched = s.sched ∧ u.mem = s.mem)) ∧
  (∀ (s : State) (k : Nat), Bell.v (s.bell k) = true → Bell.kind (s.bell k) = 2 →
    mget 0 s.io.ringIdx k ≠ mget 0 s.io.ringW k →
    let va := Bell.target (s.bell k) + BitVec.ofNat 64 (64 * ((mget 0 s.io.ringIdx k).toNat % 2 ^ Bell.slog (s.bell k)))
    2 ^ 60 ≤ va.toNat →
    ∃ u, exec (.messageTake k) s = .next u ∧ mget 0 u.io.ringIdx k = mget 0 s.io.ringIdx k + 1 ∧
      u.errors.elp = s.errors.elp + 1 ∧ u.io.messages = s.io.messages) ∧
  (∀ (s s1 : State) (k p key : Nat), Bell.v (s.bell k) = true → Bell.kind (s.bell k) = 2 →
    mget 0 s.io.ringIdx k ≠ mget 0 s.io.ringW k →
    let x := Bell.ctx (s.bell k)
    let va := Bell.target (s.bell k) + BitVec.ofNat 64 (64 * ((mget 0 s.io.ringIdx k).toNat % 2 ^ Bell.slog (s.bell k)))
    va.toNat < 2 ^ 60 → s.translate .iommu x true .unitLoad va.toNat = (.pa p key, s1) →
    let r := (s1.cxlReads p 64).readGranules key p 4
    let bits : BitVec 512 := bputs (BitVec.ofNat 512 (bytesNat r.1)) [(96, 16, x), (64, 8, r.2.2.io.modId.toNat)]
    r.2.1 = false → Msg.reserved bits = false → Msg.type bits = 1 → Msg.dstMod bits = r.2.2.io.modId.toNat →
    ∃ u, exec (.messageTake k) s = .next u ∧ mget 0 u.io.ringIdx k = mget 0 s.io.ringIdx k + 1 ∧
      u.io.messages = r.2.2.io.messages ++ [⟨bits, false, BitVec.ofNat 16 x, va, false, false, none⟩]) ∧
  (∀ (s : State) (i : Nat) (m : Message), s.io.messages[i]? = some m → m.code = none → s.msgBlocked i m = false →
    m.fromMgmt = false → s.localMsg m = true → m.held = false →
    exec (.messageDelivery i) s = .next (s.deliverLocal i m)) ∧
  (∀ (s : State) (i : Nat) (m : Message), s.io.messages[i]? = some m → m.code = none → s.msgBlocked i m = false →
    let r := s.ctxRec (Msg.dstCtx m.bits)
    (m.fromMgmt = false → m.remote = true → CtxF.state r ≠ 1 →
      ∃ u, exec (.messageDelivery i) s = .next u ∧ u.io.messages = s.io.messages.eraseIdx i ∧
        u.out = s.out ++ [.message (Msg.setStatus m.bits Cause.deadContext.code)] ∧ u.mem = s.mem) ∧
    (m.fromMgmt = false → m.remote = true → m.held = false → CtxF.state r = 1 → 2 ≤ CtxF.ilog r → CtxF.ilog r ≤ 12 →
      CtxF.run r ≠ 0 →
      let base := CtxF.inbox r
      let iw := bytesNat (peeks s.mem base 4)
      let slot := base + 64 + 64 * (iw % 2 ^ CtxF.ilog r)
      (iw + 2 ^ 32 - bytesNat (peeks s.mem (base + 8) 4)) % 2 ^ 32 < 2 ^ CtxF.ilog r →
      base % 64 = 0 → s.installed base = true → s.installed slot = true → slot + 64 ≤ 0xC000000000 →
      (∀ g ∈ [base / 16, slot / 16, slot / 16 + 1, slot / 16 + 2, slot / 16 + 3], s.subFailed (16 * g) = false ∧ s.slotGranule? g = none) →
      s.holds = [] → (∀ n ∈ s.io.messages, n.held = false) →
      mget 0 s.memKey (base / 16) = s.keyTag (CtxF.ckey r) →
      ∃ u, exec (.messageDelivery i) s = .next u ∧ u.io.messages = s.io.messages.eraseIdx i ∧
        u.out = s.out ++ [.message (Msg.setStatus m.bits 0x01)] ∧ peeks u.mem slot 64 = natBytes 64 m.bits.toNat ∧
        bytesNat (peeks u.mem base 4) = (iw + 1) % 2 ^ 32 ∧
        CtxF.pend (u.ctxRec (Msg.dstCtx m.bits)) = Nat.min 65535 (CtxF.pend r + 1)) ∧
    (m.fromMgmt = true → Msg.type m.bits = 2 → Msg.reserved m.bits = false → Msg.dstMod m.bits ≠ s.io.modId.toNat →
      ∃ u, exec (.messageDelivery i) s = .next u ∧ u.io.messages = s.io.messages.eraseIdx i ∧ u.io.msBusy = false ∧ u.mem = s.mem ∧
        (s.peerUp (Msg.dstMod m.bits) = true → u.io.msStatus = 0x01 ∧ u.out = s.out ++ [.message m.bits]) ∧
        (s.peerUp (Msg.dstMod m.bits) = false → u.io.msStatus = Cause.linkDown.code ∧ u.out = s.out))) ∧
  (∀ (s : State) (i : Nat) (m : Message), s.io.messages[i]? = some m → m.code = none →
    CtxF.state (s.ctxRec (Msg.dstCtx m.bits)) ≠ 1 →
    s.deliverLocal i m = s.completeMessage i m Cause.deadContext.code) ∧
  (∀ (s : State) (i : Nat) (m : Message) (x : BitVec 16), s.io.messages[i]? = some m → m.held = true →
    Msg.dstCtx m.bits = x.toNat → (∀ j n, j < i → s.io.messages[j]? = some n → n.held = false) →
    exec (.messageRetry x) s = .next (s.deliverLocal i { m with held := false }) ∧
    (m.fromMgmt = false → m.remote = true → CtxF.state (s.ctxRec x.toNat) ≠ 1 →
      ∃ u, exec (.messageRetry x) s = .next u ∧ u.io.messages = s.io.messages.eraseIdx i ∧
        u.out = s.out ++ [.message (Msg.setStatus m.bits Cause.deadContext.code)] ∧ u.mem = s.mem)) ∧
  (∀ (s : State) (m : BitVec 512), s.peerUp (Msg.srcMod m) = true → Msg.type m = 1 →
    ∃ u, exec (.turnReadyReceive m) s = .next u ∧
      u.io.messages = s.io.messages ++ [⟨m, false, Msg.srcCtx m, 0, false, true, none⟩] ∧ u.mem = s.mem) ∧
  (∀ (s : State) (m : BitVec 512), s.peerUp (Msg.srcMod m) = true → Msg.type m = 2 → s.dataWaits (Msg.srcMod m) = false →
    let base := s.io.mrbase.toNat
    let a := base - 0x100000
    0x100000 ≤ base → base + 1088 ≤ 0x200000 → (s.sramWord a + 2 ^ 32 - s.sramWord (a + 8)) % 2 ^ 32 ≠ 16 →
    ∃ u, exec (.turnReadyReceive m) s = .next u ∧ u.io = s.io ∧ u.mem = s.mem ∧
      u.mgmt.sram = pokes (pokes s.mgmt.sram (a + 64 + 64 * (s.sramWord a % 16)) (natBytes 64 m.toNat)) a
        (natBytes 4 (s.sramWord a + 1)))

/-- Requests of endpoints: one to memory is translated and performed in its function's context, or refused; one at a translated
address needs ATS; one to the interrupt aperture arrives at the entry it names where RID agrees; a peer's request goes through
an open inbound window or is refused; a write of more than the 512 bytes that a root or peer port takes is refused (R344, R346, R347,
R353, R356, R258). -/
def Obligations.EndpointEventsHappen : Prop :=
  ∀ (s : State) (r : EpReq),
    (inAperture r.addr = true → (overPayload .root r = false →
        exec (.endpointRequest r) s = .next (s.apertureRequest r.addr.toNat true r)) ∧
      exec (.msixArrival r) s = .next (s.apertureRequest r.addr.toNat true r)) ∧
    (∀ data, inAperture r.addr = true → r.write = some data → data.length = 4 → r.addr.toNat % 16 = 0 →
      let n := (r.addr.toNat - 0xFEE00000) / 16
      IrqF.v (s.irq n) = true → IrqF.src (s.irq n) = false → IrqF.rid (s.irq n) = r.rid.toNat →
      (IrqF.state (s.irq n) = 2 → ∃ u, exec (.msixArrival r) s = .next u ∧
        IrqF.pend (u.irq n) = Nat.min 65535 (IrqF.pend (s.irq n) + 1) ∧ u.mem = s.mem ∧ u.cores = s.cores) ∧
      (IrqF.state (s.irq n) = 1 → exec (.msixArrival r) s = .next (s.irqPhase (IrqF.core (s.irq n)) (24 + IrqF.bar (s.irq n))))) ∧
    (∀ x, overPayload .root r = false → inAperture r.addr = false → Fn.v (s.fn r.rid.toNat) = true →
      (r.pasid = none ∨ Fn.pasen (s.fn r.rid.toNat) = true) → r.exec = false → r.translated = false →
      s.ctxOfPasid ((r.pasid.map (·.toNat)).getD (Fn.dpasid (s.fn r.rid.toNat))) = some x →
      exec (.endpointRequest r) s = .next (s.epAccess r.rid x r.addr.toNat .endpoint r)) ∧
    (overPayload .root r = false → inAperture r.addr = false → Fn.v (s.fn r.rid.toNat) = true →
      (r.pasid = none ∨ Fn.pasen (s.fn r.rid.toNat) = true) → r.exec = false → r.translated = true →
      (Fn.ats (s.fn r.rid.toNat) = true → exec (.endpointRequest r) s = .next (s.epPerform r.rid 0 r.addr.toNat .endpoint r
        (s.atsPlaces r.rid (epNeed r) (epCovers r r.addr.toNat)))) ∧
      (Fn.ats (s.fn r.rid.toNat) = false → r.write = none →
        ∃ u, exec (.endpointRequest r) s = .next u ∧ u.out = s.out ++ [.unsupported r.rid] ∧ u.errors.elp = s.errors.elp + 1 ∧
          u.mem = s.mem)) ∧
    (inAperture r.addr = false → Fn.v (s.fn r.rid.toNat) = false → r.write = none →
      ∃ u, exec (.endpointRequest r) s = .next u ∧ u.out = s.out ++ [.unsupported r.rid] ∧ u.errors.elp = s.errors.elp + 1 ∧
        u.mem = s.mem) ∧
    (∀ port e x, s.linkUp port = true → s.linkRole port = .peer →
      let n := match r.write with
        | some d => d.length
        | none => r.len
      s.inboundWindow port r.addr.toNat (Nat.max 1 n) = some e → (r.write.isSome = true → e.getLsbD 253 = true) → r.exec = false →
      s.ctxOfPasid (bget e 228 20) = some x → overPayload .peer r = false →
      let va := bget e 64 60 + (r.addr.toNat - bget e 0 64)
      inAperture (BitVec.ofNat 64 va) = false →
      exec (.peerInboundRequest port r) s = .next (s.epAccess r.rid x va .peer r)) ∧
    (∀ port, s.linkUp port = true → s.linkRole port = .peer → r.write = none →
      s.inboundWindow port r.addr.toNat (Nat.max 1 r.len) = none →
      ∃ u, exec (.peerInboundRequest port r) s = .next u ∧ u.out = s.out ++ [.unsupported r.rid] ∧ u.errors.elp = s.errors.elp + 1 ∧
        u.mem = s.mem) ∧
    (∀ data, r.write = some data → 512 < data.length →
      (∃ u, exec (.endpointRequest r) s = .next u ∧ u.errors.elp = s.errors.elp + 1 ∧ u.mem = s.mem ∧ u.io = s.io ∧ u.out = s.out) ∧
      (∀ port, s.linkUp port = true → s.linkRole port = .peer →
        ∃ u, exec (.peerInboundRequest port r) s = .next u ∧ u.errors.elp = s.errors.elp + 1 ∧ u.mem = s.mem ∧ u.io = s.io ∧ u.out = s.out))

/-- Translation services: an endpoint that may not ask is refused and logged; one whose PASID no record has is denied; one that may
gets the address and the rights of a resident page, which it then holds, or a page request's success; that a function whose PRI is clear
is refused and logged is the model's choice (log 115: R258 and R347 give no answer). A completed or late invalidation is no longer owed and
what it covers no longer held; a late one clears ATS of its function and is logged, and the function's later ones, each under its own
drain, are owed still (R258, R328, R338). -/
def Obligations.TranslationServiceEventsHappen : Prop :=
  (∀ (s : State) (rid : BitVec 16) (pasid : Option (BitVec 20)) (va : BitVec 64),
    (s.xlateAllowed rid pasid Fn.ats = false → ∃ u, exec (.atsRequest rid pasid va) s = .next u ∧
      u.out = s.out ++ [.unsupported rid] ∧ u.errors.elp = s.errors.elp + 1) ∧
    (s.xlateAllowed rid pasid Fn.pri = false → ∃ u, exec (.priRequest rid pasid va) s = .next u ∧
      u.out = s.out ++ [.unsupported rid] ∧ u.errors.elp = s.errors.elp + 1) ∧
    (s.xlateCtx rid pasid = none →
      (s.xlateAllowed rid pasid Fn.ats = true → exec (.atsRequest rid pasid va) s = .next (s.emit (.atsReply rid 0 false false))) ∧
      (s.xlateAllowed rid pasid Fn.pri = true → exec (.priRequest rid pasid va) s = .next (s.emit (.prgReply rid false)))) ∧
    (∀ (s1 : State) x e size p key, s.xlateAllowed rid pasid Fn.ats = true → s.xlateCtx rid pasid = some x → va.toNat < 2 ^ 60 →
      s.xlate .iommu x true .load va.toNat = (.pa p key, (e, size), s1) →
      exec (.atsRequest rid pasid va) s = .next
        ((s1.holdAts ⟨rid, ⟨.iommu, BitVec.ofNat 16 x, va.toNat / size * size, size, e, none⟩⟩).emit
          (.atsReply rid (BitVec.ofNat 64 p) (Pte.rd e) (Pte.w e)))) ∧
    (∀ (s1 : State) x, s.xlateAllowed rid pasid Fn.pri = true → s.xlateCtx rid pasid = some x → va.toNat < 2 ^ 60 →
      (∀ p key, s.translate .iommu x true .load va.toNat = (.pa p key, s1) →
        exec (.priRequest rid pasid va) s = .next (s1.emit (.prgReply rid true))) ∧
      (∀ e, s.translate .iommu x true .load va.toNat = (.absent e, s1) →
        exec (.priRequest rid pasid va) s = .next (s1.startPromotion x va e (some (.pri rid va)))))) ∧
  (∀ (s : State) (idx i : Nat) (rid : BitVec 16) (d : Drain), s.owedInvs[idx]? = some (i, rid) → s.io.drains[i]? = some d →
    exec (.atsInvalidationCompletion idx) s = .next (((s.dropAts rid d).modIo (fun io => { io with
      drains := io.drains.modify i (fun d => { d with owing := d.owing.erase rid }) })).settleDrains) ∧
    ∃ u, exec (.atsInvalidationCompletion idx) s = .next u ∧ u.mem = s.mem ∧
      ∀ t ∈ u.io.ats, ¬(t.rid = rid ∧ tlbHit d.kind d.addr.toNat d.ctx.toNat t.ent = true)) ∧
  (∀ (s : State) (rid : BitVec 16) (i : Nat) (d : Drain), s.io.drains.findIdx? (fun d => d.owing.contains rid) = some i →
    s.io.drains[i]? = some d →
    ∃ u, exec (.atsInvalidationTimeout rid) s = .next u ∧ u.errors.elp = s.errors.elp + 1 ∧ (u.fn rid.toNat).getLsbD 62 = false ∧
      (∀ t ∈ u.io.ats, ¬(t.rid = rid ∧ tlbHit d.kind d.addr.toNat d.ctx.toNat t.ent = true)) ∧
      (∀ j d', j ≠ i → s.io.drains[j]? = some d' → rid ∈ d'.owing → d' ∈ u.io.drains) ∧
      (({ d with owing := d.owing.erase rid } : Drain) ∈ u.io.drains ∨ d.owing.erase rid = []) ∧ u.mem = s.mem)

/-- Links and the host face: a link whose port's mode gives it a role trains at the highest rate of both ends, with CXL only at a root
port, at 64 GT/s at most, and the options of its role, and a peer link keeps the modules it has reached; a link that is lost is down, and a window that was open
is closed, and each is logged once as LINK_DOWN; without an up host link a notification and a request do nothing. Over one the
notification of a queue that the host has enabled reaches whoever carries the function, and a buffer that stands in its ring is taken and
used, which may tell the host by the vector of its queue, or, poisoned, is logged; a request to what the device exposes is served, a
register that the host has set up reads back, a write of more than 256 bytes is reported through AER, any other request ends as Unsupported
Request, and none reaches memory or the log (R15, R20, R344, R357, R359, R362, R363, R389). The model's choices in it: the vector of queue q
is q, and what the host's set-up registers do (log 101: R362 numbers no vector); when the console changes hands, whether the ring holds a
buffer and whether its data are poisoned is free (log 105), and so is which addresses are exposed (log 6). -/
def Obligations.LinkEventsHappen : Prop :=
  (∀ (s : State) (port rate r : Nat) (cxl : Bool) (md : BitVec 8), s.linkRole port ≠ .none →
    trainedRate rate (cxl && s.linkRole port == .root) = some r →
    ∃ u l, exec (.linkTrain port rate cxl md) s = .next u ∧ mget none u.io.links port = some l ∧
      l.up = true ∧ l.rate = r ∧ l.module = md ∧ (l.cxl = true ↔ cxl = true ∧ s.linkRole port = .root) ∧
      (l.cxl = true → l.rate ≤ 640) ∧ l.options = portOptions (s.linkRole port) r ∧ (s.linkRole port = .peer → md ∈ l.reached) ∧
      (∀ old, mget none s.io.links port = some old → ∀ m ∈ old.reached, m ∈ l.reached) ∧
      (∀ p, p ≠ port → mget none u.io.links p = mget none s.io.links p) ∧ u.mem = s.mem) ∧
  (∀ (s : State) (port : Nat) (l : Link), mget none s.io.links port = some l → l.up = true →
    ∃ u, exec (.linkDown port none) s = .next u ∧ mget none u.io.links port = some { l with up := false } ∧ u.mem = s.mem ∧
      u.errors.elp = s.errors.elp + 1 ∧
      bget (mget 0 u.errors.log (s.errors.elp.toNat % 256) : BitVec 256) 208 8 = Cause.linkDown.code.toNat) ∧
  (∀ (s : State) (port w : Nat), port < 8 → w < 32 →
    ∃ u, exec (.linkDown port (some w)) s = .next u ∧ (mget 0 u.io.ntb (32 * port + w) : BitVec 256).getLsbD 255 = false ∧
      u.mem = s.mem ∧ ((mget 0 s.io.ntb (32 * port + w) : BitVec 256).getLsbD 255 = false → u.errors = s.errors) ∧
      ((mget 0 s.io.ntb (32 * port + w) : BitVec 256).getLsbD 255 = true → u.errors.elp = s.errors.elp + 1 ∧
        bget (mget 0 u.errors.log (s.errors.elp.toNat % 256) : BitVec 256) 208 8 = Cause.linkDown.code.toNat)) ∧
  (∀ (s : State) (fn q : Nat) (r : HostAccess), s.hostUp = false →
    exec (.virtioNotify fn q) s = .next s ∧ exec (.hostRequest r) s = .next s) ∧
  (∀ (s : State) (fn q : Nat), s.hostUp = true → fn < 2 → q < 2 →
    let who := (s.virtioCarrier fn).1
    let free := (s.virtioCarrier fn).2.free
    (fn = 1 ∨ s.mgmt.stage = .summer → who = .system) ∧ (fn = 0 → s.mgmt.stage = .winter → who = .management) ∧
    ((s.virtq fn q).enabled = false → exec (.virtioNotify fn q) s = .next s) ∧
    ((s.virtq fn q).enabled = true → ∃ u, exec (.virtioNotify fn q) s = .next u ∧ u.mem = s.mem ∧
      (Config.freeBit free = false → u.errors = s.errors ∧ u.out = s.out ++ [.virtioNotified who fn q]) ∧
      (Config.freeBit free = true → (u.virtq fn q).taken = (s.virtq fn q).taken + 1 ∧
        ∃ moves, (∀ o ∈ moves, (∃ a n, o = .hostRead a n) ∨ ∃ a bs, o = .hostWrite a bs) ∧
          (Config.freeBit (free + 1) = true → u.out = s.out ++ [.virtioNotified who fn q] ++ moves ∧
            (∀ a bs, .hostWrite a bs ∉ moves) ∧ u.errors.elp = s.errors.elp + 1 ∧
            bget (mget 0 u.errors.log (s.errors.elp.toNat % 256) : BitVec 256) 216 8 = 0x0B) ∧
          (Config.freeBit (free + 1) = false → u.errors = s.errors ∧ (u.virtq fn q).filled = (s.virtq fn q).filled + 1 ∧
            (u.out = s.out ++ [.virtioNotified who fn q] ++ moves ∨
              (s.anyLink (·.msixSent) = true ∧ u.out = s.out ++ [.virtioNotified who fn q] ++ moves ++ [.hostMsix fn q])))))) ∧
  (∀ (s : State) (r : HostAccess), s.hostUp = true → ∃ u, exec (.hostRequest r) s = .next u ∧ u.mem = s.mem ∧ u.errors = s.errors ∧
    (Config.freeBit s.free = false → u.io = s.io ∧ u.out = s.out ++ [.hostUnsupported]) ∧
    (Config.freeBit s.free = true →
      (∀ a data, r = .write a data →
        (256 < data.length → u.io = s.io ∧ ∀ link l, link < 32 → mget none s.io.links link = some l → l.up = true →
          l.options.aer = true → .aer link false ∈ u.out) ∧
        (data.length ≤ 256 → u.out = s.out ∧
          (∀ f, Config.virtioAt a = some f → u.io = (s.setVirtioReg (bytesNat data) f).io) ∧
          (Config.virtioAt a = none → ∀ i b, data[i]? = some b → mget none u.io.hostRegs (a.toNat + i) = some b))) ∧
      (∀ a len f, r = .read a len → Config.virtioAt a = some f → u.io = s.io ∧
        u.out = s.out ++ [.hostData (natBytes len (s.virtioReg f))]) ∧
      (∀ a len, r = .read a len → Config.virtioAt a = none → u.io = s.io ∧
        ∃ bs, u.out = s.out ++ [.hostData bs] ∧ bs.length = len ∧
          ∀ i b, i < len → mget none s.io.hostRegs (a.toNat + i) = some b → bs[i]? = some b)))

/-- What the system cores do after the Winter stage, and nothing of it in that stage: they write context records, doorbell map
entries, interrupt bindings, an invalidation request and any word of control space, which they also read, and access memory by
its physical address under key slot 0, a read of the capacity tier by its lines; a slot that this makes pending counts from now (R254, R273, R326, R338, R349, R352, R369,
R421). The management core and the fault unit write control space in any stage. -/
def Obligations.SystemCoreEventsHappen : Prop :=
  ∀ (s : State),
    (∀ (x : BitVec 16) (v : BitVec 256) i e j e' kind addr off size w r, s.mgmt.stage = .winter →
      ∀ a ∈ [Instr.contextRecordWrite x v, .doorbellMapWrite i e, .irqBindingWrite j e', .invalidationRequest kind addr x,
        .controlSpaceWrite .system off size w, .systemCoreMemoryAccess r], exec a s = .next s) ∧
    (s.mgmt.stage ≠ .winter →
      (∀ (x : BitVec 16) (v : BitVec 256), exec (.contextRecordWrite x v) s = .next ((s.writeCtx x.toNat v).stampPending s)) ∧
      (∀ i e, i < 16384 → exec (.doorbellMapWrite i e) s = .next ((s.writeBell i e).stampPending s)) ∧
      (∀ i e, i < 4096 → exec (.irqBindingWrite i e) s = .next ((s.writeIrq i e).stampPending s)) ∧
      (∀ kind addr ctx, ∃ u, exec (.invalidationRequest kind addr ctx) s = .next u ∧ u.mem = s.mem ∧
        ∀ t ∈ u.io.tlb, t ∈ s.io.tlb ∧ tlbHit kind addr.toNat ctx.toNat t = false) ∧
      (∀ off size v, exec (.controlSpaceWrite .system off size v) s = .next ((s.ioWrite .system off.toNat size v).stampPending s)) ∧
      (∀ (pa : BitVec 64) (data : List Byte), (∀ g ∈ granules pa.toNat data.length, s.installed (16 * g) = true) →
        exec (.systemCoreMemoryAccess (.write pa data)) s = .next ((s.unitWrite 0 pa.toNat data).stampPending s)) ∧
      (∀ (pa : BitVec 64) (len : Nat), (∀ g ∈ granules pa.toNat len, s.installed (16 * g) = true) →
        ∃ u bs, exec (.systemCoreMemoryAccess (.read pa len)) s = .next u ∧ u.mem = s.mem ∧
          u.out = (s.cxlReadGranules (granules pa.toNat len)).out ++ [.sysData bs] ∧
          ((∀ g ∈ granules pa.toNat len, isPeer (16 * g) = false ∧ mget 0 s.memKey g = s.keyTag 0) → bs = peeks s.mem pa.toNat len)) ∧
      (∀ off size, ∃ u, exec (.systemCoreMemoryAccess (.readCtl off size)) s = .next u ∧ u.mem = s.mem ∧
        u.out = s.out ++ [.sysData (natBytes size (s.ioRead off.toNat size).1.toNat)])) ∧
    (∀ who off size v, who ≠ .system → exec (.controlSpaceWrite who off size v) s = .next (s.ioWrite who off.toNat size v))

/-- HBM commands: a request of a core that waits, no earlier write to its bytes waiting with it, leaves the waiting ones; a failed
sub-channel completes it with no command, and so does a hit in L2, which a granule that L2 has held may still miss (log 97); a write that
misses enters its sub-channel's write queue with its byte mask, and is drained from there as a burst merged with its granules' other bytes;
a read that misses is answered by a write queue that covers it, else it enters the history of its sub-channel with its tag, its beats and
the bank state before it, and leaves its granules in L2 where their slice is not full, and while 64 commands wait it waits (R259, R260,
R392, R393). The oldest command leaves, and one that was replayed is logged; an alert rewinds the bank state to that before its command,
has it and every later one issued again in order, and the fourth alert on one tag fails the sub-channel. -/
def Obligations.HbmEventsHappen : Prop :=
  (∀ (s : State) (pa : BitVec 64) (beats : Nat) (write : Bool) (r : Burst),
    s.bursts.find? (fun r => r.pa == pa.toNat && r.size == 4 * beats && r.write == write) = some r →
    (∀ w ∈ s.bursts.takeWhile (· ≠ r), w.write = true → ¬(w.pa < r.pa + r.size ∧ r.pa < w.pa + w.size)) →
    let n := subChannel r.pa
    let c := s.sub n
    let left := s.bursts.erase r
    let missed : Prop := s.l2Holds r.pa r.size = false ∨ Config.freeBit s.free = true
    (c.failed = true → exec (.hbmBurst pa beats write) s = .next { s with bursts := left }) ∧
    (c.failed = false → s.l2Holds r.pa r.size = true → Config.freeBit s.free = false →
      exec (.hbmBurst pa beats write) s = .next { s with bursts := left, free := s.free + 1 }) ∧
    (c.failed = false → missed →
      (r.write = true → ∃ u, exec (.hbmBurst pa beats write) s = .next u ∧ u.bursts = left ∧ u.mem = s.mem ∧ u.l2 = s.l2 ∧
        u.sub n = { c with writes := c.writes ++ [⟨r.pa, r.size, r.mask⟩] }) ∧
      (r.write = false → c.covers r.pa r.size = true → ∃ u, exec (.hbmBurst pa beats write) s = .next u ∧ u.bursts = left ∧
        u.mem = s.mem ∧ u.sub n = c) ∧
      (r.write = false → c.covers r.pa r.size = false → c.history.length < 64 →
        ∃ u, exec (.hbmBurst pa beats write) s = .next u ∧ u.mem = s.mem ∧ u.errors.log = s.errors.log ∧ u.bursts = left ∧
          (u.sub n).history = c.history ++ [{ tag := c.nextTag, pa := r.pa, beats, data := none, before := c.banks }] ∧
          (u.sub n).nextTag = c.nextTag + 1 ∧ (u.sub n).writes = c.writes ∧
          (beats ∈ [4, 8, 16, 32] → r.pa % (4 * beats) = 0 → (s.l2In (r.pa / 16)).length + 8 ≤ l2Slice →
            u.l2Holds r.pa r.size = true)) ∧
      (r.write = false → c.covers r.pa r.size = false → 64 ≤ c.history.length → exec (.hbmBurst pa beats write) s = .next s))) ∧
  (∀ (s : State) (pa : BitVec 64) (beats : Nat) (w : QueuedWrite), (∀ r ∈ s.bursts, ¬(r.pa = pa.toNat ∧ r.size = 4 * beats ∧ r.write = true)) →
    let n := subChannel pa.toNat
    let c := s.sub n
    c.writes.find? (fun w => w.pa == pa.toNat && w.size == 4 * beats) = some w → c.history.length < 64 →
    ∃ u, exec (.hbmBurst pa beats true) s = .next u ∧ u.mem = s.mem ∧ u.bursts = s.bursts ∧ u.l2 = s.l2 ∧
      (u.sub n).writes = c.writes.erase w ∧ (u.sub n).nextTag = c.nextTag + 1 ∧ (u.sub n).history = c.history ++
        [{ tag := c.nextTag, pa := w.pa, beats, data := some (peeks s.mem w.pa w.size), before := c.banks }]) ∧
  (∀ (s : State) (n : Nat) (e : HbmCommand) (rest : List HbmCommand), (s.sub n).history = e :: rest →
    ∃ u, exec (.historyRetire n) s = .next u ∧ (u.sub n).history = rest ∧ u.mem = s.mem ∧
      u.errors.elp = s.errors.elp + (if e.replayed then 1 else 0)) ∧
  (∀ (s : State) (n : Nat) (tag : BitVec 6) (first : HbmCommand) (later : List HbmCommand),
    let c := s.sub n
    let kept := c.history.takeWhile (fun e => e.tag ≠ tag)
    c.history.dropWhile (fun e => e.tag ≠ tag) = first :: later →
    (c.replays < 3 ∨ c.replayTag ≠ tag →
      ∃ u, exec (.hbmAlert n tag) s = .next u ∧ u.errors.elp = s.errors.elp ∧ u.mem = s.mem ∧ (u.sub n).failed = c.failed ∧
        (u.sub n).nextTag = c.nextTag ∧ ∃ again, (u.sub n).history = kept ++ again ∧
        again.map (fun e => (e.tag, e.pa, e.beats, e.data)) = (first :: later).map (fun e => (e.tag, e.pa, e.beats, e.data)) ∧
        again.map (fun e => (e.issued, e.replayed)) =
          (first :: later).map (fun e => (e.issued + 1, if e.tag = tag then true else e.replayed)) ∧
        again.head?.map (·.before) = some first.before ∧
        (u.sub n).banks = (first :: later).foldl (fun b e => openRow b e.pa) first.before) ∧
    (3 ≤ c.replays → c.replayTag = tag →
      ∃ u, exec (.hbmAlert n tag) s = .next u ∧ (u.sub n).failed = true ∧ (u.sub n).history = [] ∧
        u.errors.elp = s.errors.elp + 1 ∧ u.mem = s.mem))

/-- Errors: a granule of scratchpad or device memory is marked and logged; a link retrains, which a free bit decides, or goes down, and the
host face reports it through AER, the other ports a retraining in the error log (R344); an
error in a core control structure stops its core unless it is retired, and is logged whatever the core does; a corrected error leaves only its log record; a marked granule of a CXL answer is marked in memory; a scrub
changes no table; the end of a passed self-test classifies its event and frees the place; a stack retrains with no save under way, and
not while a save that holds an image there cannot have run out of its time (R387, R391, R394–R397, R262, R415; log 34). -/
def Obligations.ErrorEventsHappen : Prop :=
  (∀ (s : State) (loc : Loc) (code : BitVec 8) (addr : BitVec 64), 0xE0 ≤ code.toNat → code.toNat ≤ 0xE5 →
    (loc.kind = 0 → loc.index.toNat / 4096 < 192 →
      ∃ u, exec (.uncorrectableError loc code addr) s = .next u ∧ u.errors.elp = s.errors.elp + 1 ∧ u.mem = s.mem ∧
        mget false (u.core loc.core.toNat).spPoison (loc.index.toNat / 4096 * 1024 + loc.index.toNat % 1024) = true) ∧
    (loc.kind = 4 → s.inTier 0 addr.toNat = true →
      ∃ u, exec (.uncorrectableError loc code addr) s = .next u ∧ u.errors.elp = s.errors.elp + 1 ∧ u.cores = s.cores ∧
        mget false u.memPoison (granule addr.toNat) = true ∧
        ∀ g, g ≠ granule addr.toNat → peeks u.mem (16 * g) 16 = peeks s.mem (16 * g) 16 ∧ mget false u.memPoison g = mget false s.memPoison g) ∧
    (loc.kind = 5 → ∀ l, mget none s.io.links (loc.index.toNat / 256) = some l →
      ∃ u, exec (.uncorrectableError loc code addr) s = .next u ∧ u.mem = s.mem ∧
        (l.options.aer = true → .aer (loc.index.toNat / 256) (Config.freeBit s.free) ∈ u.out) ∧
        (Config.freeBit s.free = true → u.io = s.io ∧
          u.errors.elp = s.errors.elp + (if l.options.errorsLogged = true then 1 else 0)) ∧
        (Config.freeBit s.free = false → (l.up = false → u.errors = s.errors) ∧ mget none u.io.links (loc.index.toNat / 256) = some { l with up := false })) ∧
    (loc.kind = 13 →
      ∃ u, exec (.uncorrectableError loc code addr) s = .next u ∧
        (u.core loc.core.toNat).status = (if (s.core loc.core.toNat).status = .retired then .retired else .stopped) ∧
        ((s.core loc.core.toNat).wg = none → u.errors.elp = s.errors.elp + 1))) ∧
  (∀ (s : State) (loc : Loc), loc.kind.toNat ≤ 5 →
    ∃ u, exec (.correctedError loc) s = .next u ∧ u.errors.elp = s.errors.elp + 1 ∧ u.mem = s.mem ∧ u.cores = s.cores ∧
      u.io = s.io ∧ u.mgmt = s.mgmt ∧ u.keys = s.keys) ∧
  (∀ (s : State) (pa : BitVec 64) (marks : BitVec 4), s.inTier 1 (pa.toNat / 64 * 64) = true →
    ∃ u, exec (.cxlDataResponse pa marks) s = .next u ∧ u.mem = s.mem ∧ ∀ g, mget false u.memPoison g =
      (if pa.toNat / 64 * 4 ≤ g ∧ g < pa.toNat / 64 * 4 + 4 ∧ marks.getLsbD (g - pa.toNat / 64 * 4) = true then true
       else mget false s.memPoison g)) ∧
  (∀ (s : State), ∃ u, exec .ioTableScrub s = .next u ∧ u.io = s.io ∧ u.keys = s.keys ∧ u.sched = s.sched ∧ u.mem = s.mem ∧
    u.errors.log = s.errors.log) ∧
  (∀ (s : State) (seq : Nat) (t : Test), s.errors.tests.find? (fun t => t.events.contains seq) = some t → t.events = [seq] →
    s.errors.recent seq { kind := t.kind, core := t.core, index := t.index, ext := t.ext } < 2 →
    ∃ u, exec (.selfTestDone seq true) s = .next u ∧ t ∉ u.errors.tests ∧ u.errors.elp = s.errors.elp + 1 ∧
      bget (mget 0 u.errors.log (s.errors.elp.toNat % 256)) 204 4 = 1 ∧ u.mem = s.mem ∧ u.cores = s.cores) ∧
  (∀ (s : State) (stack : Nat), stack < 12 → s.saves = [] →
    ∃ u, exec (.stackRetrainingStart stack) s = .next u ∧ mget false u.io.retraining stack = true ∧ u.mem = s.mem) ∧
  (∀ (s : State) (stack : Nat) (g : Grant), g ∈ s.saves → s.sealsOnto g stack = true → s.mayRunOut g = false →
    exec (.stackRetrainingStart stack) s = .next s) ∧
  (∀ (s : State) (stack : Nat), ∃ u, exec (.stackRetrainingEnd stack) s = .next u ∧
    mget false u.io.retraining stack = false ∧ u.mem = s.mem)

/-- The key store, guilt and the log's reader: eight bytes enter the staging buffer; a key slot that nothing uses takes the
buffer's material, which is zeroed, and a load of slot 0 or kind 11 is logged; GLIM of 0 stores 1; GUILT and BARRED clear; RUN is
written but for 11; ELC takes a value from READ to COUNT (R331, R332, R394). -/
def Obligations.KeyAndGuiltEventsHappen : Prop :=
  ∀ (s : State),
    (∀ v, s.mgmt.ksd.length + 8 ≤ 64 →
      ∃ u, exec (.keyDataWrite v) s = .next u ∧ u.mgmt.ksd = s.mgmt.ksd ++ natBytes 8 v.toNat ∧ u.keys = s.keys) ∧
    (∀ (slot : BitVec 12) (kind : BitVec 2) (owner : BitVec 16), s.keyInFlight slot.toNat = false →
      (slot ≠ 0 → kind ≠ 3 →
        ∃ u, exec (.keySlotLoad slot kind owner) s = .next u ∧ u.mgmt.ksd = [] ∧ u.errors = s.errors ∧
          (u.keySlot slot.toNat).owner = owner ∧ some (u.keySlot slot.toNat).kind = kindOfBits kind ∧
          (kind = 2 → s.mgmt.ksd.length = 64 → (u.keySlot slot.toNat).data = s.mgmt.ksd.take 32) ∧
          (kind = 1 → s.mgmt.ksd.length = 64 → (u.keySlot slot.toNat).data = s.mgmt.ksd)) ∧
      (slot = 0 ∨ kind = 3 →
        ∃ u, exec (.keySlotLoad slot kind owner) s = .next u ∧ u.keys = s.keys ∧ u.errors.elp = s.errors.elp + 1)) ∧
    (∀ v : Word, (∀ p ∈ s.io.ctxs, CtxF.guilt (s.ctxRec p.1) < Nat.max 1 (bget v 0 8)) →
      ∃ u, exec (.guiltLimitWrite v) s = .next u ∧ u.mgmt.glim.toNat = Nat.max 1 (bget v 0 8) ∧ u.io = s.io) ∧
    (∀ x : BitVec 16, ∃ u, exec (.guiltClear x) s = .next u ∧ CtxF.guilt (u.ctxRec x.toNat) = 0 ∧
      CtxF.barred (u.ctxRec x.toNat) = false ∧ CtxF.run (u.ctxRec x.toNat) = CtxF.run (s.ctxRec x.toNat)) ∧
    (∀ (x : BitVec 16) (run : BitVec 2), (run = 3 → exec (.contextRunWrite x run) s = .next s) ∧
      (run ≠ 3 → (run ≠ 0 ∨ CtxF.run (s.ctxRec x.toNat) = 0) →
        ∃ u, exec (.contextRunWrite x run) s = .next u ∧ CtxF.run (u.ctxRec x.toNat) = run.toNat)) ∧
    (∀ v : Word, ∃ u, exec (.errorLogConsume v) s = .next u ∧ u.errors = s.errors ∧
      u.mgmt.elc.toNat = Nat.max s.mgmt.elc.toNat (Nat.min v.toNat s.errors.elp.toNat))

/-- Power and heat: the WATTS field of PLIM is clamped to 600–2,800; a measurement moves the duties one step; 95 °C caps them at 8, below 90 °C the
cap lifts, and 110 °C sets TRIP and returns the device to Winter, where it stays until it has cooled (R425, R427). -/
def Obligations.PowerEventsHappen : Prop :=
  ∀ (s : State),
    (∀ v : Word, ∃ u, exec (.powerLimitWrite v) s = .next u ∧ u.mgmt.plim.toNat = Nat.max 600 (Nat.min 2800 (bget v 0 12)) ∧
      u.mgmt.duty0 = s.mgmt.duty0 ∧ u.mem = s.mem) ∧
    (∀ w : Nat, ∃ u, exec (.powerSample w) s = .next u ∧ u.mem = s.mem ∧
      (s.mgmt.plim.toNat < w → u.mgmt.duty0 = Nat.max 4 (s.mgmt.duty0 - 1) ∧ u.mgmt.duty1 = Nat.max 4 (s.mgmt.duty1 - 1)) ∧
      (100 * w < 95 * s.mgmt.plim.toNat → s.mgmt.hot = false →
        u.mgmt.duty0 = Nat.min 16 (s.mgmt.duty0 + 1) ∧ u.mgmt.duty1 = Nat.min 16 (s.mgmt.duty1 + 1)) ∧
      (w ≤ s.mgmt.plim.toNat → 95 * s.mgmt.plim.toNat ≤ 100 * w → u.mgmt = s.mgmt)) ∧
    (∀ t : BitVec 8, 95 ≤ t.toNat → t.toNat < 110 → ∃ u, exec (.thermalCap t) s = .next u ∧ u.mgmt.hot = true ∧ u.mgmt.temp = t ∧
      u.mgmt.duty0 = Nat.min 8 s.mgmt.duty0 ∧ u.mgmt.duty1 = Nat.min 8 s.mgmt.duty1 ∧ u.mem = s.mem) ∧
    (∀ t : BitVec 8, t.toNat < 90 → ∃ u, exec (.thermalCapLift t) s = .next u ∧ u.mgmt.hot = false ∧ u.mgmt.temp = t ∧
      u.mgmt.cooling = false ∧ u.mgmt.duty0 = Nat.min 16 s.mgmt.duty0 ∧ u.mgmt.duty1 = Nat.min 16 s.mgmt.duty1 ∧ u.mem = s.mem) ∧
    (∀ t : BitVec 8, 110 ≤ t.toNat → ∃ u, exec (.thermalTrip t) s = .next u ∧ u.mgmt.trip = true ∧ u.mgmt.temp = t ∧
      u.mgmt.stage = .winter ∧ u.mgmt.thread.pc = 0x100 ∧ u.mayAdvance = false ∧
      ((∀ p ∈ s.cores, ∀ t ∈ p.2.threads, t.2.storeQ = []) → s.mgmt.thread.storeQ = [] → u.mem = s.mem))

/-- A core restarts only from STATE 01 and is then as Table 22-8 leaves it, its group at the firmware's entry; a retired core
stays retired; a kill is ignored while GO is set, and of context 0 is only logged; a stage that may advance does, the first fixing the
port modes; a device reset starts the management core again, keeps memory, has the retired positions tested again and draws BOOTID anew;
MSCTL.SEND stamps and takes the message, which a poisoned word completes at once with POISON_USE (R389, R399, R400, R401, R421, R422, R361; log 130). The entry of the firmware and what a reset keeps are the model's readings (logs 5, 28). -/
def Obligations.ControlEventsHappen : Prop :=
  ∀ (s : State),
    (∀ c, (s.core c).status = .stopped → (s.core c).wg = none →
      ∃ u, exec (.coreRestart c) s = .next u ∧ (u.core c).status = .running ∧ (u.core c).started = true ∧
        (u.core c).supPc = supEntryPc ∧ (u.core c).threads = [] ∧ (u.core c).sp = [] ∧ (u.core c).tasks = [] ∧
        ((∀ t ∈ (s.core c).threads, t.2.storeQ = []) → u.mem = s.mem)) ∧
    (∀ c, (s.core c).status = .running → (s.core c).wg = none →
      ∃ u, exec (.coreRetire c) s = .next u ∧ (u.core c).status = .retired ∧ u.errors.elp = s.errors.elp + 2 ∧ u.mem = s.mem) ∧
    (∀ c, (s.core c).status = .retired → exec (.coreRetire c) s = .next s ∧ exec (.coreRestart c) s = .next s) ∧
    (∀ (x : BitVec 16) (code : BitVec 8),
      (s.mgmt.ctxkGo = true → exec (.contextKill x code) s = .next s) ∧
      (s.mgmt.ctxkGo = false → assignedCode code = true → x = 0 →
        ∃ u, exec (.contextKill x code) s = .next u ∧ u.errors.elp = s.errors.elp + 1 ∧ u.cores = s.cores ∧ u.io = s.io) ∧
      (s.mgmt.ctxkGo = false → assignedCode code = true → x ≠ 0 →
        ∃ u, exec (.contextKill x code) s = .next u ∧ CtxF.barred (u.ctxRec x.toNat) = true ∧ u.mgmt.ctxkId = x)) ∧
    (s.mayAdvance = true → s.mgmt.stage = .winter →
      ∃ u, exec .stageAdvance s = .next u ∧ u.mgmt.stage = .spring ∧ u.io.modesFixed = true ∧ u.mgmt.retiredPos = [] ∧
        (∀ c, c ∉ s.mgmt.retiredPos → (u.core c).status = (s.core c).status) ∧
        (s.mgmt.retiredPos = [] → u.mem = s.mem ∧ u.cores = s.cores ∧ u.errors = s.errors)) ∧
    (s.mayAdvance = true → s.mgmt.stage = .spring →
      ∃ u, exec .stageAdvance s = .next u ∧ u.mgmt.stage = .summer ∧
        ((∀ p ∈ s.cores, ∀ t ∈ p.2.threads, t.2.storeQ = []) → (∀ k, BR.v (s.slot k).bindRec = false) → u.mem = s.mem) ∧
        ∀ c, c < 256 → (s.core c).status ≠ .retired → (u.core c).started = true ∧ (u.core c).status = .running) ∧
    (s.mayAdvance = false → exec .stageAdvance s = .next s) ∧
    (∃ u, exec .deviceReset s = .next u ∧ u.mgmt.thread = State.reset.mgmt.thread ∧ u.mgmt.stage = .winter ∧ u.cores = [] ∧
      (∀ c, (s.core c).status = .retired → c ∈ u.mgmt.retiredPos) ∧
      u.mem = s.mem ∧ u.keys.slots = [] ∧ u.errors = State.reset.errors ∧ u.keys.bootId = Config.freePair s.free) ∧
    (s.io.msBusy = false → ∃ u, exec .msctlSend s = .next u ∧ u.io.msBusy = true ∧ ∃ m, u.io.messages = s.io.messages ++ [m] ∧
      bget m.bits 64 8 = s.io.modId.toNat ∧ m.fromMgmt = true ∧
      m.code = (if s.io.msendPoison.any (·.2) = true then some Cause.poisonUse.code else none))

/-- SPDM: a request that may be posted enters RBUF and both sequence numbers move, or waits while the connection serves another; a reply
whose TSEQ is RSEQ leaves the device, or, poisoned, is stopped there and logged (R389, log 131), and the first request that waits enters RBUF; where the scan is at the connection, each accepted
request has its reply laid down with TSEQ = RSEQ and takes the connection on, its logs and its counter as R384 says; one
that is not accepted gets its error reply and changes no record of the connection but that it was seen (R380, R381, R382, R384). The octets of the replies are those of the worked session (Table 21-2). -/
def Obligations.SpdmEventsHappen : Prop :=
  ∀ (s : State) (conn : Conn),
    (∀ req, s.transportUp conn = true → req ≠ [] → req.length ≤ 4096 → s.tseq conn = s.rseq conn → (s.spdm conn).sent.toNat = s.rseq conn →
      ∃ u, exec (.spdmRequestPost conn req) s = .next u ∧ u.rseq conn = (s.rseq conn + 1) % 2 ^ 32 ∧
        u.sramWord areaAseq = (s.sramWord areaAseq + 1) % 2 ^ 32 ∧
        peeks u.mgmt.sram (Conn.area conn + 0x1000) req.length = req ∧ u.mem = s.mem) ∧
    (∀ req, s.transportUp conn = true → req ≠ [] → req.length ≤ 4096 → s.serving? conn = true →
      ∃ u, exec (.spdmRequestPost conn req) s = .next u ∧ (u.spdm conn).waiting = (s.spdm conn).waiting ++ [req] ∧
        u.mgmt = s.mgmt ∧ u.mem = s.mem) ∧
    (s.tseq conn = s.rseq conn → (s.spdm conn).sent.toNat ≠ s.rseq conn →
      let reply := granules (Conn.area conn + 12) 4 ++ granules (Conn.area conn + 0x2000) (s.sramWord (Conn.area conn + 12))
      ∃ u, exec (.transportReplySend conn) s = .next u ∧ (u.spdm conn).sent.toNat = s.rseq conn ∧
        ((∀ g ∈ reply, mget false s.mgmt.sramPoison g = false) → u.errors = s.errors ∧
          u.out = s.out ++ [.spdmReply conn (peeks s.mgmt.sram (Conn.area conn + 0x2000) (s.sramWord (Conn.area conn + 12)))]) ∧
        ((∃ g ∈ reply, mget false s.mgmt.sramPoison g = true) → u.out = s.out ∧ u.errors.elp = s.errors.elp + 1 ∧
          bget (mget 0 u.errors.log (s.errors.elp.toNat % 256) : BitVec 256) 216 8 = 0x0B) ∧
        (u.spdm conn).waiting = (s.spdm conn).waiting.drop 1 ∧
        ((s.spdm conn).waiting = [] → u.mgmt = s.mgmt) ∧
        (∀ req rest, (s.spdm conn).waiting = req :: rest → req.length ≤ 4096 → u.rseq conn = (s.rseq conn + 1) % 2 ^ 32 ∧
          peeks u.mgmt.sram (Conn.area conn + 0x1000) req.length = req)) ∧
    (∀ code req reply after, SpdmAccepts s conn code req reply after →
      (code = 0x84 → exec (.getVersion conn) s = .next (s.putReply conn after reply)) ∧
      (code = 0xE1 → exec (.getCapabilities conn) s = .next (s.putReply conn after reply)) ∧
      (code = 0xE3 → exec (.negotiateAlgorithms conn) s = .next (s.putReply conn after reply)) ∧
      (code = 0x81 → exec (.getDigests conn) s = .next (s.putReply conn after reply)) ∧
      (code = 0x82 → exec (.getCertificate conn) s = .next (s.putReply conn after reply)) ∧
      (∀ nonce, nonceOf code req = some nonce → let t := s.sramWrite (Conn.block conn + 0x30) nonce
        (code = 0x83 → exec (.challenge conn) s = .next (t.putReply conn after reply)) ∧
        (code = 0xE0 → exec (.getMeasurements conn) s = .next (t.putReply conn after reply)))) ∧
    (∀ req code reply, s.scanTurn conn = true → s.request? conn = some req → s.answer conn req = ⟨code, reply, none⟩ →
      exec (.spdmErrorReply conn) s = .next (s.putReply conn (s.spdm conn) reply)) ∧
    (∀ x y : Byte, SpdmPosted s conn [0x10, 0x84, x, y] →
      SpdmAnswers s (.getVersion conn) conn
        (spdmLogged (s.spdm conn) .v ([0x10, 0x84, x, y] ++ [0x10, 0x04, 0, 0, 0, 1, 0, 0x12])
          ([0x10, 0x84, x, y] ++ [0x10, 0x04, 0, 0, 0, 1, 0, 0x12])) [0x10, 0x04, 0, 0, 0, 1, 0, 0x12]) ∧
    (∀ (p : Spdm) (req rest : List Byte), s.spdm conn = p → logsOpen p → SpdmPosted s conn req →
      (p.st = .v → req = 0x12 :: 0xE1 :: rest → rest.length = 18 →
        SpdmAnswers s (.getCapabilities conn) conn
          (spdmLogged p .c (p.m1 ++ req ++ [0x12, 0x61, 0, 0, 0, 10, 0, 0, 0x16, 0, 0, 0, 0, 0x10, 0, 0, 0, 0x10, 0, 0])
            (p.l1 ++ req ++ [0x12, 0x61, 0, 0, 0, 10, 0, 0, 0x16, 0, 0, 0, 0, 0x10, 0, 0, 0, 0x10, 0, 0]))
          [0x12, 0x61, 0, 0, 0, 10, 0, 0, 0x16, 0, 0, 0, 0, 0x10, 0, 0, 0, 0x10, 0, 0]) ∧
      (p.st = .c → req = 0x12 :: 0xE3 :: rest → 30 ≤ rest.length → bytesNat ((req.drop 4).take 2) = req.length →
        (req.getD 6 0).getLsbD 0 = true → (bytesNat ((req.drop 8).take 4)).testBit 7 = true →
        (bytesNat ((req.drop 12).take 4)).testBit 1 = true → ∀ reply : List Byte,
        reply = [0x12, 0x63, 0, 0, 36, 0, 1, 0, 4, 0, 0, 0, 0x80, 0, 0, 0, 2, 0, 0, 0] ++ List.replicate 16 0 →
        SpdmAnswers s (.negotiateAlgorithms conn) conn (spdmLogged p .n (p.m1 ++ req ++ reply) (p.l1 ++ req ++ reply)) reply) ∧
      (p.st = .n → req = 0x12 :: 0x81 :: rest → rest.length = 2 →
        SpdmAnswers s (.getDigests conn) conn { p with m1 := p.m1 ++ req ++ ([0x12, 0x01, 0x00, 0x01] ++ sha384 s.chain) }
          ([0x12, 0x01, 0x00, 0x01] ++ sha384 s.chain)) ∧
      (p.st = .n → req = 0x12 :: 0x82 :: 0 :: rest → rest.length = 5 → ∀ off n : Nat, off = bytesNat ((req.drop 4).take 2) →
        off < s.chain.length → n = Nat.min (Nat.min (bytesNat ((req.drop 6).take 2)) 1024) (s.chain.length - off) →
        ∀ reply : List Byte, reply = [0x12, 0x02, 0, 0] ++ natBytes 2 n ++ natBytes 2 (s.chain.length - off - n)
          ++ (s.chain.drop off).take n →
        SpdmAnswers s (.getCertificate conn) conn { p with m1 := p.m1 ++ req ++ reply } reply) ∧
      (p.st = .n → ∀ (kind : Byte) (summary : List Byte), req = 0x12 :: 0x83 :: 0 :: kind :: rest → rest.length = 32 →
        ((kind = 0 ∧ summary = []) ∨ (kind = 1 ∧ summary = sha384 (s.measBlocks 1 4)) ∨
          (kind = 255 ∧ summary = sha384 (s.measBlocks 1 8))) →
        SpdmAnswers s (.challenge conn) conn
          { p with m1 := (p.m1 ++ req ++ challengeBody s conn rest summary).take p.vca, cnt := p.cnt + 1 }
          (challengeBody s conn rest summary ++
            signLog "responder-challenge_auth signing" (p.m1 ++ req ++ challengeBody s conn rest summary))) ∧
      (p.st = .n → ∀ (attr op : Byte), 1 ≤ op.toNat → op.toNat ≤ 8 → req = 0x12 :: 0xE0 :: attr :: op :: rest →
        (attr.getLsbD 0 = false → rest = [] →
          SpdmAnswers s (.getMeasurements conn) conn
            { p with l1 := p.l1 ++ req ++ measurementBody s conn op (List.replicate 32 0) }
            (measurementBody s conn op (List.replicate 32 0))) ∧
        (attr.getLsbD 0 = true → rest.length = 33 → rest.getD 32 0 = 0 →
          SpdmAnswers s (.getMeasurements conn) conn
            { p with l1 := (p.l1 ++ req ++ measurementBody s conn op (rest.take 32)).take p.vca, cnt := p.cnt + 1 }
            (measurementBody s conn op (rest.take 32) ++
              signLog "responder-measurements signing" (p.l1 ++ req ++ measurementBody s conn op (rest.take 32)))))) ∧
    (∀ req, SpdmPosted s conn req →
      (req.length < 4 → SpdmAnswers s (.spdmErrorReply conn) conn (s.spdm conn) [0x12, 0x7F, 0x01, 0]) ∧
      (∀ (v code : Byte) rest, req = v :: code :: rest → 2 ≤ rest.length →
        (v ≠ 0x10 → v ≠ 0x12 → SpdmAnswers s (.spdmErrorReply conn) conn (s.spdm conn) [0x10, 0x7F, 0x41, 0]) ∧
        (v = 0x10 → code ≠ 0x84 → SpdmAnswers s (.spdmErrorReply conn) conn (s.spdm conn) [0x12, 0x7F, 0x41, 0]) ∧
        (v = 0x12 → code ∉ [(0x84 : Byte), 0xE1, 0xE3, 0x81, 0x82, 0x83, 0xE0] →
          SpdmAnswers s (.spdmErrorReply conn) conn (s.spdm conn) [0x12, 0x7F, 0x07, code]) ∧
        (v = 0x12 → code = 0x83 → (s.spdm conn).st ≠ .n →
          SpdmAnswers s (.spdmErrorReply conn) conn (s.spdm conn) [0x12, 0x7F, 0x04, 0])))

/-- A DBELL whose name a valid entry maps, with fewer than eight doorbells of the thread held, puts its doorbell in the proxy and
goes on; one whose name no entry maps traps with DBELL_UNMAPPED; an encoding that is not assigned traps with UND, EPC its
address and TVAL its first 32 bits (R62, R65, R350, R351). -/
def Obligations.DoorbellAndUnassignedComplete : Prop :=
  ∀ (s : State) (c t : Nat), UserTurn s c t → t < 960 →
    (∀ (f : DF) (eight : Bool),
      let h : Hart := .user c t
      let cw : OpW := if eight then .pair else .w32
      let addr := s.addrOf h f.fields
      let size := if eight then 8 else 4
      Named s h (addrUses f.fields ++ [(f.fields.c, cw)]) → addr.toNat % size = 0 → addr.toNat < 2 ^ 60 →
      Clean (s.addrPoison h f.fields ++ [(s.opPoison h f.fields.c cw, 2)]) →
      (∀ i e, s.findBell (s.core c).ctxid addr eight = some (i, e) → (s.io.proxy.filter (fun b => b.h == h)).length < 8 →
        exec (.dbell f eight) s = .next (done h (.dbell f eight) s (s.modIo (fun io => { io with proxy := io.proxy ++
          [⟨h, i, Bell.kind e, Bell.target e, size, if eight then s.opPair h f.fields.c else (s.op32 h f.fields.c).setWidth 64,
            (s.thread h).stores, (s.thread h).mv.sysSeq⟩] })))) ∧
      (s.findBell (s.core c).ctxid addr eight = none →
        ∃ u, exec (.dbell f eight) s = .next u ∧ TrapEntered s u c t .dbellUnmapped addr (s.pc h))) ∧
    (∀ w, ∃ u, exec (.unassignedOpcode w) s = .next u ∧ TrapEntered s u c t .und (w.setWidth 64) (s.pc (.user c t)))

/-- An instruction of one word or pair result changes its destination registers, the window, the flags it raises and the pc, and
nothing else: no other register, special register, hart, byte of memory or unit (R130, R135). -/
def Obligations.RegisterInstructionsFrame : Prop :=
  ∀ (s : State) (h : Hart) (i : Instr), Turn s h →
    (∀ r, intWord s h i = some r ∨ floatWord s h i = some r → Named s h (r.uses ++ r.f.dst .w32) → r.f.d < 256 →
      ∃ u, exec i s = .next u ∧ OnlyWrites s u h i (Fields.writes r.f .w32) (r.flags.getD 0) ∧ WordPut u h r.f r.val r.poison) ∧
    (∀ r, intPair s h i = some r → Named s h (r.uses ++ r.f.dst .pair) → r.f.d < 256 →
      ∃ u, exec i s = .next u ∧ OnlyWrites s u h i (Fields.writes r.f .pair) 0 ∧ PairPut u h r.f r.val (s.opsPoison h r.uses))

/-- A store to any place but control space, where one takes effect at once (StoreCompletes), leaves memory as it is until it drains. A store
that drains home, where no load waits over it (log 107), writes its bytes and no other: the granules it does
not touch keep bytes and mark; in one that it touches, under the key material the granule was written with and on a working
sub-channel, each byte becomes what the store's masks make of it (R194, R225, R229), but for the read-only and reserved fields of a slot
area, which stay (R4). -/
def Obligations.StoreFrames : Prop :=
  (∀ (s s1 : State) (h : Hart) (f : DF) (m : MemMod) (p : Place) (key : Nat), Turn s h →
    let n := sizeBytes m.size
    let d : Opd := .reg f.fields.d
    Named s h (addrUses f.fields ++ [(d, dataW n)]) → AddrOk s h f.fields n true →
    (s.opPoison h d (dataW n) = true → m.psn = true) →
    s.place h .store (s.addrOf h f.fields).toNat = (.at p key, s1) → (∀ off, p ≠ .ctl off) → s1.queueFull h = false →
    ∃ u, exec (.st f m) s = .next u ∧ (∀ a, peek u.mem a = peek s.mem a) ∧ u.memPoison = s.memPoison ∧
      (u.thread h).regs = (s.thread h).regs ∧ (u.thread h).latches = (s.thread h).latches ∧
      (u.thread h).flags = (s.thread h).flags ∧ (u.thread h).storeQ.length = (s.thread h).storeQ.length + 1) ∧
  (∀ (s : State) (h : Hart) (i : Nat) (e : StoreEnt), (s.order h)[i]? = some e → e.space = .global → mayGoHome (s.order h) i = true →
    s.retrains e = false → s.meetsHold { who := h.observer, bytes := addrsOf [e] } = false →
    ∃ u, exec (.storeDrain h (.home i)) s = .next u ∧
      (∀ g, touchesGranule e.bytes g = false → peeks u.mem (16 * g) 16 = peeks s.mem (16 * g) 16 ∧
        mget false u.memPoison g = mget false s.memPoison g) ∧
      (∀ a, touchesGranule e.bytes (a / 16) = true → isPeer a = false → s.subFailed a = false →
        mget 0 s.memKey (a / 16) = s.keyTag e.key → s.slotGranule? (a / 16) = none →
        peek u.mem a = applyBytes e.bytes a (peek s.mem a)) ∧
      (∀ a k, isPeer a = false → s.subFailed a = false → mget 0 s.memKey (a / 16) = s.keyTag e.key → s.slotGranule? (a / 16) = some k →
        slotMask (16 * (k % 8) + a % 16) = 0 → peek u.mem a = peek s.mem a) ∧
      ∀ h', (u.thread h').regs = (s.thread h').regs)

/-- AND, OR, XOR and ANDN give `A AND B`, `A OR B`, `A XOR B` and `A AND NOT B`, in every form (R145). -/
def Obligations.LogicResults : Prop :=
  ∀ (s : State) (h : Hart), Turn s h →
    (∀ f : DF, Named s h ([(f.fields.a, .w32), (f.fields.b, .w32)] ++ f.fields.dst .w32) →
      let A := s.op32 h f.fields.a
      let B := s.op32 h f.fields.b
      let p := s.opsPoison h [(f.fields.a, .w32), (f.fields.b, .w32)]
      (∃ u, exec (.and f) s = .next u ∧ WordPut u h f.fields (A &&& B) p) ∧
      (∃ u, exec (.or f) s = .next u ∧ WordPut u h f.fields (A ||| B) p) ∧
      (∃ u, exec (.xor f) s = .next u ∧ WordPut u h f.fields (A ^^^ B) p) ∧
      (∃ u, exec (.andn f) s = .next u ∧ WordPut u h f.fields (A &&& ~~~B) p)) ∧
    (∀ f : CF, Named s h ([(f.fields.a, .w32), (f.fields.b, .w32)] ++ f.fields.dst .w32) →
      let A := s.op32 h f.fields.a
      let B := s.op32 h f.fields.b
      let p := s.opsPoison h [(f.fields.a, .w32), (f.fields.b, .w32)]
      (∃ u, exec (.andC f) s = .next u ∧ WordPut u h f.fields (A &&& B) p) ∧
      (∃ u, exec (.orC f) s = .next u ∧ WordPut u h f.fields (A ||| B) p) ∧
      (∃ u, exec (.xorC f) s = .next u ∧ WordPut u h f.fields (A ^^^ B) p)) ∧
    (∀ f : WF, Named s h ([(f.fields.a, .w32), (f.fields.b, .w32)] ++ f.fields.dst .w32) →
      let A := s.op32 h f.fields.a
      let B := s.op32 h f.fields.b
      let p := s.opsPoison h [(f.fields.a, .w32), (f.fields.b, .w32)]
      (∃ u, exec (.andW f) s = .next u ∧ WordPut u h f.fields (A &&& B) p) ∧
      (∃ u, exec (.orW f) s = .next u ∧ WordPut u h f.fields (A ||| B) p) ∧
      (∃ u, exec (.xorW f) s = .next u ∧ WordPut u h f.fields (A ^^^ B) p) ∧
      (∃ u, exec (.andnW f) s = .next u ∧ WordPut u h f.fields (A &&& ~~~B) p))

/-- ADDC and SUBB: with k = C AND 1, the sum of ADDC has its carry in the odd register, the difference of SUBB its borrow; a
32-bit read of the pushed latch gives the sum or difference, not the carry (R139). -/
def Obligations.CarryChain : Prop :=
  ∀ (s : State) (h : Hart) (f : DF), Turn s h →
    Named s h ([(f.fields.a, .w32), (f.fields.b, .w32), (f.fields.c, .w32)] ++ f.fields.dst .pair) →
    let A := (s.op32 h f.fields.a).toNat
    let B := (s.op32 h f.fields.b).toNat
    let k := (s.op32 h f.fields.c).toNat % 2
    (∃ u v, exec (.addc f) s = .next u ∧ PairPut u h f.fields v (s.opsPoison h [(f.fields.a, .w32), (f.fields.b, .w32), (f.fields.c, .w32)]) ∧
      v.lo.toNat = (A + B + k) % 2 ^ 32 ∧ v.hi.toNat = (A + B + k) / 2 ^ 32 ∧ u.op32 h (.latch 0) = v.lo) ∧
    (∃ u v, exec (.subb f) s = .next u ∧ PairPut u h f.fields v (s.opsPoison h [(f.fields.a, .w32), (f.fields.b, .w32), (f.fields.c, .w32)]) ∧
      (v.lo.toNat : Int) = ((A : Int) - B - k) % 2 ^ 32 ∧ v.hi.toNat = (if (A : Int) - B - k < 0 then 1 else 0) ∧
      u.op32 h (.latch 0) = v.lo)

/-- ABS and NEG read b as signed: every input but 0x80000000 is exact; that one gives 0x80000000 without SAT, and 0x7FFFFFFF and the
flag SAT with it (R143). -/
def Obligations.AbsNegResults : Prop :=
  ∀ (s : State) (h : Hart), Turn s h →
    (∀ (f : DF) (m : IntMod), Named s h ([(f.fields.b, .w32)] ++ f.fields.dst .w32) →
      let B := s.op32 h f.fields.b
      let p := s.opsPoison h [(f.fields.b, .w32)]
      ∃ u u' v v', exec (.abs f m) s = .next u ∧ exec (.neg f m) s = .next u' ∧ WordPut u h f.fields v p ∧ WordPut u' h f.fields v' p ∧
        (B ≠ 0x80000000 → (v.toInt = |B.toInt| ∧ v'.toInt = -B.toInt) ∧
          (u.thread h).flags = (s.thread h).flags ∧ (u'.thread h).flags = (s.thread h).flags) ∧
        (B = 0x80000000 → m.sat = false → v = 0x80000000 ∧ v' = 0x80000000 ∧
          (u.thread h).flags = (s.thread h).flags ∧ (u'.thread h).flags = (s.thread h).flags) ∧
        (B = 0x80000000 → m.sat = true → v = 0x7FFFFFFF ∧ v' = 0x7FFFFFFF ∧
          (u.thread h).flags = (s.thread h).flags ||| 0x40 ∧ (u'.thread h).flags = (s.thread h).flags ||| 0x40)) ∧
    (∀ (f : WB), Named s h ([(f.fields.b, .w32)] ++ f.fields.dst .w32) →
      let B := s.op32 h f.fields.b
      let p := s.opsPoison h [(f.fields.b, .w32)]
      ∃ u u' v v', exec (.absW f) s = .next u ∧ exec (.negW f) s = .next u' ∧ WordPut u h f.fields v p ∧ WordPut u' h f.fields v' p ∧
        (B ≠ 0x80000000 → v.toInt = |B.toInt| ∧ v'.toInt = -B.toInt) ∧ (B = 0x80000000 → v = 0x80000000 ∧ v' = 0x80000000) ∧
        (u.thread h).flags = (s.thread h).flags ∧ (u'.thread h).flags = (s.thread h).flags)

/-- Packed shifts, sums and bounds act element by element: element i of a result depends on element i of each operand alone;
a shift by the width or more gives zero, or the sign with SAR, and with SAT the bound of the sign; a saturating sum lies within the
bounds of its reading (R138, R146). -/
def Obligations.ElementsApart : Prop :=
  ∀ (m : IntMod) (a b : Word) (i : Nat), i < 32 / ewWidth m.ew →
    let w := ewWidth m.ew
    let x := elem w a i
    let n := elem w b i
    (∀ op ∈ [addEl m, subEl m, minEl m, maxEl m, shlEl m, shrEl m, sarEl m],
      elem w (packed m (fun _ => op) a b).1 i = ((op x n).1 % 2 ^ w).toNat) ∧
    (w ≤ n → (shrEl m x n).1 = 0 ∧ (sarEl m x n).1 = (if x < 2 ^ (w - 1) then 0 else -1) ∧
      (m.sat = false → (shlEl m x n).1 = 0) ∧
      (m.sat = true → (shlEl m x n).1 = (if x = 0 then 0 else if m.u = true then 2 ^ w - 1
        else if x < 2 ^ (w - 1) then 2 ^ (w - 1) - 1 else -2 ^ (w - 1)))) ∧
    (m.sat = true → ∀ op ∈ [addEl m, subEl m], (if m.u = true then 0 else -2 ^ (w - 1)) ≤ (op x n).1 ∧
      (op x n).1 ≤ (if m.u = true then 2 ^ w - 1 else 2 ^ (w - 1) - 1))

/-- A user thread's trap: whatever instruction raises it, CODE, EPC, TVAL and ACTIVE are written, the window emptied, its wait for issue
begun anew, the thread Trapped and in TRQ, after all that trapped in an earlier clk and in ascending order among those of its own (R42; what
a clk is: log 129), and a parked group woken, with nothing else of the state changed; EPC is the address of the instruction,
or of the next for SVC and TRAP; and a WAKE of it clears ACTIVE and restarts it at EPC (R45, R46). -/
def Obligations.UserTrapEntry : Prop :=
  (∀ (s : State) (c t lvl : Nat) (p : Presence) (i : Instr) (lane : Hart → State → Res) (cause : Cause) (v : Pair),
    UserTurn s c t → t < 960 → gate lvl p (.user c t) = none → lane (.user c t) s = .trap cause v →
    ∃ u, issue lvl p i lane s = .next u ∧ TrapEntered s u c t cause v
      (if cause = .svcCall ∨ cause = .trapInsn then nextPc s (.user c t) i else s.pc (.user c t))) ∧
  (∀ (s : State) (c t : Nat) (w : Workgroup), (s.thread (.user c t)).run = .trapped → (s.thread (.user c t)).stopped = false →
    w.killed = false → (s.wakeThread c t w).thread (.user c t) = { s.thread (.user c t) with
      run := .ready, causeActive := false, pc := (s.thread (.user c t)).epc, age := 0, rearm := [], rearmed := false })

/-- Privilege and presence: on a user thread an instruction of level S or M traps with PRIV, one of the management core alone
with UND; a supervisor group takes PRIV and UND as its own trap and stops its core; the management core takes UND of every instruction of
compute cores; TVAL is the first 32 bits of the instruction; an access to a special register traps likewise, on each of the three, with PRIV
below its level and UND where it is absent (R39, R43, R47, R63). -/
def Obligations.PrivilegeTraps : Prop :=
  (∀ (s : State) (c t : Nat) (i : Instr), UserTurn s c t → t < 960 →
    (levelS i = true ∨ levelM i = true →
      ∃ u, exec i s = .next u ∧ TrapEntered s u c t .priv (i.first32.setWidth 64) (s.pc (.user c t))) ∧
    (managementOnly i = true →
      ∃ u, exec i s = .next u ∧ TrapEntered s u c t .und (i.first32.setWidth 64) (s.pc (.user c t)))) ∧
  (∀ (s : State) (c t : Nat) (f : DF) (sr : BitVec 12) (cause : Cause), UserTurn s c t → t < 960 →
    srGate (.user c t) sr.toNat = some cause →
    (∃ u, exec (.rdsr f sr) s = .next u ∧ TrapEntered s u c t cause ((Instr.rdsr f sr).first32.setWidth 64) (s.pc (.user c t))) ∧
    (∃ u, exec (.wrsr f sr) s = .next u ∧ TrapEntered s u c t cause ((Instr.wrsr f sr).first32.setWidth 64) (s.pc (.user c t)))) ∧
  (∀ (s : State) (c : Nat) (i : Instr), s.cur = .sup c → (s.core c).status = .running →
    (levelM i = true → ∃ u, exec i s = .next u ∧ GroupTrapped u c .priv (i.first32.setWidth 64) (s.core c).supPc) ∧
    (managementOnly i = true → ∃ u, exec i s = .next u ∧ GroupTrapped u c .und (i.first32.setWidth 64) (s.core c).supPc)) ∧
  (∀ (s : State) (c : Nat) (f : DF) (sr : BitVec 12) (cause : Cause), GroupTurn s c → (s.core c).status = .running →
    srGate (.sup c 0) sr.toNat = some cause →
    (∃ u, exec (.rdsr f sr) s = .next u ∧ GroupTrapped u c cause ((Instr.rdsr f sr).first32.setWidth 64) (s.core c).supPc) ∧
    (∃ u, exec (.wrsr f sr) s = .next u ∧ GroupTrapped u c cause ((Instr.wrsr f sr).first32.setWidth 64) (s.core c).supPc)) ∧
  (∀ (s : State), MgmtTurn s →
    (∀ i, computeOnly i = true → exec i s = .next (s.takeTrap .mgmt .und (i.first32.setWidth 64) s.mgmt.thread.pc)) ∧
    (∀ (f : DF) (sr : BitVec 12) (cause : Cause), srGate .mgmt sr.toNat = some cause →
      exec (.rdsr f sr) s = .next (s.takeTrap .mgmt cause ((Instr.rdsr f sr).first32.setWidth 64) s.mgmt.thread.pc) ∧
      exec (.wrsr f sr) s = .next (s.takeTrap .mgmt cause ((Instr.wrsr f sr).first32.setWidth 64) s.mgmt.thread.pc)))

/-- The traps of the loads, stores, atomics and WAITV, lowest code first: a misaligned address, one outside the 60-bit space, the
condition of its translation, a range registered by an engine, a poisoned field; a poisoned address is not translated (R223). Those of a
scratchpad access: a free handle, a header whose check fails, a tile of another level, a misaligned position, one out of bounds, a
registered range, a poisoned field (R223, R230). Those of a transfer: an odd target, one outside the 60-bit space, a poisoned source; of a
branch that is not taken the last alone, which is the model's reading (log 60). Each has the address, the position, the handle, the target
or the number of the field in TVAL and nothing done. A register outside the thread's count traps with REG_RANGE and an odd pair with
REG_PAIR, whatever the instruction of these or of one result names (R31, R33, R45, R295, R390). -/
def Obligations.AccessTraps : Prop :=
  ∀ (s : State) (c t : Nat), UserTurn s c t → t < 960 →
    let h : Hart := .user c t
    let traps (i : Instr) (s1 : State) (cause : Cause) (v : Pair) : Prop :=
      ∃ u, exec i s = .next u ∧ TrapEntered s1 u c t cause v (s.pc h)
    (∀ (i : Instr) (x : AccForm), accForm s h i = some x → Named s h x.uses →
      let a := s.addrOf h x.f
      let locked := s.lockHit h a x.n x.writes
      (a.toNat % x.n ≠ 0 → traps i s .addrAlign a) ∧
      (a.toNat % x.n = 0 → 2 ^ 60 ≤ a.toNat → traps i s .addrRange a) ∧
      (a.toNat % x.n = 0 → a.toNat < 2 ^ 60 →
        (∀ v, poisonField (s.addrPoison h x.f) = some v →
          (locked = true → traps i s .rangeLock a) ∧ (locked = false → traps i s .poisonUse v)) ∧
        (Clean (s.addrPoison h x.f) → ∀ s1,
          (∀ cause, s.place h x.need a.toNat = (.fault cause, s1) → locked = false → poisonField x.data = none →
            traps i s1 cause a) ∧
          (∀ cause, s.place h x.need a.toNat = (.fault cause, s1) → locked = true →
            traps i s1 (if cause.code.toNat ≤ 0x26 then cause else .rangeLock) a) ∧
          (∀ r, s.place h x.need a.toNat = (r, s1) → (∀ cause, r ≠ .fault cause) →
            (locked = true → traps i s1 .rangeLock a) ∧
            (∀ v, locked = false → poisonField x.data = some v → traps i s1 .poisonUse v))))) ∧
    (∀ (f : DF) (m : MemMod) (writes : Bool), Named s h (spUses f.fields m writes) →
      let i := spInstr f m writes
      let n := sizeBytes m.size
      let hv := s.op32 h f.fields.a
      let row := (s.op32 h f.fields.b).toNat
      let col := (s.op32 h f.fields.c).toNat
      let tv := spTval hv.toNat row col
      let clean : Prop := Clean (spMarks s h f.fields m writes)
      ((s.core c).tile? hv.toNat = none → traps i s .handleFree (hv.setWidth 64)) ∧
      (∀ x, (s.core c).tile? hv.toNat = some x →
        let g := geoOf x.hdr
        let inside : Prop := row < g.rows ∧ col < g.stored ∧ rowOff g.w col + n ≤ g.rb
        let granule (q : Nat) : Prop := q ∈ spGranules g x (spAccess s h f.fields m) ∧ q / 1024 < x.base + x.span
        let held (q : Nat) : Bool := ((s.core c).bankLock (q / 1024) (q / 1024 + 1)).2 ||
          (writes && ((s.core c).bankLock (q / 1024) (q / 1024 + 1)).1)
        (x.ok = false → x.lv = .sp → clean → traps i s .hdrCheck (hv.setWidth 64)) ∧
        (SpHeaderOk x writes → x.lv ≠ .sp → clean → traps i s .tileLevel (hv.setWidth 64)) ∧
        (SpHeaderOk x writes → x.lv = .sp → clean → m.col = false →
          (¬SpAligned g col n → inside → traps i s .addrAlign tv) ∧
          (SpAligned g col n → g.rows ≤ row ∨ g.stored ≤ col → traps i s .spBounds tv) ∧
          (SpAligned g col n → inside → (writes = true ∨ m.wf = false) → (∃ q, granule q ∧ held q = true) → traps i s .rangeLock tv)) ∧
        (SpHeaderOk x writes → x.lv = .sp → m.col = false → SpAligned g col n → inside → (∀ q, granule q → held q = false) →
          ∀ v, poisonField (spMarks s h f.fields m writes) = some v → traps i s .poisonUse v))) ∧
    (∀ (i : Instr) (f : Fields) (x : Transfer), transferOf s h i = some (f, x) → Named s h (x.uses ++ x.dst f) →
      (x.target.toNat % 2 = 1 → traps i s .pcAlign x.target) ∧
      (x.target.toNat % 2 = 0 → 2 ^ 60 ≤ x.target.toNat → traps i s .addrRange x.target) ∧
      (TargetOk x.target → ∀ v, poisonField (transferMarks s h i) = some v → traps i s .poisonUse v)) ∧
    (∀ (f : DF) (nz : Bool) (v : Pair), (s.op32 h f.fields.a = 0 ↔ nz = true) →
      Named s h [(f.fields.a, .w32), (f.fields.b, .w32)] → poisonField (transferMarks s h (.br f nz)) = some v →
      traps (.br f nz) s .poisonUse v) ∧
    (∀ (i : Instr) (us : List OpUse) (cause : Cause) (v : Pair),
      ((∃ r, (intWord s h i = some r ∨ floatWord s h i = some r) ∧ us = r.uses ++ r.f.dst .w32) ∨
        (∃ r, intPair s h i = some r ∧ us = r.uses ++ r.f.dst .pair) ∨ (∃ x, accForm s h i = some x ∧ us = x.uses) ∨
        (∃ f x, transferOf s h i = some (f, x) ∧ us = x.uses ++ x.dst f)) →
      opCheck s h us = some (cause, v) → traps i s cause v) ∧
    (∀ (f : DF) (m : IntMod) (r : BitVec 8), f.b = .reg r → f.a = .reg 0 → f.n = true →
      (0 < s.regCount h → s.regCount h ≤ r.toNat → traps (.add f m) s .regRange (r.setWidth 64)) ∧
      (r.toNat % 2 = 1 → r.toNat + 2 ≤ s.regCount h → traps (.add64 f) s .regPair (r.setWidth 64)))

/-- A step of an agent whose fetch gives an instruction is `exec` of it, and a step of an event is `exec` of that; and the fetch at a
pc whose parcels lie at places, are read unpoisoned and decode to `i` gives `i` (R51, R52). -/
def Obligations.StepRunsDecoded : Prop :=
  (∀ (s s1 s2 : State) (a : Agent) (i : Instr), s.choose = .agent a s1 →
    (s1.startAgent a).fetch (agentHart a) = (.instr i, s2) → step s = exec i s2) ∧
  (∀ (s s1 s2 : State) (a : Agent) (w : Word), s.choose = .agent a s1 →
    (s1.startAgent a).fetch (agentHart a) = (.undecodable w, s2) → step s = exec (.unassignedOpcode w) s2) ∧
  (∀ (s s1 : State) (e : Instr), s.choose = .event e s1 → step s = exec e s1) ∧
  (∀ (s s1 s2 s3 s4 : State) (h : Hart) (p : Place) (key : Nat) (first more : List Byte) (ps : List (Place × Nat)) (i : Instr)
      (rest : List Byte),
    s.fetchPlace h (s.pc h).toNat = (.at p key, s1) → s1.readParcel h p key = (first, false, s2) →
    s2.fetchPlaces h ((s.pc h).toNat + 2) (parcelCount (BitVec.ofNat 16 (bytesNat first)) - 1) = (ps, none, none, s3) →
    s3.readParcels h ps = (more, false, s4) → decode (first ++ more) = .ok (i, rest) → s.fetch h = (.instr i, s4))

/-- The words that the spec's own worked encodings give decode to the instructions they stand for (Tables 3-15, 6-3, 7-9, 10-10, 13-6,
18-5, 20-5 and 21-4). -/
def Obligations.DecodeWords : Prop :=
  decodeTableWord 16 0xB862 = some (.addC ⟨3, .imm 6⟩) ∧
  decodeTableWord 32 0x810F9021 = some (.minUW ⟨100, 7, .latch 1⟩) ∧
  decodeTableWord 64 0x40008EC00190021B = some (.ffma ⟨0, true, .reg 12, .latch 0, .imm (-3), none⟩ { rm := .rtz }) ∧
  decodeTableWord 96 0x000010004000007FC0814607 = some (.ld ⟨20, false, .reg 4, .lit, .reg 0, some 0x1000⟩ { size := .s4 }) ∧
  decodeTableWord 64 0x0B0000030160A013 =
    some (.add ⟨10, false, .reg 11, .reg 12, .reg 0, none⟩ { ew := .q4, sat := true, u := true }) ∧
  decodeTableWord 64 0x00000381408060DB = some (.fsh ⟨6, false, .reg 4, .reg 5, .reg 7, none⟩) ∧
  decodeTableWord 96 0x000008050100007FC06090E7 =
    some (.bfx ⟨9, false, .reg 3, .lit, .reg 0, some 0x00000805⟩ { u := true }) ∧
  decodeTableWord 32 0xAF52A069 = some (.cmpLtUW ⟨40, 41, .imm 7⟩) ∧
  decodeTableWord 64 0x080003014080821B = some (.ffma ⟨8, false, .reg 4, .reg 5, .reg 6, none⟩ { pk := .bf16x2 }) ∧
  decodeTableWord 64 0x0E100001C000325B =
    some (.cvt ⟨3, false, .reg 0, .reg 7, .reg 0, none⟩ { df := .e2m1, sf := .f32, sat := true }) ∧
  decodeTableWord 32 0xAA3E7929 = some (.fcmpLeW ⟨30, 31, .imm 2⟩) ∧
  decodeTableWord 64 0x70008F800121451B =
    some (.lred ⟨20, false, .reg 9, .reg 0, .imm (-1), none⟩ { opc := .fadd, u := false }) ∧
  decodeTableWord 32 0x28003145 = some (.frsqW ⟨12, .reg 40⟩) ∧
  decodeTableWord 64 0x6000004A0080660B = some (.st ⟨6, false, .reg 4, .imm 8, .reg 0, none⟩ { size := .s8 }) ∧
  decodeTableWord 64 0x40700582A4609613 =
    some (.ldt ⟨9, false, .imm 3, .reg 10, .reg 11, none⟩ { size := .s4, wf := true, clr := true, col := true }) ∧
  decodeTableWord 64 0x000007030141463B = some (.cpy ⟨20, false, .reg 10, .reg 12, .reg 14, none⟩ false) ∧
  decodeTableWord 64 0x069007480080CA03 =
    some (.atom ⟨12, false, .reg 4, .imm 0, .reg 14, none⟩ { opc := .add, ord := .acqrel, scope := .dev, sz := .z8 }) ∧
  decodeTableWord 64 0x702804C800800A0B =
    some (.red ⟨0, false, .reg 4, .imm 0, .reg 9, none⟩ { opc := .fadd, sz := .z16, sc := true }) ∧
  decodeTableWord 96 0xFFFFFFC00001007FC0A00A47 = some (.br ⟨0, false, .reg 5, .lit, .reg 0, some 0xFFFFFFC0⟩ true) ∧
  decodeTableWord 64 0x000087C880000A3B = some (.bars ⟨0, false, .reg 0, .imm 2, .special .nth, none⟩ 0) ∧
  decodeTableWord 64 0x00000048C0000A83 = some (.safe ⟨0, false, .reg 0, .imm 3, .reg 0, none⟩) ∧
  decodeTableWord 64 0x0000000000014A6B = some (.tdisp ⟨20, false, .reg 0, .reg 0, .reg 0, none⟩) ∧
  decodeTableWord 64 0x0001054940009A73 = some (.svcMb ⟨9, false, .reg 0, .imm 5, .reg 10, none⟩) ∧
  decodeTableWord 64 0x400004C800800663 = some (.dbell ⟨0, false, .reg 4, .imm 0, .reg 9, none⟩ false) ∧
  decodeTableWord 96 0x000000406000037FC0800667 = some (.dbell ⟨0, false, .reg 4, .lit, .reg 6, some 0x40⟩ true) ∧
  decodeTableWord 64 0x000103C800800C83 = some (.hashb ⟨0, false, .reg 4, .imm 0, .reg 7, none⟩ 1) ∧
  decodeTableWord 96 0x000000400001007FC1400C8F = some (.hashf ⟨0, false, .reg 10, .lit, .reg 0, some 0x40⟩ 1) ∧
  decodeTableWord 64 0x0000004801006C93 = some (.ecver ⟨6, false, .reg 8, .imm 0, .reg 0, none⟩) ∧
  decodeTableWord 64 0x0001004800800CA3 = some (.mext ⟨0, false, .reg 4, .imm 0, .reg 0, none⟩ 1) ∧
  decodeTableWord 64 0x028015480502AA23 =
    some (.waitv ⟨42, false, .reg 40, .imm 0, .reg 42, none⟩ { ord := .acq, scope := .dev }) ∧
  decodeTableWord 64 0x0000004805C00C9B = some (.ecsig ⟨0, false, .reg 46, .imm 0, .reg 0, none⟩) ∧
  decodeTableWord 96 0x000001500007007FC5C00CAF = some (.mread ⟨0, false, .reg 46, .lit, .reg 0, some 0x150⟩ 7)

/-- What the module is after reset, of what the spec states: the management core at the ROM's entry with MTVEC 0x40, in the Winter
stage, no other core started; GLIM 16, PLIM 2,800, duties full; no key loaded, no error logged (R332, R368, R394, R421, R425). That device
memory lists nothing, so that every byte of it reads zero, is the model's choice (log 1: the spec gives its contents no reset value); it is
in the form that every step keeps. -/
def Obligations.ResetState : Prop :=
  State.reset.mgmt.thread.pc = 0x100 ∧ State.reset.mgmt.mtvec = 0x40 ∧ State.reset.mgmt.stage = .winter ∧
  State.reset.mgmt.halted = false ∧ State.reset.mgmt.thread.causeActive = false ∧
  (∀ c, (State.reset.core c).started = false ∧ (State.reset.core c).wg = none ∧ (State.reset.core c).status = .running) ∧
  State.reset.mgmt.glim = 16 ∧ State.reset.mgmt.plim = 2800 ∧ State.reset.mgmt.duty0 = 16 ∧ State.reset.mgmt.duty1 = 16 ∧
  (∀ k, k ≠ 0 → (State.reset.keySlot k).kind = .empty) ∧ State.reset.errors.elp = 0 ∧ State.reset.io.slotb = 0 ∧
  State.reset.mem = [] ∧ MemoriesWf State.reset

/-- Decoding what `encode` writes gives the instruction back, for every well-formed instruction of every form, with nothing left
over, and its bytes are as many as its length (R51–R58, R60–R65). -/
def Obligations.RoundTrip : Prop :=
  ∀ (i : Instr) (rest : List Byte), i.wellFormed = true → Encoded i →
    decode (encode i ++ rest) = .ok (i, rest) ∧ (encode i).length = i.len

/-- Every step keeps device memory in its canonical form: addresses rising and no byte listed that an unlisted address reads as,
so that equal memories are equal data. -/
def Obligations.StepKeepsMemoryForm : Prop :=
  ∀ (s s' : State), MemoriesWf s → step s = .next s' → MemoriesWf s'
end

