-- ==== Sys2Proof/Laws/Maps.lean ====
section
/-! SUPPORT. The laws of sparse tables and byte memories: a read after a write, and that every operation keeps the
canonical form. -/

set_option Elab.async false

namespace Sys2Proof.Machine

/-! ## Read after write -/

theorem mget_mdel {α : Type} (d : α) (k j : Nat) : ∀ m : List (Nat × α), mget d (mdel m k) j = if j = k then d else mget d m j
  | [] => by simp [mdel, mget]
  | (a, b) :: m => by
    have ih := mget_mdel d k j m
    by_cases h1 : a = k <;> by_cases h2 : j = k <;> by_cases h3 : a = j <;> simp_all [mdel, mget]

theorem mget_mins {α : Type} (d : α) (k j : Nat) (v : α) :
    ∀ m : List (Nat × α), mget d (mins m k v) j = if j = k then v else mget d m j
  | [] => by simp [mins, mget, eq_comm]
  | (a, b) :: m => by
    have ih := mget_mins d k j v m
    simp only [mins]
    split
    · simp only [mget]
      by_cases h2 : j = k
      · simp [h2]
      · simp [h2, Ne.symm h2]
    · split
      · rename_i h1
        simp only [mget, h1]
        by_cases h2 : j = k
        · simp [h2]
        · simp [h2, Ne.symm h2]
      · rename_i h1
        simp only [mget, ih]
        by_cases h2 : a = j
        · subst h2; simp [h1]
        · simp [h2]

/-- Reading a table after a write: the value at the key written, and everywhere else what was there. -/
@[simp] theorem mget_mset {α : Type} [DecidableEq α] (d : α) (m : List (Nat × α)) (k j : Nat) (v : α) :
    mget d (mset d m k v) j = if j = k then v else mget d m j := by
  simp only [mset]
  split
  · subst_vars; exact mget_mdel _ _ _ _
  · exact mget_mins _ _ _ _ _

/-- Reading a byte after a byte is stored. -/
@[simp] theorem peek_poke (m : List Host.Cell) (a a' : Nat) (b : Byte) :
    peek (poke m a b) a' = if a' = a then b else peek m a' := mget_mset 0 m a a' b

/-- Reading a byte outside the bytes stored. -/
theorem peek_pokes_ne (bs : List Byte) : ∀ (m : List Host.Cell) (a a' : Nat), a' < a ∨ a + bs.length ≤ a' →
    peek (pokes m a bs) a' = peek m a' := by
  induction bs with
  | nil => intros; rfl
  | cons b bs ih =>
    intro m a a' h
    simp only [List.length_cons] at h
    rw [pokes, ih _ _ _ (by omega), peek_poke, if_neg (by omega)]

/-- Reading one of the bytes stored. -/
theorem peek_pokes (bs : List Byte) : ∀ (m : List Host.Cell) (a i : Nat), i < bs.length →
    peek (pokes m a bs) (a + i) = bs.getD i 0 := by
  induction bs with
  | nil => intro m a i h; simp at h
  | cons b bs ih =>
    intro m a i h
    cases i with
    | zero => rw [pokes, peek_pokes_ne _ _ _ _ (by omega)]; simp
    | succ i =>
      rw [pokes, show a + (i + 1) = a + 1 + i by omega, ih _ _ _ (by simpa using h)]
      simp

theorem peeks_length (m : List Host.Cell) : ∀ (n a : Nat), (peeks m a n).length = n
  | 0, _ => rfl
  | n + 1, a => by simp [peeks, peeks_length m n]

theorem peeks_getD (m : List Host.Cell) : ∀ (n a i : Nat), i < n → (peeks m a n).getD i 0 = peek m (a + i)
  | 0, _, _, h => by omega
  | n + 1, a, 0, _ => by simp [peeks]
  | n + 1, a, i + 1, h => by
    have := peeks_getD m n (a + 1) i (by omega)
    simp only [peeks, List.getD_cons_succ, this]
    congr 1; omega

/-- Two memories that agree on a range give the same bytes of it. -/
theorem peeks_congr (m m' : List Host.Cell) : ∀ (n a : Nat), (∀ i, i < n → peek m (a + i) = peek m' (a + i)) →
    peeks m a n = peeks m' a n
  | 0, _, _ => rfl
  | n + 1, a, h => by
    simp only [peeks]
    rw [show peek m a = peek m' a from h 0 (by omega), peeks_congr m m' n (a + 1) (fun i hi => by
      have := h (i + 1) (by omega)
      rwa [show a + 1 + i = a + (i + 1) by omega])]

/-! ## The canonical form -/

theorem mwfFrom_weaken {α : Type} [DecidableEq α] (d : α) (m : List (Nat × α)) (lo lo' : Nat) (h : lo' ≤ lo)
    (hm : mwfFrom d lo m = true) : mwfFrom d lo' m = true := by
  cases m with
  | nil => rfl
  | cons p m => obtain ⟨k, v⟩ := p; simp [mwfFrom] at hm ⊢; exact ⟨⟨by omega, hm.1.2⟩, hm.2⟩

theorem mwfFrom_mdel {α : Type} [DecidableEq α] (d : α) (k : Nat) :
    ∀ (m : List (Nat × α)) (lo : Nat), mwfFrom d lo m = true → mwfFrom d lo (mdel m k) = true
  | [], _, _ => rfl
  | (a, b) :: m, lo, h => by
    simp [mwfFrom] at h
    simp only [mdel]
    split
    · exact mwfFrom_weaken d _ (a + 1) lo (by omega) (mwfFrom_mdel d k m _ h.2)
    · simp [mwfFrom, h.1.1, h.1.2, mwfFrom_mdel d k m _ h.2]

theorem mwfFrom_mins {α : Type} [DecidableEq α] (d : α) (k : Nat) (v : α) (hv : v ≠ d) :
    ∀ (m : List (Nat × α)) (lo : Nat), lo ≤ k → mwfFrom d lo m = true → mwfFrom d lo (mins m k v) = true
  | [], lo, hk, _ => by simp [mins, mwfFrom, hk, hv]
  | (a, b) :: m, lo, hk, h => by
    simp [mwfFrom] at h
    simp only [mins]
    split
    · rename_i h1
      simp [mwfFrom, hk, hv, h.1.2, h.2]; omega
    · split
      · rename_i h1
        subst h1
        simp [mwfFrom, hk, hv, h.2]
      · simp only [mwfFrom, h.1.1, h.1.2, Bool.and_eq_true, ne_eq, not_false_eq_true, true_and, decide_true]
        exact mwfFrom_mins d k v hv m (a + 1) (by omega) h.2

/-- A write to a table keeps its canonical form. -/
theorem mwf_mset {α : Type} [DecidableEq α] (d : α) (m : List (Nat × α)) (k : Nat) (v : α) (h : mwf d m = true) :
    mwf d (mset d m k v) = true := by
  unfold mset mwf at *
  split
  · exact mwfFrom_mdel d k m 0 h
  · rename_i hv; exact mwfFrom_mins d k v hv m 0 (by omega) h

theorem Memory.wf_poke (m : List Host.Cell) (a : Nat) (b : Byte) (h : Memory.wf m = true) : Memory.wf (poke m a b) = true :=
  mwf_mset 0 m a b h

theorem Memory.wf_pokes (bs : List Byte) : ∀ (m : List Host.Cell) (a : Nat), Memory.wf m = true → Memory.wf (pokes m a bs) = true := by
  induction bs with
  | nil => intro m a h; exact h
  | cons b bs ih => intro m a h; exact ih _ _ (Memory.wf_poke m a b h)

theorem Memory.wf_pokeAll (l : List (Nat × Byte)) : ∀ m : List Host.Cell, Memory.wf m = true → Memory.wf (pokeAll m l) = true := by
  induction l with
  | nil => intro m h; exact h
  | cons p l ih => obtain ⟨a, b⟩ := p; intro m h; exact ih _ (Memory.wf_poke m a b h)

theorem Memory.wf_pokeBv {w : Nat} (m : List Host.Cell) (a n : Nat) (v : BitVec w) (h : Memory.wf m = true) :
    Memory.wf (pokeBv m a n v) = true := Memory.wf_pokes _ _ _ h

end Sys2Proof.Machine
end

