-- ==== Sys2Proof/Laws/State.lean ====
section
/-! SUPPORT. What each update of the state leaves and what it writes, one lemma for each field. -/

set_option Elab.async false

namespace Sys2Proof.Machine

/-! ## The state by its parts -/

@[simp] theorem State.setCore_agenda (s : State) (c : Nat) (k : Core) : (s.setCore c k).agenda = s.agenda := rfl
@[simp] theorem State.setCore_issueQ (s : State) (c : Nat) (k : Core) : (s.setCore c k).issueQ = s.issueQ := rfl
@[simp] theorem State.setCore_cur (s : State) (c : Nat) (k : Core) : (s.setCore c k).cur = s.cur := rfl
@[simp] theorem State.setCore_stalled (s : State) (c : Nat) (k : Core) : (s.setCore c k).stalled = s.stalled := rfl
@[simp] theorem State.setCore_free (s : State) (c : Nat) (k : Core) : (s.setCore c k).free = s.free := rfl
@[simp] theorem State.setCore_mgmt (s : State) (c : Nat) (k : Core) : (s.setCore c k).mgmt = s.mgmt := rfl
@[simp] theorem State.setCore_mem (s : State) (c : Nat) (k : Core) : (s.setCore c k).mem = s.mem := rfl
@[simp] theorem State.setCore_memPoison (s : State) (c : Nat) (k : Core) : (s.setCore c k).memPoison = s.memPoison := rfl
@[simp] theorem State.setCore_memKey (s : State) (c : Nat) (k : Core) : (s.setCore c k).memKey = s.memKey := rfl
@[simp] theorem State.setCore_keys (s : State) (c : Nat) (k : Core) : (s.setCore c k).keys = s.keys := rfl
@[simp] theorem State.setCore_sched (s : State) (c : Nat) (k : Core) : (s.setCore c k).sched = s.sched := rfl
@[simp] theorem State.setCore_io (s : State) (c : Nat) (k : Core) : (s.setCore c k).io = s.io := rfl
@[simp] theorem State.setCore_errors (s : State) (c : Nat) (k : Core) : (s.setCore c k).errors = s.errors := rfl
@[simp] theorem State.setCore_spdmDoe (s : State) (c : Nat) (k : Core) : (s.setCore c k).spdmDoe = s.spdmDoe := rfl
@[simp] theorem State.setCore_spdmI3c (s : State) (c : Nat) (k : Core) : (s.setCore c k).spdmI3c = s.spdmI3c := rfl
@[simp] theorem State.setCore_out (s : State) (c : Nat) (k : Core) : (s.setCore c k).out = s.out := rfl
@[simp] theorem State.setCore_scanI3c (s : State) (c : Nat) (k : Core) : (s.setCore c k).scanI3c = s.scanI3c := rfl
@[simp] theorem State.setCore_bursts (s : State) (c : Nat) (k : Core) : (s.setCore c k).bursts = s.bursts := rfl
@[simp] theorem State.modCore_agenda (s : State) (c : Nat) (f : Core → Core) : (s.modCore c f).agenda = s.agenda := rfl
@[simp] theorem State.modCore_issueQ (s : State) (c : Nat) (f : Core → Core) : (s.modCore c f).issueQ = s.issueQ := rfl
@[simp] theorem State.modCore_cur (s : State) (c : Nat) (f : Core → Core) : (s.modCore c f).cur = s.cur := rfl
@[simp] theorem State.modCore_stalled (s : State) (c : Nat) (f : Core → Core) : (s.modCore c f).stalled = s.stalled := rfl
@[simp] theorem State.modCore_free (s : State) (c : Nat) (f : Core → Core) : (s.modCore c f).free = s.free := rfl
@[simp] theorem State.modCore_mgmt (s : State) (c : Nat) (f : Core → Core) : (s.modCore c f).mgmt = s.mgmt := rfl
@[simp] theorem State.modCore_mem (s : State) (c : Nat) (f : Core → Core) : (s.modCore c f).mem = s.mem := rfl
@[simp] theorem State.modCore_memPoison (s : State) (c : Nat) (f : Core → Core) : (s.modCore c f).memPoison = s.memPoison := rfl
@[simp] theorem State.modCore_memKey (s : State) (c : Nat) (f : Core → Core) : (s.modCore c f).memKey = s.memKey := rfl
@[simp] theorem State.modCore_keys (s : State) (c : Nat) (f : Core → Core) : (s.modCore c f).keys = s.keys := rfl
@[simp] theorem State.modCore_sched (s : State) (c : Nat) (f : Core → Core) : (s.modCore c f).sched = s.sched := rfl
@[simp] theorem State.modCore_io (s : State) (c : Nat) (f : Core → Core) : (s.modCore c f).io = s.io := rfl
@[simp] theorem State.modCore_errors (s : State) (c : Nat) (f : Core → Core) : (s.modCore c f).errors = s.errors := rfl
@[simp] theorem State.modCore_spdmDoe (s : State) (c : Nat) (f : Core → Core) : (s.modCore c f).spdmDoe = s.spdmDoe := rfl
@[simp] theorem State.modCore_spdmI3c (s : State) (c : Nat) (f : Core → Core) : (s.modCore c f).spdmI3c = s.spdmI3c := rfl
@[simp] theorem State.modCore_out (s : State) (c : Nat) (f : Core → Core) : (s.modCore c f).out = s.out := rfl
@[simp] theorem State.modCore_scanI3c (s : State) (c : Nat) (f : Core → Core) : (s.modCore c f).scanI3c = s.scanI3c := rfl
@[simp] theorem State.modCore_bursts (s : State) (c : Nat) (f : Core → Core) : (s.modCore c f).bursts = s.bursts := rfl
@[simp] theorem State.modMgmt_agenda (s : State) (f : Mgmt → Mgmt) : (s.modMgmt f).agenda = s.agenda := rfl
@[simp] theorem State.modMgmt_issueQ (s : State) (f : Mgmt → Mgmt) : (s.modMgmt f).issueQ = s.issueQ := rfl
@[simp] theorem State.modMgmt_cur (s : State) (f : Mgmt → Mgmt) : (s.modMgmt f).cur = s.cur := rfl
@[simp] theorem State.modMgmt_stalled (s : State) (f : Mgmt → Mgmt) : (s.modMgmt f).stalled = s.stalled := rfl
@[simp] theorem State.modMgmt_free (s : State) (f : Mgmt → Mgmt) : (s.modMgmt f).free = s.free := rfl
@[simp] theorem State.modMgmt_cores (s : State) (f : Mgmt → Mgmt) : (s.modMgmt f).cores = s.cores := rfl
@[simp] theorem State.modMgmt_mem (s : State) (f : Mgmt → Mgmt) : (s.modMgmt f).mem = s.mem := rfl
@[simp] theorem State.modMgmt_memPoison (s : State) (f : Mgmt → Mgmt) : (s.modMgmt f).memPoison = s.memPoison := rfl
@[simp] theorem State.modMgmt_memKey (s : State) (f : Mgmt → Mgmt) : (s.modMgmt f).memKey = s.memKey := rfl
@[simp] theorem State.modMgmt_keys (s : State) (f : Mgmt → Mgmt) : (s.modMgmt f).keys = s.keys := rfl
@[simp] theorem State.modMgmt_sched (s : State) (f : Mgmt → Mgmt) : (s.modMgmt f).sched = s.sched := rfl
@[simp] theorem State.modMgmt_io (s : State) (f : Mgmt → Mgmt) : (s.modMgmt f).io = s.io := rfl
@[simp] theorem State.modMgmt_errors (s : State) (f : Mgmt → Mgmt) : (s.modMgmt f).errors = s.errors := rfl
@[simp] theorem State.modMgmt_spdmDoe (s : State) (f : Mgmt → Mgmt) : (s.modMgmt f).spdmDoe = s.spdmDoe := rfl
@[simp] theorem State.modMgmt_spdmI3c (s : State) (f : Mgmt → Mgmt) : (s.modMgmt f).spdmI3c = s.spdmI3c := rfl
@[simp] theorem State.modMgmt_out (s : State) (f : Mgmt → Mgmt) : (s.modMgmt f).out = s.out := rfl
@[simp] theorem State.modMgmt_scanI3c (s : State) (f : Mgmt → Mgmt) : (s.modMgmt f).scanI3c = s.scanI3c := rfl
@[simp] theorem State.modMgmt_bursts (s : State) (f : Mgmt → Mgmt) : (s.modMgmt f).bursts = s.bursts := rfl
@[simp] theorem State.modIo_agenda (s : State) (f : Io → Io) : (s.modIo f).agenda = s.agenda := rfl
@[simp] theorem State.modIo_issueQ (s : State) (f : Io → Io) : (s.modIo f).issueQ = s.issueQ := rfl
@[simp] theorem State.modIo_cur (s : State) (f : Io → Io) : (s.modIo f).cur = s.cur := rfl
@[simp] theorem State.modIo_stalled (s : State) (f : Io → Io) : (s.modIo f).stalled = s.stalled := rfl
@[simp] theorem State.modIo_free (s : State) (f : Io → Io) : (s.modIo f).free = s.free := rfl
@[simp] theorem State.modIo_cores (s : State) (f : Io → Io) : (s.modIo f).cores = s.cores := rfl
@[simp] theorem State.modIo_mgmt (s : State) (f : Io → Io) : (s.modIo f).mgmt = s.mgmt := rfl
@[simp] theorem State.modIo_mem (s : State) (f : Io → Io) : (s.modIo f).mem = s.mem := rfl
@[simp] theorem State.modIo_memPoison (s : State) (f : Io → Io) : (s.modIo f).memPoison = s.memPoison := rfl
@[simp] theorem State.modIo_memKey (s : State) (f : Io → Io) : (s.modIo f).memKey = s.memKey := rfl
@[simp] theorem State.modIo_keys (s : State) (f : Io → Io) : (s.modIo f).keys = s.keys := rfl
@[simp] theorem State.modIo_sched (s : State) (f : Io → Io) : (s.modIo f).sched = s.sched := rfl
@[simp] theorem State.modIo_errors (s : State) (f : Io → Io) : (s.modIo f).errors = s.errors := rfl
@[simp] theorem State.modIo_spdmDoe (s : State) (f : Io → Io) : (s.modIo f).spdmDoe = s.spdmDoe := rfl
@[simp] theorem State.modIo_spdmI3c (s : State) (f : Io → Io) : (s.modIo f).spdmI3c = s.spdmI3c := rfl
@[simp] theorem State.modIo_out (s : State) (f : Io → Io) : (s.modIo f).out = s.out := rfl
@[simp] theorem State.modIo_scanI3c (s : State) (f : Io → Io) : (s.modIo f).scanI3c = s.scanI3c := rfl
@[simp] theorem State.modIo_bursts (s : State) (f : Io → Io) : (s.modIo f).bursts = s.bursts := rfl
@[simp] theorem State.modSched_agenda (s : State) (f : Sched → Sched) : (s.modSched f).agenda = s.agenda := rfl
@[simp] theorem State.modSched_issueQ (s : State) (f : Sched → Sched) : (s.modSched f).issueQ = s.issueQ := rfl
@[simp] theorem State.modSched_cur (s : State) (f : Sched → Sched) : (s.modSched f).cur = s.cur := rfl
@[simp] theorem State.modSched_stalled (s : State) (f : Sched → Sched) : (s.modSched f).stalled = s.stalled := rfl
@[simp] theorem State.modSched_free (s : State) (f : Sched → Sched) : (s.modSched f).free = s.free := rfl
@[simp] theorem State.modSched_cores (s : State) (f : Sched → Sched) : (s.modSched f).cores = s.cores := rfl
@[simp] theorem State.modSched_mgmt (s : State) (f : Sched → Sched) : (s.modSched f).mgmt = s.mgmt := rfl
@[simp] theorem State.modSched_mem (s : State) (f : Sched → Sched) : (s.modSched f).mem = s.mem := rfl
@[simp] theorem State.modSched_memPoison (s : State) (f : Sched → Sched) : (s.modSched f).memPoison = s.memPoison := rfl
@[simp] theorem State.modSched_memKey (s : State) (f : Sched → Sched) : (s.modSched f).memKey = s.memKey := rfl
@[simp] theorem State.modSched_keys (s : State) (f : Sched → Sched) : (s.modSched f).keys = s.keys := rfl
@[simp] theorem State.modSched_io (s : State) (f : Sched → Sched) : (s.modSched f).io = s.io := rfl
@[simp] theorem State.modSched_errors (s : State) (f : Sched → Sched) : (s.modSched f).errors = s.errors := rfl
@[simp] theorem State.modSched_spdmDoe (s : State) (f : Sched → Sched) : (s.modSched f).spdmDoe = s.spdmDoe := rfl
@[simp] theorem State.modSched_spdmI3c (s : State) (f : Sched → Sched) : (s.modSched f).spdmI3c = s.spdmI3c := rfl
@[simp] theorem State.modSched_out (s : State) (f : Sched → Sched) : (s.modSched f).out = s.out := rfl
@[simp] theorem State.modSched_scanI3c (s : State) (f : Sched → Sched) : (s.modSched f).scanI3c = s.scanI3c := rfl
@[simp] theorem State.modSched_bursts (s : State) (f : Sched → Sched) : (s.modSched f).bursts = s.bursts := rfl
@[simp] theorem State.modErrors_agenda (s : State) (f : Errors → Errors) : (s.modErrors f).agenda = s.agenda := rfl
@[simp] theorem State.modErrors_issueQ (s : State) (f : Errors → Errors) : (s.modErrors f).issueQ = s.issueQ := rfl
@[simp] theorem State.modErrors_cur (s : State) (f : Errors → Errors) : (s.modErrors f).cur = s.cur := rfl
@[simp] theorem State.modErrors_stalled (s : State) (f : Errors → Errors) : (s.modErrors f).stalled = s.stalled := rfl
@[simp] theorem State.modErrors_free (s : State) (f : Errors → Errors) : (s.modErrors f).free = s.free := rfl
@[simp] theorem State.modErrors_cores (s : State) (f : Errors → Errors) : (s.modErrors f).cores = s.cores := rfl
@[simp] theorem State.modErrors_mgmt (s : State) (f : Errors → Errors) : (s.modErrors f).mgmt = s.mgmt := rfl
@[simp] theorem State.modErrors_mem (s : State) (f : Errors → Errors) : (s.modErrors f).mem = s.mem := rfl
@[simp] theorem State.modErrors_memPoison (s : State) (f : Errors → Errors) : (s.modErrors f).memPoison = s.memPoison := rfl
@[simp] theorem State.modErrors_memKey (s : State) (f : Errors → Errors) : (s.modErrors f).memKey = s.memKey := rfl
@[simp] theorem State.modErrors_keys (s : State) (f : Errors → Errors) : (s.modErrors f).keys = s.keys := rfl
@[simp] theorem State.modErrors_sched (s : State) (f : Errors → Errors) : (s.modErrors f).sched = s.sched := rfl
@[simp] theorem State.modErrors_io (s : State) (f : Errors → Errors) : (s.modErrors f).io = s.io := rfl
@[simp] theorem State.modErrors_spdmDoe (s : State) (f : Errors → Errors) : (s.modErrors f).spdmDoe = s.spdmDoe := rfl
@[simp] theorem State.modErrors_spdmI3c (s : State) (f : Errors → Errors) : (s.modErrors f).spdmI3c = s.spdmI3c := rfl
@[simp] theorem State.modErrors_out (s : State) (f : Errors → Errors) : (s.modErrors f).out = s.out := rfl
@[simp] theorem State.modErrors_scanI3c (s : State) (f : Errors → Errors) : (s.modErrors f).scanI3c = s.scanI3c := rfl
@[simp] theorem State.modErrors_bursts (s : State) (f : Errors → Errors) : (s.modErrors f).bursts = s.bursts := rfl
@[simp] theorem State.modKeys_agenda (s : State) (f : KeyStore → KeyStore) : (s.modKeys f).agenda = s.agenda := rfl
@[simp] theorem State.modKeys_issueQ (s : State) (f : KeyStore → KeyStore) : (s.modKeys f).issueQ = s.issueQ := rfl
@[simp] theorem State.modKeys_cur (s : State) (f : KeyStore → KeyStore) : (s.modKeys f).cur = s.cur := rfl
@[simp] theorem State.modKeys_stalled (s : State) (f : KeyStore → KeyStore) : (s.modKeys f).stalled = s.stalled := rfl
@[simp] theorem State.modKeys_free (s : State) (f : KeyStore → KeyStore) : (s.modKeys f).free = s.free := rfl
@[simp] theorem State.modKeys_cores (s : State) (f : KeyStore → KeyStore) : (s.modKeys f).cores = s.cores := rfl
@[simp] theorem State.modKeys_mgmt (s : State) (f : KeyStore → KeyStore) : (s.modKeys f).mgmt = s.mgmt := rfl
@[simp] theorem State.modKeys_mem (s : State) (f : KeyStore → KeyStore) : (s.modKeys f).mem = s.mem := rfl
@[simp] theorem State.modKeys_memPoison (s : State) (f : KeyStore → KeyStore) : (s.modKeys f).memPoison = s.memPoison := rfl
@[simp] theorem State.modKeys_memKey (s : State) (f : KeyStore → KeyStore) : (s.modKeys f).memKey = s.memKey := rfl
@[simp] theorem State.modKeys_sched (s : State) (f : KeyStore → KeyStore) : (s.modKeys f).sched = s.sched := rfl
@[simp] theorem State.modKeys_io (s : State) (f : KeyStore → KeyStore) : (s.modKeys f).io = s.io := rfl
@[simp] theorem State.modKeys_errors (s : State) (f : KeyStore → KeyStore) : (s.modKeys f).errors = s.errors := rfl
@[simp] theorem State.modKeys_spdmDoe (s : State) (f : KeyStore → KeyStore) : (s.modKeys f).spdmDoe = s.spdmDoe := rfl
@[simp] theorem State.modKeys_spdmI3c (s : State) (f : KeyStore → KeyStore) : (s.modKeys f).spdmI3c = s.spdmI3c := rfl
@[simp] theorem State.modKeys_out (s : State) (f : KeyStore → KeyStore) : (s.modKeys f).out = s.out := rfl
@[simp] theorem State.modKeys_scanI3c (s : State) (f : KeyStore → KeyStore) : (s.modKeys f).scanI3c = s.scanI3c := rfl
@[simp] theorem State.modKeys_bursts (s : State) (f : KeyStore → KeyStore) : (s.modKeys f).bursts = s.bursts := rfl
@[simp] theorem State.emit_agenda (s : State) (o : Out) : (s.emit o).agenda = s.agenda := rfl
@[simp] theorem State.emit_issueQ (s : State) (o : Out) : (s.emit o).issueQ = s.issueQ := rfl
@[simp] theorem State.emit_cur (s : State) (o : Out) : (s.emit o).cur = s.cur := rfl
@[simp] theorem State.emit_stalled (s : State) (o : Out) : (s.emit o).stalled = s.stalled := rfl
@[simp] theorem State.emit_free (s : State) (o : Out) : (s.emit o).free = s.free := rfl
@[simp] theorem State.emit_cores (s : State) (o : Out) : (s.emit o).cores = s.cores := rfl
@[simp] theorem State.emit_mgmt (s : State) (o : Out) : (s.emit o).mgmt = s.mgmt := rfl
@[simp] theorem State.emit_mem (s : State) (o : Out) : (s.emit o).mem = s.mem := rfl
@[simp] theorem State.emit_memPoison (s : State) (o : Out) : (s.emit o).memPoison = s.memPoison := rfl
@[simp] theorem State.emit_memKey (s : State) (o : Out) : (s.emit o).memKey = s.memKey := rfl
@[simp] theorem State.emit_keys (s : State) (o : Out) : (s.emit o).keys = s.keys := rfl
@[simp] theorem State.emit_sched (s : State) (o : Out) : (s.emit o).sched = s.sched := rfl
@[simp] theorem State.emit_io (s : State) (o : Out) : (s.emit o).io = s.io := rfl
@[simp] theorem State.emit_errors (s : State) (o : Out) : (s.emit o).errors = s.errors := rfl
@[simp] theorem State.emit_spdmDoe (s : State) (o : Out) : (s.emit o).spdmDoe = s.spdmDoe := rfl
@[simp] theorem State.emit_spdmI3c (s : State) (o : Out) : (s.emit o).spdmI3c = s.spdmI3c := rfl

@[simp] theorem State.setCore_instant (s : State) (c : Nat) (k : Core) : (s.setCore c k).instant = s.instant := rfl
@[simp] theorem State.setCore_hist (s : State) (c : Nat) (k : Core) : (s.setCore c k).hist = s.hist := rfl
@[simp] theorem State.setCore_fences (s : State) (c : Nat) (k : Core) : (s.setCore c k).fences = s.fences := rfl
@[simp] theorem State.setCore_l2 (s : State) (c : Nat) (k : Core) : (s.setCore c k).l2 = s.l2 := rfl
@[simp] theorem State.modCore_instant (s : State) (c : Nat) (f : Core → Core) : (s.modCore c f).instant = s.instant := rfl
@[simp] theorem State.modCore_hist (s : State) (c : Nat) (f : Core → Core) : (s.modCore c f).hist = s.hist := rfl
@[simp] theorem State.modCore_fences (s : State) (c : Nat) (f : Core → Core) : (s.modCore c f).fences = s.fences := rfl
@[simp] theorem State.modCore_l2 (s : State) (c : Nat) (f : Core → Core) : (s.modCore c f).l2 = s.l2 := rfl
@[simp] theorem State.modMgmt_instant (s : State) (f : Mgmt → Mgmt) : (s.modMgmt f).instant = s.instant := rfl
@[simp] theorem State.modMgmt_hist (s : State) (f : Mgmt → Mgmt) : (s.modMgmt f).hist = s.hist := rfl
@[simp] theorem State.modMgmt_fences (s : State) (f : Mgmt → Mgmt) : (s.modMgmt f).fences = s.fences := rfl
@[simp] theorem State.modMgmt_l2 (s : State) (f : Mgmt → Mgmt) : (s.modMgmt f).l2 = s.l2 := rfl
@[simp] theorem State.modIo_instant (s : State) (f : Io → Io) : (s.modIo f).instant = s.instant := rfl
@[simp] theorem State.modIo_hist (s : State) (f : Io → Io) : (s.modIo f).hist = s.hist := rfl
@[simp] theorem State.modIo_fences (s : State) (f : Io → Io) : (s.modIo f).fences = s.fences := rfl
@[simp] theorem State.modIo_l2 (s : State) (f : Io → Io) : (s.modIo f).l2 = s.l2 := rfl
@[simp] theorem State.modSched_instant (s : State) (f : Sched → Sched) : (s.modSched f).instant = s.instant := rfl
@[simp] theorem State.modSched_hist (s : State) (f : Sched → Sched) : (s.modSched f).hist = s.hist := rfl
@[simp] theorem State.modSched_fences (s : State) (f : Sched → Sched) : (s.modSched f).fences = s.fences := rfl
@[simp] theorem State.modSched_l2 (s : State) (f : Sched → Sched) : (s.modSched f).l2 = s.l2 := rfl
@[simp] theorem State.modErrors_instant (s : State) (f : Errors → Errors) : (s.modErrors f).instant = s.instant := rfl
@[simp] theorem State.modErrors_hist (s : State) (f : Errors → Errors) : (s.modErrors f).hist = s.hist := rfl
@[simp] theorem State.modErrors_fences (s : State) (f : Errors → Errors) : (s.modErrors f).fences = s.fences := rfl
@[simp] theorem State.modErrors_l2 (s : State) (f : Errors → Errors) : (s.modErrors f).l2 = s.l2 := rfl
@[simp] theorem State.modKeys_instant (s : State) (f : KeyStore → KeyStore) : (s.modKeys f).instant = s.instant := rfl
@[simp] theorem State.modKeys_hist (s : State) (f : KeyStore → KeyStore) : (s.modKeys f).hist = s.hist := rfl
@[simp] theorem State.modKeys_fences (s : State) (f : KeyStore → KeyStore) : (s.modKeys f).fences = s.fences := rfl
@[simp] theorem State.modKeys_l2 (s : State) (f : KeyStore → KeyStore) : (s.modKeys f).l2 = s.l2 := rfl
@[simp] theorem State.emit_instant (s : State) (o : Out) : (s.emit o).instant = s.instant := rfl
@[simp] theorem State.emit_hist (s : State) (o : Out) : (s.emit o).hist = s.hist := rfl
@[simp] theorem State.emit_fences (s : State) (o : Out) : (s.emit o).fences = s.fences := rfl
@[simp] theorem State.emit_l2 (s : State) (o : Out) : (s.emit o).l2 = s.l2 := rfl
@[simp] theorem State.emit_scanI3c (s : State) (o : Out) : (s.emit o).scanI3c = s.scanI3c := rfl
@[simp] theorem State.emit_bursts (s : State) (o : Out) : (s.emit o).bursts = s.bursts := rfl
@[simp] theorem State.modMgmt_mgmt (s : State) (f : Mgmt → Mgmt) : (s.modMgmt f).mgmt = f s.mgmt := rfl
@[simp] theorem State.modIo_io (s : State) (f : Io → Io) : (s.modIo f).io = f s.io := rfl
@[simp] theorem State.modSched_sched (s : State) (f : Sched → Sched) : (s.modSched f).sched = f s.sched := rfl
@[simp] theorem State.modErrors_errors (s : State) (f : Errors → Errors) : (s.modErrors f).errors = f s.errors := rfl
@[simp] theorem State.modKeys_keys (s : State) (f : KeyStore → KeyStore) : (s.modKeys f).keys = f s.keys := rfl
@[simp] theorem State.emit_out (s : State) (o : Out) : (s.emit o).out = s.out ++ [o] := rfl

@[simp] theorem State.setCore_holds (s : State) (c : Nat) (k : Core) : (s.setCore c k).holds = s.holds := rfl
@[simp] theorem State.modCore_holds (s : State) (c : Nat) (f : Core → Core) : (s.modCore c f).holds = s.holds := rfl
@[simp] theorem State.modMgmt_holds (s : State) (f : Mgmt → Mgmt) : (s.modMgmt f).holds = s.holds := rfl
@[simp] theorem State.modIo_holds (s : State) (f : Io → Io) : (s.modIo f).holds = s.holds := rfl
@[simp] theorem State.modSched_holds (s : State) (f : Sched → Sched) : (s.modSched f).holds = s.holds := rfl
@[simp] theorem State.modErrors_holds (s : State) (f : Errors → Errors) : (s.modErrors f).holds = s.holds := rfl
@[simp] theorem State.modKeys_holds (s : State) (f : KeyStore → KeyStore) : (s.modKeys f).holds = s.holds := rfl
@[simp] theorem State.emit_holds (s : State) (o : Out) : (s.emit o).holds = s.holds := rfl

/-! ## A hart's own state -/

@[simp] theorem State.setThread_holds (s : State) (h : Hart) (th : Thread) : (s.setThread h th).holds = s.holds := by cases h <;> rfl
@[simp] theorem State.modThread_holds (s : State) (h : Hart) (f : Thread → Thread) : (s.modThread h f).holds = s.holds := by cases h <;> rfl
@[simp] theorem State.setThread_agenda (s : State) (h : Hart) (th : Thread) : (s.setThread h th).agenda = s.agenda := by cases h <;> rfl
@[simp] theorem State.modThread_agenda (s : State) (h : Hart) (f : Thread → Thread) : (s.modThread h f).agenda = s.agenda := by cases h <;> rfl
@[simp] theorem State.setThread_issueQ (s : State) (h : Hart) (th : Thread) : (s.setThread h th).issueQ = s.issueQ := by cases h <;> rfl
@[simp] theorem State.modThread_issueQ (s : State) (h : Hart) (f : Thread → Thread) : (s.modThread h f).issueQ = s.issueQ := by cases h <;> rfl
@[simp] theorem State.setThread_cur (s : State) (h : Hart) (th : Thread) : (s.setThread h th).cur = s.cur := by cases h <;> rfl
@[simp] theorem State.modThread_cur (s : State) (h : Hart) (f : Thread → Thread) : (s.modThread h f).cur = s.cur := by cases h <;> rfl
@[simp] theorem State.setThread_stalled (s : State) (h : Hart) (th : Thread) : (s.setThread h th).stalled = s.stalled := by cases h <;> rfl
@[simp] theorem State.modThread_stalled (s : State) (h : Hart) (f : Thread → Thread) : (s.modThread h f).stalled = s.stalled := by cases h <;> rfl
@[simp] theorem State.setThread_free (s : State) (h : Hart) (th : Thread) : (s.setThread h th).free = s.free := by cases h <;> rfl
@[simp] theorem State.modThread_free (s : State) (h : Hart) (f : Thread → Thread) : (s.modThread h f).free = s.free := by cases h <;> rfl
@[simp] theorem State.setThread_mem (s : State) (h : Hart) (th : Thread) : (s.setThread h th).mem = s.mem := by cases h <;> rfl
@[simp] theorem State.modThread_mem (s : State) (h : Hart) (f : Thread → Thread) : (s.modThread h f).mem = s.mem := by cases h <;> rfl
@[simp] theorem State.setThread_memPoison (s : State) (h : Hart) (th : Thread) : (s.setThread h th).memPoison = s.memPoison := by cases h <;> rfl
@[simp] theorem State.modThread_memPoison (s : State) (h : Hart) (f : Thread → Thread) : (s.modThread h f).memPoison = s.memPoison := by cases h <;> rfl
@[simp] theorem State.setThread_memKey (s : State) (h : Hart) (th : Thread) : (s.setThread h th).memKey = s.memKey := by cases h <;> rfl
@[simp] theorem State.modThread_memKey (s : State) (h : Hart) (f : Thread → Thread) : (s.modThread h f).memKey = s.memKey := by cases h <;> rfl
@[simp] theorem State.setThread_keys (s : State) (h : Hart) (th : Thread) : (s.setThread h th).keys = s.keys := by cases h <;> rfl
@[simp] theorem State.modThread_keys (s : State) (h : Hart) (f : Thread → Thread) : (s.modThread h f).keys = s.keys := by cases h <;> rfl
@[simp] theorem State.setThread_sched (s : State) (h : Hart) (th : Thread) : (s.setThread h th).sched = s.sched := by cases h <;> rfl
@[simp] theorem State.modThread_sched (s : State) (h : Hart) (f : Thread → Thread) : (s.modThread h f).sched = s.sched := by cases h <;> rfl
@[simp] theorem State.setThread_io (s : State) (h : Hart) (th : Thread) : (s.setThread h th).io = s.io := by cases h <;> rfl
@[simp] theorem State.modThread_io (s : State) (h : Hart) (f : Thread → Thread) : (s.modThread h f).io = s.io := by cases h <;> rfl
@[simp] theorem State.setThread_errors (s : State) (h : Hart) (th : Thread) : (s.setThread h th).errors = s.errors := by cases h <;> rfl
@[simp] theorem State.modThread_errors (s : State) (h : Hart) (f : Thread → Thread) : (s.modThread h f).errors = s.errors := by cases h <;> rfl
@[simp] theorem State.setThread_spdmDoe (s : State) (h : Hart) (th : Thread) : (s.setThread h th).spdmDoe = s.spdmDoe := by cases h <;> rfl
@[simp] theorem State.modThread_spdmDoe (s : State) (h : Hart) (f : Thread → Thread) : (s.modThread h f).spdmDoe = s.spdmDoe := by cases h <;> rfl
@[simp] theorem State.setThread_spdmI3c (s : State) (h : Hart) (th : Thread) : (s.setThread h th).spdmI3c = s.spdmI3c := by cases h <;> rfl
@[simp] theorem State.modThread_spdmI3c (s : State) (h : Hart) (f : Thread → Thread) : (s.modThread h f).spdmI3c = s.spdmI3c := by cases h <;> rfl
@[simp] theorem State.setThread_out (s : State) (h : Hart) (th : Thread) : (s.setThread h th).out = s.out := by cases h <;> rfl
@[simp] theorem State.modThread_out (s : State) (h : Hart) (f : Thread → Thread) : (s.modThread h f).out = s.out := by cases h <;> rfl
@[simp] theorem State.setThread_instant (s : State) (h : Hart) (th : Thread) : (s.setThread h th).instant = s.instant := by cases h <;> rfl
@[simp] theorem State.modThread_instant (s : State) (h : Hart) (f : Thread → Thread) : (s.modThread h f).instant = s.instant := by cases h <;> rfl
@[simp] theorem State.setThread_hist (s : State) (h : Hart) (th : Thread) : (s.setThread h th).hist = s.hist := by cases h <;> rfl
@[simp] theorem State.modThread_hist (s : State) (h : Hart) (f : Thread → Thread) : (s.modThread h f).hist = s.hist := by cases h <;> rfl
@[simp] theorem State.setThread_fences (s : State) (h : Hart) (th : Thread) : (s.setThread h th).fences = s.fences := by cases h <;> rfl
@[simp] theorem State.modThread_fences (s : State) (h : Hart) (f : Thread → Thread) : (s.modThread h f).fences = s.fences := by cases h <;> rfl
@[simp] theorem State.setThread_l2 (s : State) (h : Hart) (th : Thread) : (s.setThread h th).l2 = s.l2 := by cases h <;> rfl
@[simp] theorem State.setThread_scanI3c (s : State) (h : Hart) (th : Thread) : (s.setThread h th).scanI3c = s.scanI3c := by cases h <;> rfl
@[simp] theorem State.setThread_bursts (s : State) (h : Hart) (th : Thread) : (s.setThread h th).bursts = s.bursts := by cases h <;> rfl
@[simp] theorem State.modThread_l2 (s : State) (h : Hart) (f : Thread → Thread) : (s.modThread h f).l2 = s.l2 := by cases h <;> rfl
@[simp] theorem State.modThread_scanI3c (s : State) (h : Hart) (f : Thread → Thread) : (s.modThread h f).scanI3c = s.scanI3c := by cases h <;> rfl
@[simp] theorem State.modThread_bursts (s : State) (h : Hart) (f : Thread → Thread) : (s.modThread h f).bursts = s.bursts := by cases h <;> rfl

@[simp] theorem Thread.writeReg_latches (th : Thread) (n : Nat) (v : Word) (p : Bool) : (th.writeReg n v p).latches = th.latches := rfl
@[simp] theorem Thread.push_pc (th : Thread) (l : Latch) : (th.push l).pc = th.pc := rfl
@[simp] theorem Thread.writeReg_pc (th : Thread) (n : Nat) (v : Word) (p : Bool) : (th.writeReg n v p).pc = th.pc := rfl
@[simp] theorem Thread.push_fmode (th : Thread) (l : Latch) : (th.push l).fmode = th.fmode := rfl
@[simp] theorem Thread.writeReg_fmode (th : Thread) (n : Nat) (v : Word) (p : Bool) : (th.writeReg n v p).fmode = th.fmode := rfl
@[simp] theorem Thread.push_flags (th : Thread) (l : Latch) : (th.push l).flags = th.flags := rfl
@[simp] theorem Thread.writeReg_flags (th : Thread) (n : Nat) (v : Word) (p : Bool) : (th.writeReg n v p).flags = th.flags := rfl
@[simp] theorem Thread.push_qpct (th : Thread) (l : Latch) : (th.push l).qpct = th.qpct := rfl
@[simp] theorem Thread.writeReg_qpct (th : Thread) (n : Nat) (v : Word) (p : Bool) : (th.writeReg n v p).qpct = th.qpct := rfl
@[simp] theorem Thread.push_causeActive (th : Thread) (l : Latch) : (th.push l).causeActive = th.causeActive := rfl
@[simp] theorem Thread.writeReg_causeActive (th : Thread) (n : Nat) (v : Word) (p : Bool) : (th.writeReg n v p).causeActive = th.causeActive := rfl
@[simp] theorem Thread.push_causeCode (th : Thread) (l : Latch) : (th.push l).causeCode = th.causeCode := rfl
@[simp] theorem Thread.writeReg_causeCode (th : Thread) (n : Nat) (v : Word) (p : Bool) : (th.writeReg n v p).causeCode = th.causeCode := rfl
@[simp] theorem Thread.push_epc (th : Thread) (l : Latch) : (th.push l).epc = th.epc := rfl
@[simp] theorem Thread.writeReg_epc (th : Thread) (n : Nat) (v : Word) (p : Bool) : (th.writeReg n v p).epc = th.epc := rfl
@[simp] theorem Thread.push_tval (th : Thread) (l : Latch) : (th.push l).tval = th.tval := rfl
@[simp] theorem Thread.writeReg_tval (th : Thread) (n : Nat) (v : Word) (p : Bool) : (th.writeReg n v p).tval = th.tval := rfl
@[simp] theorem Thread.push_run (th : Thread) (l : Latch) : (th.push l).run = th.run := rfl
@[simp] theorem Thread.writeReg_run (th : Thread) (n : Nat) (v : Word) (p : Bool) : (th.writeReg n v p).run = th.run := rfl
@[simp] theorem Thread.push_stopped (th : Thread) (l : Latch) : (th.push l).stopped = th.stopped := rfl
@[simp] theorem Thread.writeReg_stopped (th : Thread) (n : Nat) (v : Word) (p : Bool) : (th.writeReg n v p).stopped = th.stopped := rfl
@[simp] theorem Thread.push_storeQ (th : Thread) (l : Latch) : (th.push l).storeQ = th.storeQ := rfl
@[simp] theorem Thread.writeReg_storeQ (th : Thread) (n : Nat) (v : Word) (p : Bool) : (th.writeReg n v p).storeQ = th.storeQ := rfl
@[simp] theorem Thread.push_stores (th : Thread) (l : Latch) : (th.push l).stores = th.stores := rfl
@[simp] theorem Thread.writeReg_stores (th : Thread) (n : Nat) (v : Word) (p : Bool) : (th.writeReg n v p).stores = th.stores := rfl
@[simp] theorem Thread.push_save (th : Thread) (l : Latch) : (th.push l).save = th.save := rfl
@[simp] theorem Thread.writeReg_save (th : Thread) (n : Nat) (v : Word) (p : Bool) : (th.writeReg n v p).save = th.save := rfl
@[simp] theorem Thread.push_age (th : Thread) (l : Latch) : (th.push l).age = th.age := rfl
@[simp] theorem Thread.writeReg_age (th : Thread) (n : Nat) (v : Word) (p : Bool) : (th.writeReg n v p).age = th.age := rfl
@[simp] theorem Thread.push_npc (th : Thread) (l : Latch) : (th.push l).npc = th.npc := rfl
@[simp] theorem Thread.writeReg_npc (th : Thread) (n : Nat) (v : Word) (p : Bool) : (th.writeReg n v p).npc = th.npc := rfl
@[simp] theorem Thread.push_regs (th : Thread) (l : Latch) : (th.push l).regs = th.regs := rfl
@[simp] theorem Thread.push_poison (th : Thread) (l : Latch) : (th.push l).poison = th.poison := rfl
@[simp] theorem Thread.put32_pc (th : Thread) (d : Dest) (v : Word) (p : Bool) : (th.put32 d v p).pc = th.pc := by
  unfold Thread.put32; cases d.n <;> rfl
@[simp] theorem Thread.putPair_pc (th : Thread) (d : Dest) (v : Pair) (p : Bool) : (th.putPair d v p).pc = th.pc := by
  unfold Thread.putPair; cases d.n <;> rfl
@[simp] theorem Thread.put32_fmode (th : Thread) (d : Dest) (v : Word) (p : Bool) : (th.put32 d v p).fmode = th.fmode := by
  unfold Thread.put32; cases d.n <;> rfl
@[simp] theorem Thread.putPair_fmode (th : Thread) (d : Dest) (v : Pair) (p : Bool) : (th.putPair d v p).fmode = th.fmode := by
  unfold Thread.putPair; cases d.n <;> rfl
@[simp] theorem Thread.put32_flags (th : Thread) (d : Dest) (v : Word) (p : Bool) : (th.put32 d v p).flags = th.flags := by
  unfold Thread.put32; cases d.n <;> rfl
@[simp] theorem Thread.putPair_flags (th : Thread) (d : Dest) (v : Pair) (p : Bool) : (th.putPair d v p).flags = th.flags := by
  unfold Thread.putPair; cases d.n <;> rfl
@[simp] theorem Thread.put32_qpct (th : Thread) (d : Dest) (v : Word) (p : Bool) : (th.put32 d v p).qpct = th.qpct := by
  unfold Thread.put32; cases d.n <;> rfl
@[simp] theorem Thread.putPair_qpct (th : Thread) (d : Dest) (v : Pair) (p : Bool) : (th.putPair d v p).qpct = th.qpct := by
  unfold Thread.putPair; cases d.n <;> rfl
@[simp] theorem Thread.put32_causeActive (th : Thread) (d : Dest) (v : Word) (p : Bool) : (th.put32 d v p).causeActive = th.causeActive := by
  unfold Thread.put32; cases d.n <;> rfl
@[simp] theorem Thread.putPair_causeActive (th : Thread) (d : Dest) (v : Pair) (p : Bool) : (th.putPair d v p).causeActive = th.causeActive := by
  unfold Thread.putPair; cases d.n <;> rfl
@[simp] theorem Thread.put32_causeCode (th : Thread) (d : Dest) (v : Word) (p : Bool) : (th.put32 d v p).causeCode = th.causeCode := by
  unfold Thread.put32; cases d.n <;> rfl
@[simp] theorem Thread.putPair_causeCode (th : Thread) (d : Dest) (v : Pair) (p : Bool) : (th.putPair d v p).causeCode = th.causeCode := by
  unfold Thread.putPair; cases d.n <;> rfl
@[simp] theorem Thread.put32_epc (th : Thread) (d : Dest) (v : Word) (p : Bool) : (th.put32 d v p).epc = th.epc := by
  unfold Thread.put32; cases d.n <;> rfl
@[simp] theorem Thread.putPair_epc (th : Thread) (d : Dest) (v : Pair) (p : Bool) : (th.putPair d v p).epc = th.epc := by
  unfold Thread.putPair; cases d.n <;> rfl
@[simp] theorem Thread.put32_tval (th : Thread) (d : Dest) (v : Word) (p : Bool) : (th.put32 d v p).tval = th.tval := by
  unfold Thread.put32; cases d.n <;> rfl
@[simp] theorem Thread.putPair_tval (th : Thread) (d : Dest) (v : Pair) (p : Bool) : (th.putPair d v p).tval = th.tval := by
  unfold Thread.putPair; cases d.n <;> rfl
@[simp] theorem Thread.put32_run (th : Thread) (d : Dest) (v : Word) (p : Bool) : (th.put32 d v p).run = th.run := by
  unfold Thread.put32; cases d.n <;> rfl
@[simp] theorem Thread.putPair_run (th : Thread) (d : Dest) (v : Pair) (p : Bool) : (th.putPair d v p).run = th.run := by
  unfold Thread.putPair; cases d.n <;> rfl
@[simp] theorem Thread.put32_stopped (th : Thread) (d : Dest) (v : Word) (p : Bool) : (th.put32 d v p).stopped = th.stopped := by
  unfold Thread.put32; cases d.n <;> rfl
@[simp] theorem Thread.putPair_stopped (th : Thread) (d : Dest) (v : Pair) (p : Bool) : (th.putPair d v p).stopped = th.stopped := by
  unfold Thread.putPair; cases d.n <;> rfl
@[simp] theorem Thread.put32_storeQ (th : Thread) (d : Dest) (v : Word) (p : Bool) : (th.put32 d v p).storeQ = th.storeQ := by
  unfold Thread.put32; cases d.n <;> rfl
@[simp] theorem Thread.putPair_storeQ (th : Thread) (d : Dest) (v : Pair) (p : Bool) : (th.putPair d v p).storeQ = th.storeQ := by
  unfold Thread.putPair; cases d.n <;> rfl
@[simp] theorem Thread.put32_stores (th : Thread) (d : Dest) (v : Word) (p : Bool) : (th.put32 d v p).stores = th.stores := by
  unfold Thread.put32; cases d.n <;> rfl
@[simp] theorem Thread.putPair_stores (th : Thread) (d : Dest) (v : Pair) (p : Bool) : (th.putPair d v p).stores = th.stores := by
  unfold Thread.putPair; cases d.n <;> rfl
@[simp] theorem Thread.put32_save (th : Thread) (d : Dest) (v : Word) (p : Bool) : (th.put32 d v p).save = th.save := by
  unfold Thread.put32; cases d.n <;> rfl
@[simp] theorem Thread.putPair_save (th : Thread) (d : Dest) (v : Pair) (p : Bool) : (th.putPair d v p).save = th.save := by
  unfold Thread.putPair; cases d.n <;> rfl
@[simp] theorem Thread.put32_age (th : Thread) (d : Dest) (v : Word) (p : Bool) : (th.put32 d v p).age = th.age := by
  unfold Thread.put32; cases d.n <;> rfl
@[simp] theorem Thread.putPair_age (th : Thread) (d : Dest) (v : Pair) (p : Bool) : (th.putPair d v p).age = th.age := by
  unfold Thread.putPair; cases d.n <;> rfl
@[simp] theorem Thread.put32_npc (th : Thread) (d : Dest) (v : Word) (p : Bool) : (th.put32 d v p).npc = th.npc := by
  unfold Thread.put32; cases d.n <;> rfl
@[simp] theorem Thread.putPair_npc (th : Thread) (d : Dest) (v : Pair) (p : Bool) : (th.putPair d v p).npc = th.npc := by
  unfold Thread.putPair; cases d.n <;> rfl
@[simp] theorem Thread.raise_latches (th : Thread) (x : FlagSet) : (th.raise x).latches = th.latches := rfl
@[simp] theorem Thread.raise_pc (th : Thread) (x : FlagSet) : (th.raise x).pc = th.pc := rfl
@[simp] theorem Thread.raise_fmode (th : Thread) (x : FlagSet) : (th.raise x).fmode = th.fmode := rfl
@[simp] theorem Thread.raise_qpct (th : Thread) (x : FlagSet) : (th.raise x).qpct = th.qpct := rfl
@[simp] theorem Thread.raise_causeActive (th : Thread) (x : FlagSet) : (th.raise x).causeActive = th.causeActive := rfl
@[simp] theorem Thread.raise_causeCode (th : Thread) (x : FlagSet) : (th.raise x).causeCode = th.causeCode := rfl
@[simp] theorem Thread.raise_epc (th : Thread) (x : FlagSet) : (th.raise x).epc = th.epc := rfl
@[simp] theorem Thread.raise_tval (th : Thread) (x : FlagSet) : (th.raise x).tval = th.tval := rfl
@[simp] theorem Thread.raise_run (th : Thread) (x : FlagSet) : (th.raise x).run = th.run := rfl
@[simp] theorem Thread.raise_stopped (th : Thread) (x : FlagSet) : (th.raise x).stopped = th.stopped := rfl
@[simp] theorem Thread.raise_storeQ (th : Thread) (x : FlagSet) : (th.raise x).storeQ = th.storeQ := rfl
@[simp] theorem Thread.raise_stores (th : Thread) (x : FlagSet) : (th.raise x).stores = th.stores := rfl
@[simp] theorem Thread.raise_save (th : Thread) (x : FlagSet) : (th.raise x).save = th.save := rfl
@[simp] theorem Thread.raise_age (th : Thread) (x : FlagSet) : (th.raise x).age = th.age := rfl
@[simp] theorem Thread.raise_npc (th : Thread) (x : FlagSet) : (th.raise x).npc = th.npc := rfl
@[simp] theorem Thread.raise_regs (th : Thread) (x : FlagSet) : (th.raise x).regs = th.regs := rfl
@[simp] theorem Thread.raise_poison (th : Thread) (x : FlagSet) : (th.raise x).poison = th.poison := rfl
@[simp] theorem Thread.raise_flags (th : Thread) (x : FlagSet) : (th.raise x).flags = th.flags ||| x := rfl
@[simp] theorem Thread.clearWindow_pc (th : Thread) : th.clearWindow.pc = th.pc := rfl
@[simp] theorem Thread.clearWindow_fmode (th : Thread) : th.clearWindow.fmode = th.fmode := rfl
@[simp] theorem Thread.clearWindow_flags (th : Thread) : th.clearWindow.flags = th.flags := rfl
@[simp] theorem Thread.clearWindow_qpct (th : Thread) : th.clearWindow.qpct = th.qpct := rfl
@[simp] theorem Thread.clearWindow_causeActive (th : Thread) : th.clearWindow.causeActive = th.causeActive := rfl
@[simp] theorem Thread.clearWindow_causeCode (th : Thread) : th.clearWindow.causeCode = th.causeCode := rfl
@[simp] theorem Thread.clearWindow_epc (th : Thread) : th.clearWindow.epc = th.epc := rfl
@[simp] theorem Thread.clearWindow_tval (th : Thread) : th.clearWindow.tval = th.tval := rfl
@[simp] theorem Thread.clearWindow_run (th : Thread) : th.clearWindow.run = th.run := rfl
@[simp] theorem Thread.clearWindow_stopped (th : Thread) : th.clearWindow.stopped = th.stopped := rfl
@[simp] theorem Thread.clearWindow_storeQ (th : Thread) : th.clearWindow.storeQ = th.storeQ := rfl
@[simp] theorem Thread.clearWindow_stores (th : Thread) : th.clearWindow.stores = th.stores := rfl
@[simp] theorem Thread.clearWindow_save (th : Thread) : th.clearWindow.save = th.save := rfl
@[simp] theorem Thread.clearWindow_age (th : Thread) : th.clearWindow.age = th.age := rfl
@[simp] theorem Thread.clearWindow_npc (th : Thread) : th.clearWindow.npc = th.npc := rfl
@[simp] theorem Thread.clearWindow_regs (th : Thread) : th.clearWindow.regs = th.regs := rfl
@[simp] theorem Thread.clearWindow_poison (th : Thread) : th.clearWindow.poison = th.poison := rfl
@[simp] theorem Thread.clearWindow_latches (th : Thread) : th.clearWindow.latches = noLatches := rfl
@[simp] theorem Thread.push_engFlags (th : Thread) (l : Latch) : (th.push l).engFlags = th.engFlags := rfl
@[simp] theorem Thread.writeReg_engFlags (th : Thread) (n : Nat) (v : Word) (p : Bool) : (th.writeReg n v p).engFlags = th.engFlags := rfl
@[simp] theorem Thread.put32_engFlags (th : Thread) (d : Dest) (v : Word) (p : Bool) : (th.put32 d v p).engFlags = th.engFlags := by
  unfold Thread.put32; cases d.n <;> rfl
@[simp] theorem Thread.putPair_engFlags (th : Thread) (d : Dest) (v : Pair) (p : Bool) : (th.putPair d v p).engFlags = th.engFlags := by
  unfold Thread.putPair; cases d.n <;> rfl
@[simp] theorem Thread.raise_engFlags (th : Thread) (x : FlagSet) : (th.raise x).engFlags = th.engFlags := rfl
@[simp] theorem Thread.clearWindow_engFlags (th : Thread) : th.clearWindow.engFlags = th.engFlags := rfl
@[simp] theorem Thread.push_fail (th : Thread) (l : Latch) : (th.push l).fail = th.fail := rfl
@[simp] theorem Thread.writeReg_fail (th : Thread) (n : Nat) (v : Word) (p : Bool) : (th.writeReg n v p).fail = th.fail := rfl
@[simp] theorem Thread.put32_fail (th : Thread) (d : Dest) (v : Word) (p : Bool) : (th.put32 d v p).fail = th.fail := by
  unfold Thread.put32; cases d.n <;> rfl
@[simp] theorem Thread.putPair_fail (th : Thread) (d : Dest) (v : Pair) (p : Bool) : (th.putPair d v p).fail = th.fail := by
  unfold Thread.putPair; cases d.n <;> rfl
@[simp] theorem Thread.raise_fail (th : Thread) (x : FlagSet) : (th.raise x).fail = th.fail := rfl
@[simp] theorem Thread.clearWindow_fail (th : Thread) : th.clearWindow.fail = th.fail := rfl
@[simp] theorem Thread.push_failToken (th : Thread) (l : Latch) : (th.push l).failToken = th.failToken := rfl
@[simp] theorem Thread.writeReg_failToken (th : Thread) (n : Nat) (v : Word) (p : Bool) : (th.writeReg n v p).failToken = th.failToken := rfl
@[simp] theorem Thread.put32_failToken (th : Thread) (d : Dest) (v : Word) (p : Bool) : (th.put32 d v p).failToken = th.failToken := by
  unfold Thread.put32; cases d.n <;> rfl
@[simp] theorem Thread.putPair_failToken (th : Thread) (d : Dest) (v : Pair) (p : Bool) : (th.putPair d v p).failToken = th.failToken := by
  unfold Thread.putPair; cases d.n <;> rfl
@[simp] theorem Thread.raise_failToken (th : Thread) (x : FlagSet) : (th.raise x).failToken = th.failToken := rfl
@[simp] theorem Thread.clearWindow_failToken (th : Thread) : th.clearWindow.failToken = th.failToken := rfl
@[simp] theorem Thread.push_failCode (th : Thread) (l : Latch) : (th.push l).failCode = th.failCode := rfl
@[simp] theorem Thread.writeReg_failCode (th : Thread) (n : Nat) (v : Word) (p : Bool) : (th.writeReg n v p).failCode = th.failCode := rfl
@[simp] theorem Thread.put32_failCode (th : Thread) (d : Dest) (v : Word) (p : Bool) : (th.put32 d v p).failCode = th.failCode := by
  unfold Thread.put32; cases d.n <;> rfl
@[simp] theorem Thread.putPair_failCode (th : Thread) (d : Dest) (v : Pair) (p : Bool) : (th.putPair d v p).failCode = th.failCode := by
  unfold Thread.putPair; cases d.n <;> rfl
@[simp] theorem Thread.raise_failCode (th : Thread) (x : FlagSet) : (th.raise x).failCode = th.failCode := rfl
@[simp] theorem Thread.clearWindow_failCode (th : Thread) : th.clearWindow.failCode = th.failCode := rfl
@[simp] theorem Thread.push_mv (th : Thread) (l : Latch) : (th.push l).mv = th.mv := rfl
@[simp] theorem Thread.writeReg_mv (th : Thread) (n : Nat) (v : Word) (p : Bool) : (th.writeReg n v p).mv = th.mv := rfl
@[simp] theorem Thread.put32_mv (th : Thread) (d : Dest) (v : Word) (p : Bool) : (th.put32 d v p).mv = th.mv := by
  unfold Thread.put32; cases d.n <;> rfl
@[simp] theorem Thread.putPair_mv (th : Thread) (d : Dest) (v : Pair) (p : Bool) : (th.putPair d v p).mv = th.mv := by
  unfold Thread.putPair; cases d.n <;> rfl
@[simp] theorem Thread.raise_mv (th : Thread) (x : FlagSet) : (th.raise x).mv = th.mv := rfl
@[simp] theorem Thread.clearWindow_mv (th : Thread) : th.clearWindow.mv = th.mv := rfl
@[simp] theorem Thread.push_arrive (th : Thread) (l : Latch) : (th.push l).arrive = th.arrive := rfl
@[simp] theorem Thread.writeReg_arrive (th : Thread) (n : Nat) (v : Word) (p : Bool) : (th.writeReg n v p).arrive = th.arrive := rfl
@[simp] theorem Thread.put32_arrive (th : Thread) (d : Dest) (v : Word) (p : Bool) : (th.put32 d v p).arrive = th.arrive := by
  unfold Thread.put32; cases d.n <;> rfl
@[simp] theorem Thread.putPair_arrive (th : Thread) (d : Dest) (v : Pair) (p : Bool) : (th.putPair d v p).arrive = th.arrive := by
  unfold Thread.putPair; cases d.n <;> rfl
@[simp] theorem Thread.raise_arrive (th : Thread) (x : FlagSet) : (th.raise x).arrive = th.arrive := rfl
@[simp] theorem Thread.clearWindow_arrive (th : Thread) : th.clearWindow.arrive = th.arrive := rfl
@[simp] theorem Thread.push_seen (th : Thread) (l : Latch) : (th.push l).seen = th.seen := rfl
@[simp] theorem Thread.writeReg_seen (th : Thread) (n : Nat) (v : Word) (p : Bool) : (th.writeReg n v p).seen = th.seen := rfl
@[simp] theorem Thread.put32_seen (th : Thread) (d : Dest) (v : Word) (p : Bool) : (th.put32 d v p).seen = th.seen := by
  unfold Thread.put32; cases d.n <;> rfl
@[simp] theorem Thread.putPair_seen (th : Thread) (d : Dest) (v : Pair) (p : Bool) : (th.putPair d v p).seen = th.seen := by
  unfold Thread.putPair; cases d.n <;> rfl
@[simp] theorem Thread.raise_seen (th : Thread) (x : FlagSet) : (th.raise x).seen = th.seen := rfl
@[simp] theorem Thread.clearWindow_seen (th : Thread) : th.clearWindow.seen = th.seen := rfl
@[simp] theorem Thread.push_barLvl (th : Thread) (l : Latch) : (th.push l).barLvl = th.barLvl := rfl
@[simp] theorem Thread.writeReg_barLvl (th : Thread) (n : Nat) (v : Word) (p : Bool) : (th.writeReg n v p).barLvl = th.barLvl := rfl
@[simp] theorem Thread.put32_barLvl (th : Thread) (d : Dest) (v : Word) (p : Bool) : (th.put32 d v p).barLvl = th.barLvl := by
  unfold Thread.put32; cases d.n <;> rfl
@[simp] theorem Thread.putPair_barLvl (th : Thread) (d : Dest) (v : Pair) (p : Bool) : (th.putPair d v p).barLvl = th.barLvl := by
  unfold Thread.putPair; cases d.n <;> rfl
@[simp] theorem Thread.raise_barLvl (th : Thread) (x : FlagSet) : (th.raise x).barLvl = th.barLvl := rfl
@[simp] theorem Thread.clearWindow_barLvl (th : Thread) : th.clearWindow.barLvl = th.barLvl := rfl
@[simp] theorem Thread.push_rearm (th : Thread) (l : Latch) : (th.push l).rearm = th.rearm := rfl
@[simp] theorem Thread.writeReg_rearm (th : Thread) (n : Nat) (v : Word) (p : Bool) : (th.writeReg n v p).rearm = th.rearm := rfl
@[simp] theorem Thread.put32_rearm (th : Thread) (d : Dest) (v : Word) (p : Bool) : (th.put32 d v p).rearm = th.rearm := by
  unfold Thread.put32; cases d.n <;> rfl
@[simp] theorem Thread.putPair_rearm (th : Thread) (d : Dest) (v : Pair) (p : Bool) : (th.putPair d v p).rearm = th.rearm := by
  unfold Thread.putPair; cases d.n <;> rfl
@[simp] theorem Thread.raise_rearm (th : Thread) (x : FlagSet) : (th.raise x).rearm = th.rearm := rfl
@[simp] theorem Thread.clearWindow_rearm (th : Thread) : th.clearWindow.rearm = th.rearm := rfl
@[simp] theorem Thread.push_rearrive (th : Thread) (l : Latch) : (th.push l).rearrive = th.rearrive := rfl
@[simp] theorem Thread.writeReg_rearrive (th : Thread) (n : Nat) (v : Word) (p : Bool) : (th.writeReg n v p).rearrive = th.rearrive := rfl
@[simp] theorem Thread.put32_rearrive (th : Thread) (d : Dest) (v : Word) (p : Bool) : (th.put32 d v p).rearrive = th.rearrive := by
  unfold Thread.put32; cases d.n <;> rfl
@[simp] theorem Thread.putPair_rearrive (th : Thread) (d : Dest) (v : Pair) (p : Bool) : (th.putPair d v p).rearrive = th.rearrive := by
  unfold Thread.putPair; cases d.n <;> rfl
@[simp] theorem Thread.raise_rearrive (th : Thread) (x : FlagSet) : (th.raise x).rearrive = th.rearrive := rfl
@[simp] theorem Thread.clearWindow_rearrive (th : Thread) : th.clearWindow.rearrive = th.rearrive := rfl
@[simp] theorem Thread.push_rearmed (th : Thread) (l : Latch) : (th.push l).rearmed = th.rearmed := rfl
@[simp] theorem Thread.writeReg_rearmed (th : Thread) (n : Nat) (v : Word) (p : Bool) : (th.writeReg n v p).rearmed = th.rearmed := rfl
@[simp] theorem Thread.put32_rearmed (th : Thread) (d : Dest) (v : Word) (p : Bool) : (th.put32 d v p).rearmed = th.rearmed := by
  unfold Thread.put32; cases d.n <;> rfl
@[simp] theorem Thread.putPair_rearmed (th : Thread) (d : Dest) (v : Pair) (p : Bool) : (th.putPair d v p).rearmed = th.rearmed := by
  unfold Thread.putPair; cases d.n <;> rfl
@[simp] theorem Thread.raise_rearmed (th : Thread) (x : FlagSet) : (th.raise x).rearmed = th.rearmed := rfl
@[simp] theorem Thread.clearWindow_rearmed (th : Thread) : th.clearWindow.rearmed = th.rearmed := rfl

end Sys2Proof.Machine
end

