-- ==== Sys2Proof/Laws/Issue.lean ====
section
/-! SUPPORT. What running an instruction for an agent does, said once: a user thread, the management core, a supervisor
group every lane of which completes, and the taking of an exception. -/

set_option Elab.async false

namespace Sys2Proof.Laws
open Sys2Proof.Machine Sys2Proof.Claims

/-- A core after one is replaced. -/
@[simp] theorem core_setCore (s : State) (c c' : Nat) (k : Core) : (s.setCore c k).core c' = if c' = c then k else s.core c' := by
  simp [State.setCore, State.core]

/-- A core after one is changed. -/
@[simp] theorem core_modCore (s : State) (c c' : Nat) (f : Core → Core) : (s.modCore c f).core c' = if c' = c then f (s.core c) else s.core c' := by
  simp [State.modCore]

/-- A thread of a core after one is replaced. -/
@[simp] theorem thread_setThread (k : Core) (t t' : Nat) (th : Thread) : (k.setThread t th).thread t' = if t' = t then th else k.thread t' := by
  simp [Core.setThread, Core.thread]

/-- An instruction present on every core, of level U, on a user thread or the management core, ends as its meaning for the hart says. -/
theorem issue_single (s : State) (h : Hart) (i : Instr) (l : Hart → State → Res) (ht : Turn s h) :
   issue 0 .all i l s = .next (finish h s (s.pc h) (s.pc h + BitVec.ofNat 64 i.len) (l h s)) := by
  obtain ⟨hc, hs⟩ := ht
  cases h with
  | user c t => simp [issue, issueState, gate, Presence.on, hc, Hart.agent, Agent.level]
  | sup c l => exact absurd rfl (hs c l)
  | mgmt => simp [issue, issueState, gate, Presence.on, hc, Hart.agent, Agent.level, State.pc, State.thread]

/-- An instruction of level U present on compute cores, on a user thread. -/
theorem issue_user (s : State) (c t : Nat) (p : Presence) (i : Instr) (l : Hart → State → Res) (ht : UserTurn s c t) (hp : p ≠ .mgmt) :
   issue 0 p i l s = .next (finish (.user c t) s (s.pc (.user c t)) (s.pc (.user c t) + BitVec.ofNat 64 i.len) (l (.user c t) s)) := by
  cases p <;> simp_all [issue, issueState, gate, Presence.on, UserTurn, Agent.level]

/-- An instruction present on the management core, there. -/
theorem issue_management (s : State) (n : Nat) (hn : n ≤ 2) (p : Presence) (i : Instr) (l : Hart → State → Res) (ht : MgmtTurn s) (hp : p ≠ .compute) :
   issue n p i l s = .next (finish .mgmt s s.mgmt.thread.pc (s.mgmt.thread.pc + BitVec.ofNat 64 i.len) (l .mgmt s)) := by
  have : (2 < n) = False := by simp; omega
  simp only [MgmtTurn] at ht
  cases p <;> simp at hp <;> simp [issue, issueState, gate, Presence.on, ht, Agent.level, this]

/-- The lanes of a group each of which completes. -/
theorem group_fold (lane : Hart → State → Res) (eff : Hart → State → State) (c : Nat) (pc npc : BitVec 64) (s : State) (n : Nat)
    (hl : ∀ l < n, lane (.sup c l) (lanesState eff c s l) = .ok (eff (.sup c l) (lanesState eff c s l))) :
    (List.range n).foldl (groupLane lane c pc npc) { s, pcs := [], trap := none, ended := [], stalled := false } =
      { s := lanesState eff c s n, pcs := List.replicate n npc, trap := none, ended := List.range n, stalled := false } := by
  induction n with
  | zero => simp [lanesState]
  | succ n ih =>
    rw [List.range_succ, List.foldl_append, ih (fun l h => hl l (by omega))]
    simp only [List.foldl_cons, List.foldl_nil, groupLane, hl n (by omega)]
    simp [lanesState, List.range_succ, List.replicate_succ']

/-- A supervisor group every lane of which completes goes on with the effect of each lane, one after the other. -/
theorem issue_group (s : State) (c lvl : Nat) (p : Presence) (i : Instr) (lane : Hart → State → Res) (eff : Hart → State → State)
    (ht : GroupTurn s c) (hlv : lvl ≤ 1) (hp : p ≠ .mgmt)
    (hl : ∀ l < 64, lane (.sup c l) (lanesState eff c s l) = .ok (eff (.sup c l) (lanesState eff c s l))) :
    issue lvl p i lane s = .next (groupDone c i s (lanesState eff c s 64)) := by
  obtain ⟨hc, hd⟩ := ht
  have : (1 < lvl) = False := by simp; omega
  have hg : gate lvl p (.sup c) = none := by cases p <;> simp at hp <;> simp [gate, Presence.on, Agent.level, this]
  have hall : (s.core c).lanesLeft = List.range 64 := by
    simp [Core.lanesLeft, hd, allLanes]
  simp only [issue, issueState, hc, hg, issueGroup, hall]
  rw [group_fold lane eff c _ _ s 64 hl]
  simp only [hd, List.map_nil, List.append_nil, List.any_nil, Bool.or_false, Bool.false_eq_true, if_false]
  have : groupPc (lanesState eff c s 64) (List.replicate 64 ((s.core c).supPc + BitVec.ofNat 64 i.len)) ((s.core c).supPc + BitVec.ofNat 64 i.len) = ((s.core c).supPc + BitVec.ofNat 64 i.len, lanesState eff c s 64) := by
    simp [groupPc, List.replicate_succ]
  simp only [this, groupDone]

/-- Waking the supervisor group leaves the user threads. -/
theorem wakeSup_thread (k : Core) (t : Nat) (ht : t < 960) : (k.wakeSup).thread t = k.thread t := by
  have : ∀ (ls : List Nat) (k : Core), (ls.foldl (fun k l => k.modThread (supKey l) (fun th => { th with run := .ready })) k).thread t = k.thread t := by
    intro ls; induction ls with
    | nil => simp
    | cons a ls ih =>
      intro k; simp only [List.foldl_cons]; rw [ih]; simp [Core.modThread, supKey]; omega
  unfold Core.wakeSup; split
  · exact this _ _
  · rfl

/-- Waking the supervisor group leaves TRQ. -/
theorem wakeSup_trq (k : Core) : (k.wakeSup).trq = k.trq := by
  have : ∀ (ls : List Nat) (k : Core), (ls.foldl (fun k l => k.modThread (supKey l) (fun th => { th with run := .ready })) k).trq = k.trq := by
    intro ls; induction ls with
    | nil => simp
    | cons a ls ih =>
      intro k; simp only [List.foldl_cons]; rw [ih]; rfl
  unfold Core.wakeSup; split
  · exact this _ _
  · rfl

/-- Waking the supervisor group leaves the mailbox. -/
theorem wakeSup_mbox (k : Core) : (k.wakeSup).mbox = k.mbox := by
  have : ∀ (ls : List Nat) (k : Core), (ls.foldl (fun k l => k.modThread (supKey l) (fun th => { th with run := .ready })) k).mbox = k.mbox := by
    intro ls; induction ls with
    | nil => simp
    | cons a ls ih =>
      intro k; simp only [List.foldl_cons]; rw [ih]; rfl
  unfold Core.wakeSup; split
  · exact this _ _
  · rfl

/-- Waking the supervisor group leaves every field of its core but the threads. -/
theorem wakeSup_rest (k : Core) : { k.wakeSup with threads := [] } = { k with threads := [] } := by
  have : ∀ (ls : List Nat) (k : Core), ({ ls.foldl (fun k l => k.modThread (supKey l) (fun th => { th with run := .ready })) k with
      threads := [] } : Core) = { k with threads := [] } := by
    intro ls
    induction ls with
    | nil => intro k; rfl
    | cons a ls ih => intro k; simp only [List.foldl_cons]; rw [ih]; rfl
  unfold Core.wakeSup
  split
  · exact this _ _
  · rfl

/-- A supervisor group parked at its EXIT is Ready after the wake, in every lane; any other is as it was. -/
theorem wakeSup_lane (k : Core) (l : Nat) (hl : l < 64) :
    k.wakeSup.thread (supKey l) = { k.thread (supKey l) with run := if k.supIdle = true then .ready else (k.thread (supKey l)).run } := by
  have key : ∀ (ls : List Nat) (k : Core), (ls.foldl (fun k l => k.modThread (supKey l) (fun th => { th with run := .ready })) k).thread
      (supKey l) = if l ∈ ls then { k.thread (supKey l) with run := .ready } else k.thread (supKey l) := by
    intro ls
    induction ls with
    | nil => intro k; rfl
    | cons a ls ih =>
      intro k
      have own : supKey l = supKey a ↔ l = a := by simp only [supKey]; omega
      have step : (k.modThread (supKey a) (fun th => { th with run := .ready })).thread (supKey l) =
          if l = a then { k.thread (supKey l) with run := .ready } else k.thread (supKey l) := by
        unfold Core.modThread
        rw [thread_setThread]
        by_cases e : l = a
        · subst e; simp
        · simp [e, own]
      rw [List.foldl_cons, ih, step]
      by_cases e : l = a <;> by_cases m : l ∈ ls <;> simp [e, m]
  unfold Core.wakeSup
  split
  · rw [key]; simp [allLanes, hl]
  · rfl

/-- Trap entry of a user thread does what R46 says, and nothing else. -/
theorem trapUser_entered (s : State) (c t : Nat) (ht : t < 960) (cause v epc) : TrapEntered s (s.trapUser c t cause v epc) c t cause v epc := by
  have lane (l : Nat) : supKey l ≠ t := by simp only [supKey]; omega
  refine ⟨?_, ?_, ?_, ?_, ?_, ?_, rfl, rfl, rfl, rfl, rfl, rfl, rfl, rfl, rfl⟩
  · simp only [State.trapUser, State.thread, core_modCore]
    simp [wakeSup_thread _ _ ht]
    simp [Core.thread, Core.modThread, Core.setThread, Core.enqueue, Thread.enterTrap, Thread.clearWindow]
  · simp [State.trapUser, wakeSup_trq, Core.enqueue, Core.modThread, Core.setThread]
  · intro l hl
    simp only [State.trapUser, State.thread, core_modCore, if_true, wakeSup_lane _ _ hl]
    have e (th : Thread) : (((s.core c).setThread t th).enqueue t).thread (supKey l) = (s.core c).thread (supKey l) := by
      simp [Core.thread, Core.setThread, Core.enqueue, lane l]
    have i (th : Thread) : (((s.core c).setThread t th).enqueue t).supIdle = (s.core c).supIdle := by
      simp [Core.supIdle, Core.thread, Core.setThread, Core.enqueue, lane 0]
    simp only [Core.modThread, e, i]
  · intro t' ht' hne
    simp only [State.trapUser, State.thread, core_modCore, if_true, wakeSup_thread _ _ ht']
    simp [Core.thread, Core.modThread, Core.setThread, Core.enqueue, hne]
  · simp only [State.trapUser, core_modCore, if_true]
    have e := congrArg (fun k : Core => { k with trq := [] })
      (wakeSup_rest (((s.core c).modThread t (fun th => { th.enterTrap cause v epc with run := .trapped })).enqueue t))
    exact e
  · intro c' hc
    simp [State.trapUser, hc]

/-- An instruction present everywhere completes where its meaning for the hart does. -/
theorem single_completes (i : Instr) (l : Hart → State → Res) (ok eff) (he : ∀ s, exec i s = issue 0 .all i l s) (hl : ∀ h s, ok h s → l h s = .ok (eff h s)) : SingleCompletes i ok eff := by
  intro s h ht ho
  rw [he, issue_single s h i l ht, hl h s ho]; rfl

/-- A supervisor group completes an instruction where each lane does. -/
theorem group_completes (i : Instr) (l : Hart → State → Res) (lvl p ok eff) (hlv : lvl ≤ 1) (hp : p ≠ .mgmt) (he : ∀ s, exec i s = issue lvl p i l s) (hl : ∀ c k s, ok (.sup c k) s → l (.sup c k) s = .ok (eff (.sup c k) s)) : GroupCompletes i ok eff := by
  intro s c ht ho
  rw [he]; exact issue_group s c lvl p i l eff ht hlv hp (fun k hk => hl _ _ _ (ho k hk))

/-- The management core completes an instruction where its meaning for the hart does. -/
theorem management_completes (i : Instr) (l : Hart → State → Res) (lvl p ok eff) (hlv : lvl ≤ 2) (hp : p ≠ .compute) (he : ∀ s, exec i s = issue lvl p i l s) (hl : ∀ s, ok s → l .mgmt s = .ok (eff s)) : MgmtCompletes i ok eff := by
  intro s ht ho
  rw [he, issue_management s lvl hlv p i l ht hp, hl s ho]; rfl

end Sys2Proof.Laws
end

