-- ==== Sys2Proof/Laws/Memory.lean ====
section
/-! SUPPORT. The laws of device memory: the operations that write it keep its canonical form, and a write at a home slice
changes the granules it touches and no other. -/

set_option Elab.async false

namespace Sys2Proof.Machine

/-- What keeps memory's form along a list of writes. -/
theorem State.fold_wf {α : Type} (f : State → α → State) (hf : ∀ s a, Memory.wf s.mem = true → Memory.wf (f s a).mem = true)
    (l : List α) : ∀ s : State, Memory.wf s.mem = true → Memory.wf (l.foldl f s).mem = true := by
  induction l with
  | nil => intro s h; exact h
  | cons a l ih => intro s h; exact ih _ (hf s a h)

/-- Writing the bytes of an entry keeps a byte memory in canonical form. -/
theorem Memory.wf_pokeMasked (bs : List (Nat × Byte × Byte)) : ∀ m : List Host.Cell, Memory.wf m = true →
    Memory.wf (pokeMasked m bs) = true := by
  induction bs with
  | nil => intro m h; exact h
  | cons b bs ih => intro m h; exact ih _ (Memory.wf_poke m _ _ h)

/-- Taking sixteen free bytes leaves memory. -/
@[simp] theorem State.freeBytes16_mem (s : State) : (s.freeBytes16).2.mem = s.mem := rfl

/-- Reading a granule at its home slice leaves memory. -/
@[simp] theorem State.homeGranule_mem (s : State) (key g : Nat) : (s.homeGranule key g).2.2.mem = s.mem := by
  unfold State.homeGranule; split
  · rfl
  · split <;> rfl

@[simp] theorem State.observeVerdict_mem (s : State) (g : Nat) (bs : List (Nat × Byte × Byte)) (new : List Byte) :
    (s.observeVerdict g bs new).mem = s.mem := by
  unfold State.observeVerdict; split
  · split <;> rfl
  · rfl

/-- The scheduler's observation of a claim leaves memory. -/
@[simp] theorem State.observeClaim_mem (s : State) (g : Nat) (old new : List Byte) (o : Origin) :
    (s.observeClaim g old new o).mem = s.mem := by
  unfold State.observeClaim; dsimp only; split
  · split
    · rfl
    · split
      · split <;> rfl
      · rfl
      · rfl
  · rfl

/-- Nor does a message that is to be tried again touch it. -/
@[simp] theorem State.observeIridx_mem (s : State) (g : Nat) (bs : List (Nat × Byte × Byte)) : (s.observeIridx g bs).mem = s.mem := by
  unfold State.observeIridx; dsimp only; split <;> rfl

/-- A place in a granule's order leaves memory. -/
@[simp] theorem State.placeWrite_mem (s : State) (g : Nat) (o : Origin) : (s.placeWrite g o).mem = s.mem := rfl

/-- The capacity tier's writes leave memory. -/
@[simp] theorem State.cxlWrites_mem (s : State) (bs : List (Nat × Byte × Byte)) (p : Bool) : (s.cxlWrites bs p).mem = s.mem := by
  unfold State.cxlWrites
  generalize cxlLines bs = l
  induction l generalizing s with
  | nil => rfl
  | cons a l ih => rw [List.foldl_cons, ih]; rfl

/-- A write at a home slice stores the sixteen bytes of its granule, or nothing. -/
theorem State.homeWriteGranule_mem (s : State) (key g : Nat) (bs : List (Nat × Byte × Byte)) (p : Bool) (o : Origin) :
    (s.homeWriteGranule key g bs p o).mem = s.mem ∨
    ∃ new, new.length = 16 ∧ (s.homeWriteGranule key g bs p o).mem = pokes s.mem (16 * g) new := by
  unfold State.homeWriteGranule
  split
  · left; split <;> rfl
  · split
    · left; rfl
    · right
      dsimp only
      split
      · simp only [State.observeIridx_mem, State.observeClaim_mem, State.observeVerdict_mem, State.placeWrite_mem]
        refine ⟨_, ?_, rfl⟩
        rw [List.length_map, List.length_range]
      · simp only [State.observeIridx_mem, State.observeClaim_mem, State.observeVerdict_mem, State.placeWrite_mem, State.homeGranule_mem]
        refine ⟨_, ?_, rfl⟩
        rw [List.length_map, List.length_range]

theorem State.homeWriteGranule_wf (s : State) (key g : Nat) (bs : List (Nat × Byte × Byte)) (p : Bool) (o : Origin)
    (h : Memory.wf s.mem = true) : Memory.wf (s.homeWriteGranule key g bs p o).mem = true := by
  rcases s.homeWriteGranule_mem key g bs p o with e | ⟨new, -, e⟩
  · rw [e]; exact h
  · rw [e]; exact Memory.wf_pokes _ _ _ h

/-- A byte outside the granule is as it was. -/
theorem State.homeWriteGranule_frame (s : State) (key g a : Nat) (bs : List (Nat × Byte × Byte)) (p : Bool) (o : Origin) (ha : a / 16 ≠ g) :
    peek (s.homeWriteGranule key g bs p o).mem a = peek s.mem a := by
  rcases s.homeWriteGranule_mem key g bs p o with e | ⟨new, hn, e⟩
  · rw [e]
  · rw [e, peek_pokes_ne _ _ _ _ (by omega)]

/-- A write at the home slices keeps memory's canonical form. -/
theorem State.putHome_wf (s : State) (key : Nat) (bs : List (Nat × Byte × Byte)) (p : Bool) (o : Origin)
    (h : Memory.wf s.mem = true) : Memory.wf (s.putHome key bs p o).mem = true :=
  State.fold_wf _ (fun s g hs => s.homeWriteGranule_wf key g bs p o hs) _ s h

theorem State.putHome_fold_frame (key a : Nat) (bs : List (Nat × Byte × Byte)) (p : Bool) (o : Origin) (gs : List Nat) :
    ∀ s : State, a / 16 ∉ gs → peek (gs.foldl (fun s g => s.homeWriteGranule key g bs p o) s).mem a = peek s.mem a := by
  induction gs with
  | nil => intro s _; rfl
  | cons g gs ih =>
    intro s h
    simp only [List.mem_cons, not_or] at h
    rw [List.foldl_cons, ih _ h.2, s.homeWriteGranule_frame key g a bs p o h.1]

/-- A write at the home slices leaves every byte of a granule it does not touch. -/
theorem State.putHome_frame (s : State) (key a : Nat) (bs : List (Nat × Byte × Byte)) (p : Bool) (o : Origin)
    (h : a / 16 ∉ entGranules bs) : peek (s.putHome key bs p o).mem a = peek s.mem a :=
  State.putHome_fold_frame key a bs p o _ s h

/-! ## Requests change no memory -/

@[simp] theorem State.postRequest_mem (s : State) (c : Nat) (r : Nat × Nat) (w : Bool) (m : List Nat) : (s.postRequest c r w m).mem = s.mem := by
  unfold State.postRequest; dsimp only; split <;> rfl

@[simp] theorem State.sendWrite_mem (s : State) (c : Nat) (r : Nat × Nat) (bs : List (Nat × Byte × Bool)) : (s.sendWrite c r bs).mem = s.mem := by
  simp [State.sendWrite]

@[simp] theorem State.flushStores_mem (s : State) (c : Nat) : (s.flushStores c).mem = s.mem := by
  have e (l : List (Nat × Nat)) (bs : List (Nat × Byte × Bool)) (t : State) : (l.foldl (fun s r => s.sendWrite c r bs) t).mem = t.mem := by
    induction l generalizing t with
    | nil => rfl
    | cons a l ih => rw [List.foldl_cons, ih, State.sendWrite_mem]
  unfold State.flushStores; dsimp only; split
  · rfl
  · rw [e]; rfl

@[simp] theorem State.l2Take_mem (s : State) (g : Nat) : (s.l2Take g).mem = s.mem := by
  unfold State.l2Take; dsimp only; split
  · rfl
  · split <;> rfl

@[simp] theorem State.l2Fill_mem (s : State) (pa n : Nat) : (s.l2Fill pa n).mem = s.mem := by
  unfold State.l2Fill
  generalize granules pa n = l
  induction l generalizing s with
  | nil => rfl
  | cons a l ih => rw [List.foldl_cons, ih, State.l2Take_mem]

@[simp] theorem State.l2Misses_mem (s : State) (pa n : Nat) : (s.l2Misses pa n).2.mem = s.mem := by
  unfold State.l2Misses; split <;> rfl

theorem State.fetchBurst_mem (s t : State) (r : Burst) (h : s.fetchBurst r = some t) : t.mem = s.mem := by
  unfold State.fetchBurst at h; dsimp only at h; split at h
  · cases h; simp
  · split at h
    · cases h
    · cases h; simp [State.setSub]

/-- Serving a request that waits changes no memory. -/
theorem State.serveOne?_mem (s t : State) (r : Burst) (h : s.serveOne? r = some t) : t.mem = s.mem := by
  unfold State.serveOne? at h; dsimp only at h; split at h
  · cases h; rfl
  · split at h
    · cases h; simp
    · split at h
      · cases h; simp [State.setSub]
      · rw [State.fetchBurst_mem _ _ _ h]; simp

theorem State.serveBurst?_mem (s t : State) (r : Burst) (h : s.serveBurst? r = some t) : t.mem = s.mem := by
  have e (l : List Burst) (u : State) : (l.foldl (fun s w => (s.serveOne? w).getD s) u).mem = u.mem := by
    induction l generalizing u with
    | nil => rfl
    | cons a l ih =>
      rw [List.foldl_cons, ih]
      cases hu : u.serveOne? a with
      | none => rfl
      | some v => exact u.serveOne?_mem v a hu
  exact (State.serveOne?_mem _ _ _ h).trans (e _ _)

@[simp] theorem State.answerOldest_mem (s : State) (r : Burst) : (s.answerOldest r).mem = s.mem := by
  unfold State.answerOldest
  cases h : s.serveBurst? r with
  | some t => exact s.serveBurst?_mem t r h
  | none =>
    dsimp only
    generalize hu : s.setSub (subChannel r.pa) (s.sub (subChannel r.pa)).retire = u
    have hm : u.mem = s.mem := by rw [← hu]; rfl
    cases h : u.serveBurst? r with
    | some t => exact (u.serveBurst?_mem t r h).trans hm
    | none => rfl

@[simp] theorem State.setOrder_mem (s : State) (h : Hart) (o : List StoreEnt) : (s.setOrder h o).mem = s.mem := by
  cases h <;> rfl

@[simp] theorem State.flushOf_mem (s : State) (h : Hart) : (s.flushOf h).mem = s.mem := by
  unfold State.flushOf; cases h.core? <;> simp

/-! ## Stores that leave their queues keep memory's form -/

theorem State.goHomeNow_wf (s : State) (h : Hart) (i : Nat) (hm : Memory.wf s.mem = true) : Memory.wf (s.goHomeNow h i).mem = true := by
  unfold State.goHomeNow
  split
  · exact hm
  · split
    · dsimp only
      split
      · refine State.putHome_wf _ _ _ _ _ ?_
        split <;> simpa using hm
      · simpa using hm
      · simpa using hm
    · exact hm

theorem State.makeRoom_wf (s : State) (h : Hart) (hm : Memory.wf s.mem = true) : Memory.wf (s.makeRoom h).mem = true := by
  unfold State.makeRoom
  split
  · exact hm
  · split
    · simpa using hm
    · exact s.goHomeNow_wf h 0 hm

theorem State.enterNow_wf (s : State) (h : Hart) (e : StoreEnt) (hm : Memory.wf s.mem = true) : Memory.wf (s.enterNow h e).mem = true := by
  have room : Memory.wf (if e.space = .global then s.makeRoom h else s).mem = true := by
    split
    · exact s.makeRoom_wf h hm
    · exact hm
  unfold State.enterNow
  split
  · exact hm
  · exact hm
  · unfold State.joinNow
    dsimp only
    cases h.core? <;> exact room

theorem State.leaveNow_wf (s : State) (h : Hart) (hm : Memory.wf s.mem = true) : Memory.wf (s.leaveNow h).mem = true := by
  unfold State.leaveNow
  split
  · exact hm
  · exact State.enterNow_wf _ _ _ (by simpa using hm)

theorem State.homeFirst_wf (s : State) (h : Hart) (p : StoreEnt → Bool) (hm : Memory.wf s.mem = true) :
    Memory.wf (s.homeFirst h p).mem = true := by
  unfold State.homeFirst
  split
  · exact hm
  · split
    · exact s.goHomeNow_wf _ _ hm
    · exact State.fold_wf (fun s _ => s.goHomeNow h 0) (fun s _ hs => s.goHomeNow_wf h 0 hs) _ s hm

theorem State.settleHold_wf (s : State) (p : ReadHold × Bool) (hm : Memory.wf s.mem = true) : Memory.wf (s.settleHold p).mem = true := by
  have q (n : Nat) := State.fold_wf (fun s _ => s.leaveNow p.1.h) (fun s _ hs => s.leaveNow_wf p.1.h hs) (List.range n) s hm
  unfold State.settleHold
  dsimp only
  split
  · exact State.fold_wf (fun s _ => s.homeFirst p.1.h p.1.inOrder) (fun s _ hs => s.homeFirst_wf _ _ hs) _ _ (q _)
  · exact q _

/-- The stores that must come before a write keep memory's form. -/
theorem State.settle_wf (s : State) (ws : List Coming) (hm : Memory.wf s.mem = true) : Memory.wf (s.settle ws).mem = true := by
  unfold State.settle
  split
  · exact State.fold_wf State.settleHold (fun s p hs => s.settleHold_wf p hs) _ s hm
  · exact hm

/-- Where no load holds stores before a write, none has to come first. -/
theorem State.settle_none (s : State) (ws : List Coming) (h : ∀ w ∈ ws, s.meetsHold w = false) : s.settle ws = s := by
  unfold State.settle
  rw [if_neg]
  simp only [List.any_eq_true, not_exists, not_and, Bool.not_eq_true]
  exact h

@[simp] theorem State.settle_noHolds (s : State) (ws : List Coming) (h : s.holds = []) : s.settle ws = s :=
  s.settle_none ws (fun w _ => by simp [State.meetsHold, h])

/-! ## Writes of every agent and unit -/

/-- A write to device memory keeps its canonical form. -/
theorem State.homeWrite_wf (s : State) (key : Nat) (bs : List (Nat × Byte × Byte)) (p : Bool) (o : Origin)
    (h : Memory.wf s.mem = true) : Memory.wf (s.homeWrite key bs p o).mem = true :=
  State.putHome_wf _ _ _ _ _ (s.settle_wf _ h)

/-- A write to device memory before which no store has to come leaves every byte of a granule it does not touch. -/
theorem State.homeWrite_frame (s : State) (key a : Nat) (bs : List (Nat × Byte × Byte)) (p : Bool) (o : Origin)
    (hs : s.holds = []) (h : a / 16 ∉ entGranules bs) : peek (s.homeWrite key bs p o).mem a = peek s.mem a := by
  unfold State.homeWrite
  rw [s.settle_noHolds _ hs, s.putHome_frame key a bs p o h]

theorem State.homeAccess_wf (s : State) (key : Nat) (bs : List (Nat × Byte × Byte)) (p : Bool) (o : Origin)
    (h : Memory.wf s.mem = true) : Memory.wf (s.homeAccess key bs p o).mem = true :=
  State.homeWrite_wf _ _ _ _ _ (by rw [State.cxlWrites_mem]; exact h)

/-- A unit's write keeps memory's form. -/
theorem State.pokeMem_wf {w : Nat} (s : State) (a n : Nat) (v : BitVec w) (h : Memory.wf s.mem = true) :
    Memory.wf (s.pokeMem a n v).mem = true := by
  unfold State.pokeMem; split
  · exact s.homeAccess_wf _ _ _ _ h
  · exact h

/-- The write of any other unit, and a page moved to another frame, keep it. -/
theorem State.unitWrite_wf (s : State) (key pa : Nat) (bs : List Byte) (o : Origin) (h : Memory.wf s.mem = true) :
    Memory.wf (s.unitWrite key pa bs o).mem = true := by
  unfold State.unitWrite; split
  · exact s.homeAccess_wf _ _ _ _ h
  · exact h

theorem State.moveGranule_wf (s : State) (key src dst : Nat) (h : Memory.wf s.mem = true) :
    Memory.wf (s.moveGranule key src dst).mem = true := by
  unfold State.moveGranule; dsimp only; split
  · rw [State.homeGranule_mem]; exact h
  · exact Memory.wf_pokes _ _ _ (by rw [State.homeGranule_mem]; exact h)

/-- The MemRd requests of a read change no memory. -/
@[simp] theorem State.cxlReads_mem (s : State) (pa n : Nat) : (s.cxlReads pa n).mem = s.mem := by
  unfold State.cxlReads
  split
  · generalize List.range ((pa + n - 1) / 64 - pa / 64 + 1) = l
    induction l generalizing s with
    | nil => rfl
    | cons a l ih => rw [List.foldl_cons, ih]; rfl
  · rfl

/-- Nor does the read of a page's line. -/
theorem State.readLine_mem (s : State) (pa : Nat) : (s.readLine pa).mem = s.mem := by
  unfold State.readLine
  cases if isPeer pa then s.peerWindow? pa else none with
  | none => exact s.cxlReads_mem pa 64
  | some w => rfl

theorem State.moveLine_wf (s : State) (key src dst : Nat) (h : Memory.wf s.mem = true) :
    Memory.wf (s.moveLine key src dst).mem = true := by
  have e : ∀ l : List Nat, Memory.wf (l.foldl (fun s i => s.moveGranule key (src + i) (dst + i)) (s.readLine (16 * src))).mem = true :=
    fun l => State.fold_wf (fun s i => s.moveGranule key (src + i) (dst + i)) (fun s i hs => s.moveGranule_wf key _ _ hs) l _
      (by rw [State.readLine_mem]; exact h)
  unfold State.moveLine
  split
  · exact e _
  · exact e _

theorem State.copyPage_wf (s : State) (key src dst : Nat) (h : Memory.wf s.mem = true) :
    Memory.wf (s.copyPage key src dst).mem = true := by
  unfold State.copyPage
  generalize List.range 1024 = l
  split
  · exact State.fold_wf (fun s i => s.moveLine key (src / 16 + 4 * i) (dst / 16 + 4 * i)) (fun s i hs => s.moveLine_wf key _ _ hs) l s h
  · exact h

/-- An error in device memory keeps its canonical form. -/
theorem State.damageMem_wf (s : State) (g : Nat) (h : Memory.wf s.mem = true) : Memory.wf (s.damageMem g).mem = true :=
  Memory.wf_pokes _ _ _ h

/-- Placing a byte of code keeps it. -/
theorem State.pokePlace_wf (s : State) (h : Hart) (p : Place) (key : Nat) (b : Byte) (hm : Memory.wf s.mem = true) :
    Memory.wf (s.pokePlace h p key b).mem = true := by
  cases p <;> simp only [State.pokePlace]
  · exact Memory.wf_poke _ _ _ hm
  · cases h.core? <;> exact hm
  all_goals exact hm

end Sys2Proof.Machine
end

