-- ==== Sys2Proof/Laws/PerInstr.lean ====
section
/-! SUPPORT. The family Shape: the bytes of every instruction are as many as its length says, an even number of at most
twelve; an event has none. One lemma for each constructor. -/

set_option Elab.async false

namespace Sys2Proof.Laws

theorem bytesOf_length : ∀ (n w : Nat), (bytesOf n w).length = n
  | 0, _ => rfl
  | n + 1, w => by simp [bytesOf, bytesOf_length n]

/-- The bytes of an instruction are as many as its length. -/
def Shape.Statement (i : Instr) : Prop := (encode i).length = i.len ∧ i.len % 2 = 0 ∧ i.len ≤ 12

/-- What the length of an instruction's encoding can be. -/
theorem bits_parcels (i : Instr) (w n : Nat) (h : i.bits = some (w, n)) : n ≤ 6 := by
  unfold Instr.bits at h
  split at h
  · simp at h; omega
  · split at h
    · simp at h; omega
    · split at h
      · split at h <;> simp at h <;> omega
      · simp at h

theorem shape_of_bits (i : Instr) : Shape.Statement i := by
  unfold Shape.Statement encode Instr.len
  cases h : i.bits with
  | none => simp
  | some p =>
    obtain ⟨w, n⟩ := p
    have := bits_parcels i w n h
    simp [bytesOf_length]; omega

theorem Shape.mov (f : DF) : Shape.Statement (.mov f) := shape_of_bits _
theorem Shape.movC (f : CF) : Shape.Statement (.movC f) := shape_of_bits _
theorem Shape.movW (f : WB) : Shape.Statement (.movW f) := shape_of_bits _
theorem Shape.li (f : DF) (m : IntMod) : Shape.Statement (.li f m) := shape_of_bits _
theorem Shape.add (f : DF) (m : IntMod) : Shape.Statement (.add f m) := shape_of_bits _
theorem Shape.addC (f : CF) : Shape.Statement (.addC f) := shape_of_bits _
theorem Shape.addW (f : WF) : Shape.Statement (.addW f) := shape_of_bits _
theorem Shape.sub (f : DF) (m : IntMod) : Shape.Statement (.sub f m) := shape_of_bits _
theorem Shape.subC (f : CF) : Shape.Statement (.subC f) := shape_of_bits _
theorem Shape.subW (f : WF) : Shape.Statement (.subW f) := shape_of_bits _
theorem Shape.addc (f : DF) : Shape.Statement (.addc f) := shape_of_bits _
theorem Shape.subb (f : DF) : Shape.Statement (.subb f) := shape_of_bits _
theorem Shape.mul (f : DF) : Shape.Statement (.mul f) := shape_of_bits _
theorem Shape.mulC (f : CF) : Shape.Statement (.mulC f) := shape_of_bits _
theorem Shape.mulW (f : WF) : Shape.Statement (.mulW f) := shape_of_bits _
theorem Shape.mulh (f : DF) (m : IntMod) : Shape.Statement (.mulh f m) := shape_of_bits _
theorem Shape.mulhW (f : WF) : Shape.Statement (.mulhW f) := shape_of_bits _
theorem Shape.mulhUW (f : WF) : Shape.Statement (.mulhUW f) := shape_of_bits _
theorem Shape.mad (f : DF) : Shape.Statement (.mad f) := shape_of_bits _
theorem Shape.madw (f : DF) (m : IntMod) : Shape.Statement (.madw f m) := shape_of_bits _
theorem Shape.add64 (f : DF) : Shape.Statement (.add64 f) := shape_of_bits _
theorem Shape.add64W (f : WF) : Shape.Statement (.add64W f) := shape_of_bits _
theorem Shape.sub64 (f : DF) : Shape.Statement (.sub64 f) := shape_of_bits _
theorem Shape.lea (f : DF) (m : IntMod) : Shape.Statement (.lea f m) := shape_of_bits _
theorem Shape.leaW (f : WF) : Shape.Statement (.leaW f) := shape_of_bits _
theorem Shape.min (f : DF) (m : IntMod) : Shape.Statement (.min f m) := shape_of_bits _
theorem Shape.minC (f : CF) : Shape.Statement (.minC f) := shape_of_bits _
theorem Shape.minW (f : WF) : Shape.Statement (.minW f) := shape_of_bits _
theorem Shape.minUW (f : WF) : Shape.Statement (.minUW f) := shape_of_bits _
theorem Shape.max (f : DF) (m : IntMod) : Shape.Statement (.max f m) := shape_of_bits _
theorem Shape.maxC (f : CF) : Shape.Statement (.maxC f) := shape_of_bits _
theorem Shape.maxW (f : WF) : Shape.Statement (.maxW f) := shape_of_bits _
theorem Shape.maxUW (f : WF) : Shape.Statement (.maxUW f) := shape_of_bits _
theorem Shape.abs (f : DF) (m : IntMod) : Shape.Statement (.abs f m) := shape_of_bits _
theorem Shape.absW (f : WB) : Shape.Statement (.absW f) := shape_of_bits _
theorem Shape.neg (f : DF) (m : IntMod) : Shape.Statement (.neg f m) := shape_of_bits _
theorem Shape.negW (f : WB) : Shape.Statement (.negW f) := shape_of_bits _
theorem Shape.cmp (f : DF) (m : IntMod) : Shape.Statement (.cmp f m) := shape_of_bits _
theorem Shape.cmpEqW (f : WF) : Shape.Statement (.cmpEqW f) := shape_of_bits _
theorem Shape.cmpNeW (f : WF) : Shape.Statement (.cmpNeW f) := shape_of_bits _
theorem Shape.cmpLtW (f : WF) : Shape.Statement (.cmpLtW f) := shape_of_bits _
theorem Shape.cmpGeW (f : WF) : Shape.Statement (.cmpGeW f) := shape_of_bits _
theorem Shape.cmpLtUW (f : WF) : Shape.Statement (.cmpLtUW f) := shape_of_bits _
theorem Shape.cmpGeUW (f : WF) : Shape.Statement (.cmpGeUW f) := shape_of_bits _
theorem Shape.sel (f : DF) : Shape.Statement (.sel f) := shape_of_bits _
theorem Shape.and (f : DF) : Shape.Statement (.and f) := shape_of_bits _
theorem Shape.andC (f : CF) : Shape.Statement (.andC f) := shape_of_bits _
theorem Shape.andW (f : WF) : Shape.Statement (.andW f) := shape_of_bits _
theorem Shape.or (f : DF) : Shape.Statement (.or f) := shape_of_bits _
theorem Shape.orC (f : CF) : Shape.Statement (.orC f) := shape_of_bits _
theorem Shape.orW (f : WF) : Shape.Statement (.orW f) := shape_of_bits _
theorem Shape.xor (f : DF) : Shape.Statement (.xor f) := shape_of_bits _
theorem Shape.xorC (f : CF) : Shape.Statement (.xorC f) := shape_of_bits _
theorem Shape.xorW (f : WF) : Shape.Statement (.xorW f) := shape_of_bits _
theorem Shape.andn (f : DF) : Shape.Statement (.andn f) := shape_of_bits _
theorem Shape.andnW (f : WF) : Shape.Statement (.andnW f) := shape_of_bits _
theorem Shape.shl (f : DF) (m : IntMod) : Shape.Statement (.shl f m) := shape_of_bits _
theorem Shape.shlC (f : CF) : Shape.Statement (.shlC f) := shape_of_bits _
theorem Shape.shlW (f : WF) : Shape.Statement (.shlW f) := shape_of_bits _
theorem Shape.shr (f : DF) (m : IntMod) : Shape.Statement (.shr f m) := shape_of_bits _
theorem Shape.shrC (f : CF) : Shape.Statement (.shrC f) := shape_of_bits _
theorem Shape.shrW (f : WF) : Shape.Statement (.shrW f) := shape_of_bits _
theorem Shape.sar (f : DF) (m : IntMod) : Shape.Statement (.sar f m) := shape_of_bits _
theorem Shape.sarC (f : CF) : Shape.Statement (.sarC f) := shape_of_bits _
theorem Shape.sarW (f : WF) : Shape.Statement (.sarW f) := shape_of_bits _
theorem Shape.rot (f : DF) : Shape.Statement (.rot f) := shape_of_bits _
theorem Shape.rotW (f : WF) : Shape.Statement (.rotW f) := shape_of_bits _
theorem Shape.fsh (f : DF) : Shape.Statement (.fsh f) := shape_of_bits _
theorem Shape.bfx (f : DF) (m : IntMod) : Shape.Statement (.bfx f m) := shape_of_bits _
theorem Shape.bfi (f : DF) : Shape.Statement (.bfi f) := shape_of_bits _
theorem Shape.popc (f : DF) : Shape.Statement (.popc f) := shape_of_bits _
theorem Shape.popcW (f : WB) : Shape.Statement (.popcW f) := shape_of_bits _
theorem Shape.clz (f : DF) : Shape.Statement (.clz f) := shape_of_bits _
theorem Shape.clzW (f : WB) : Shape.Statement (.clzW f) := shape_of_bits _
theorem Shape.ctz (f : DF) : Shape.Statement (.ctz f) := shape_of_bits _
theorem Shape.ctzW (f : WB) : Shape.Statement (.ctzW f) := shape_of_bits _
theorem Shape.brev (f : DF) : Shape.Statement (.brev f) := shape_of_bits _
theorem Shape.brevW (f : WB) : Shape.Statement (.brevW f) := shape_of_bits _
theorem Shape.perm (f : DF) : Shape.Statement (.perm f) := shape_of_bits _
theorem Shape.dot4 (f : DF) (m : IntMod) : Shape.Statement (.dot4 f m) := shape_of_bits _
theorem Shape.fadd (f : DF) (m : FMod) : Shape.Statement (.fadd f m) := shape_of_bits _
theorem Shape.faddC (f : CF) : Shape.Statement (.faddC f) := shape_of_bits _
theorem Shape.faddW (f : WF) : Shape.Statement (.faddW f) := shape_of_bits _
theorem Shape.faddBf16x2W (f : WF) : Shape.Statement (.faddBf16x2W f) := shape_of_bits _
theorem Shape.faddF16x2W (f : WF) : Shape.Statement (.faddF16x2W f) := shape_of_bits _
theorem Shape.fsub (f : DF) (m : FMod) : Shape.Statement (.fsub f m) := shape_of_bits _
theorem Shape.fsubC (f : CF) : Shape.Statement (.fsubC f) := shape_of_bits _
theorem Shape.fsubW (f : WF) : Shape.Statement (.fsubW f) := shape_of_bits _
theorem Shape.fmul (f : DF) (m : FMod) : Shape.Statement (.fmul f m) := shape_of_bits _
theorem Shape.fmulC (f : CF) : Shape.Statement (.fmulC f) := shape_of_bits _
theorem Shape.fmulW (f : WF) : Shape.Statement (.fmulW f) := shape_of_bits _
theorem Shape.fmulBf16x2W (f : WF) : Shape.Statement (.fmulBf16x2W f) := shape_of_bits _
theorem Shape.fmulF16x2W (f : WF) : Shape.Statement (.fmulF16x2W f) := shape_of_bits _
theorem Shape.ffma (f : DF) (m : FMod) : Shape.Statement (.ffma f m) := shape_of_bits _
theorem Shape.fmin (f : DF) (m : FMod) : Shape.Statement (.fmin f m) := shape_of_bits _
theorem Shape.fminW (f : WF) : Shape.Statement (.fminW f) := shape_of_bits _
theorem Shape.fmax (f : DF) (m : FMod) : Shape.Statement (.fmax f m) := shape_of_bits _
theorem Shape.fmaxC (f : CF) : Shape.Statement (.fmaxC f) := shape_of_bits _
theorem Shape.fmaxW (f : WF) : Shape.Statement (.fmaxW f) := shape_of_bits _
theorem Shape.fminp (f : DF) (m : FMod) : Shape.Statement (.fminp f m) := shape_of_bits _
theorem Shape.fmaxp (f : DF) (m : FMod) : Shape.Statement (.fmaxp f m) := shape_of_bits _
theorem Shape.fcmp (f : DF) (m : FMod) : Shape.Statement (.fcmp f m) := shape_of_bits _
theorem Shape.fcmpLtW (f : WF) : Shape.Statement (.fcmpLtW f) := shape_of_bits _
theorem Shape.fcmpLeW (f : WF) : Shape.Statement (.fcmpLeW f) := shape_of_bits _
theorem Shape.fcmpEqW (f : WF) : Shape.Statement (.fcmpEqW f) := shape_of_bits _
theorem Shape.fclass (f : DF) (m : FMod) : Shape.Statement (.fclass f m) := shape_of_bits _
theorem Shape.frnd (f : DF) (m : CvtMod) : Shape.Statement (.frnd f m) := shape_of_bits _
theorem Shape.cvt (f : DF) (m : CvtMod) : Shape.Statement (.cvt f m) := shape_of_bits _
theorem Shape.cvtF32I32W (f : WB) : Shape.Statement (.cvtF32I32W f) := shape_of_bits _
theorem Shape.cvtI32F32W (f : WB) : Shape.Statement (.cvtI32F32W f) := shape_of_bits _
theorem Shape.frcp (f : DF) : Shape.Statement (.frcp f) := shape_of_bits _
theorem Shape.frcpW (f : WB) : Shape.Statement (.frcpW f) := shape_of_bits _
theorem Shape.frsq (f : DF) : Shape.Statement (.frsq f) := shape_of_bits _
theorem Shape.frsqW (f : WB) : Shape.Statement (.frsqW f) := shape_of_bits _
theorem Shape.fsqrt (f : DF) : Shape.Statement (.fsqrt f) := shape_of_bits _
theorem Shape.fsqrtW (f : WB) : Shape.Statement (.fsqrtW f) := shape_of_bits _
theorem Shape.fexp2 (f : DF) : Shape.Statement (.fexp2 f) := shape_of_bits _
theorem Shape.fexp2W (f : WB) : Shape.Statement (.fexp2W f) := shape_of_bits _
theorem Shape.flog2 (f : DF) : Shape.Statement (.flog2 f) := shape_of_bits _
theorem Shape.flog2W (f : WB) : Shape.Statement (.flog2W f) := shape_of_bits _
theorem Shape.fsint (f : DF) : Shape.Statement (.fsint f) := shape_of_bits _
theorem Shape.fcost (f : DF) : Shape.Statement (.fcost f) := shape_of_bits _
theorem Shape.shfl (f : DF) (m : ShflMode) : Shape.Statement (.shfl f m) := shape_of_bits _
theorem Shape.bcst (f : DF) : Shape.Statement (.bcst f) := shape_of_bits _
theorem Shape.vote (f : DF) (m : VoteMode) : Shape.Statement (.vote f m) := shape_of_bits _
theorem Shape.lred (f : DF) (m : RedMod) : Shape.Statement (.lred f m) := shape_of_bits _
theorem Shape.lscan (f : DF) (m : RedMod) : Shape.Statement (.lscan f m) := shape_of_bits _
theorem Shape.match (f : DF) : Shape.Statement (.match f) := shape_of_bits _
theorem Shape.elect (f : DF) : Shape.Statement (.elect f) := shape_of_bits _
theorem Shape.ld (f : DF) (m : MemMod) : Shape.Statement (.ld f m) := shape_of_bits _
theorem Shape.ld4W (f : WF) : Shape.Statement (.ld4W f) := shape_of_bits _
theorem Shape.ld8W (f : WF) : Shape.Statement (.ld8W f) := shape_of_bits _
theorem Shape.ld1W (f : WF) : Shape.Statement (.ld1W f) := shape_of_bits _
theorem Shape.ld1SxW (f : WF) : Shape.Statement (.ld1SxW f) := shape_of_bits _
theorem Shape.ld2W (f : WF) : Shape.Statement (.ld2W f) := shape_of_bits _
theorem Shape.ld2SxW (f : WF) : Shape.Statement (.ld2SxW f) := shape_of_bits _
theorem Shape.st (f : DF) (m : MemMod) : Shape.Statement (.st f m) := shape_of_bits _
theorem Shape.ldt (f : DF) (m : MemMod) : Shape.Statement (.ldt f m) := shape_of_bits _
theorem Shape.stt (f : DF) (m : MemMod) : Shape.Statement (.stt f m) := shape_of_bits _
theorem Shape.pref (f : DF) (size : Size) : Shape.Statement (.pref f size) := shape_of_bits _
theorem Shape.cinv (f : DF) (size : Size) : Shape.Statement (.cinv f size) := shape_of_bits _
theorem Shape.cwb (f : DF) (size : Size) : Shape.Statement (.cwb f size) := shape_of_bits _
theorem Shape.cpy (f : DF) (col : Bool) : Shape.Statement (.cpy f col) := shape_of_bits _
theorem Shape.gth (f : DF) : Shape.Statement (.gth f) := shape_of_bits _
theorem Shape.ewait (f : DF) : Shape.Statement (.ewait f) := shape_of_bits _
theorem Shape.cpySeal (f : DF) : Shape.Statement (.cpySeal f) := shape_of_bits _
theorem Shape.cpyOpen (f : DF) : Shape.Statement (.cpyOpen f) := shape_of_bits _
theorem Shape.dbell (f : DF) (eight : Bool) : Shape.Statement (.dbell f eight) := shape_of_bits _
theorem Shape.talloc (f : DF) (m : AllocMod) : Shape.Statement (.talloc f m) := shape_of_bits _
theorem Shape.tfree (f : DF) : Shape.Statement (.tfree f) := shape_of_bits _
theorem Shape.thdr (f : DF) (k : BitVec 4) : Shape.Statement (.thdr f k) := shape_of_bits _
theorem Shape.thdrCtl (f : DF) : Shape.Statement (.thdrCtl f) := shape_of_bits _
theorem Shape.thset (f : DF) (k : BitVec 4) : Shape.Statement (.thset f k) := shape_of_bits _
theorem Shape.thsetCtl (f : DF) : Shape.Statement (.thsetCtl f) := shape_of_bits _
theorem Shape.tmov (f : DF) (m : MovMod) : Shape.Statement (.tmov f m) := shape_of_bits _
theorem Shape.mma (f : DF) (z : Bool) : Shape.Statement (.mma f z) := shape_of_bits _
theorem Shape.mwait (f : DF) : Shape.Statement (.mwait f) := shape_of_bits _
theorem Shape.mwaitAll (f : DF) : Shape.Statement (.mwaitAll f) := shape_of_bits _
theorem Shape.quant (f : DF) : Shape.Statement (.quant f) := shape_of_bits _
theorem Shape.atom (f : DF) (m : SyncMod) : Shape.Statement (.atom f m) := shape_of_bits _
theorem Shape.red (f : DF) (m : SyncMod) : Shape.Statement (.red f m) := shape_of_bits _
theorem Shape.cas (f : DF) (m : SyncMod) : Shape.Statement (.cas f m) := shape_of_bits _
theorem Shape.fence (f : DF) (m : SyncMod) : Shape.Statement (.fence f m) := shape_of_bits _
theorem Shape.waitv (f : DF) (m : SyncMod) : Shape.Statement (.waitv f m) := shape_of_bits _
theorem Shape.bara (f : DF) (lvl : BitVec 4) : Shape.Statement (.bara f lvl) := shape_of_bits _
theorem Shape.barw (f : DF) (lvl : BitVec 4) : Shape.Statement (.barw f lvl) := shape_of_bits _
theorem Shape.bars (f : DF) (lvl : BitVec 4) : Shape.Statement (.bars f lvl) := shape_of_bits _
theorem Shape.br (f : DF) (nz : Bool) : Shape.Statement (.br f nz) := shape_of_bits _
theorem Shape.jmp (f : DF) : Shape.Statement (.jmp f) := shape_of_bits _
theorem Shape.jmpr (f : DF) : Shape.Statement (.jmpr f) := shape_of_bits _
theorem Shape.call (f : DF) : Shape.Statement (.call f) := shape_of_bits _
theorem Shape.callInd (f : DF) : Shape.Statement (.callInd f) := shape_of_bits _
theorem Shape.ret (f : DF) : Shape.Statement (.ret f) := shape_of_bits _
theorem Shape.tdisp (f : DF) : Shape.Statement (.tdisp f) := shape_of_bits _
theorem Shape.svc (f : DF) : Shape.Statement (.svc f) := shape_of_bits _
theorem Shape.svcMb (f : DF) : Shape.Statement (.svcMb f) := shape_of_bits _
theorem Shape.yield (f : DF) : Shape.Statement (.yield f) := shape_of_bits _
theorem Shape.safe (f : DF) : Shape.Statement (.safe f) := shape_of_bits _
theorem Shape.nop (f : DF) : Shape.Statement (.nop f) := shape_of_bits _
theorem Shape.nopW : Shape.Statement .nopW := shape_of_bits _
theorem Shape.exit (f : DF) : Shape.Statement (.exit f) := shape_of_bits _
theorem Shape.trap (f : DF) : Shape.Statement (.trap f) := shape_of_bits _
theorem Shape.rdsr (f : DF) (sr : BitVec 12) : Shape.Statement (.rdsr f sr) := shape_of_bits _
theorem Shape.wrsr (f : DF) (sr : BitVec 12) : Shape.Statement (.wrsr f sr) := shape_of_bits _
theorem Shape.trqRead (f : DF) : Shape.Statement (.trqRead f) := shape_of_bits _
theorem Shape.mboxRead (f : DF) : Shape.Statement (.mboxRead f) := shape_of_bits _
theorem Shape.mbrplWrite (f : DF) : Shape.Statement (.mbrplWrite f) := shape_of_bits _
theorem Shape.eret (f : DF) : Shape.Statement (.eret f) := shape_of_bits _
theorem Shape.tlbiPage (f : DF) : Shape.Statement (.tlbiPage f) := shape_of_bits _
theorem Shape.tlbiCtx (f : DF) : Shape.Statement (.tlbiCtx f) := shape_of_bits _
theorem Shape.tlbiAll (f : DF) : Shape.Statement (.tlbiAll f) := shape_of_bits _
theorem Shape.rdth (f : DF) : Shape.Statement (.rdth f) := shape_of_bits _
theorem Shape.wrth (f : DF) : Shape.Statement (.wrth f) := shape_of_bits _
theorem Shape.wake (f : DF) : Shape.Statement (.wake f) := shape_of_bits _
theorem Shape.park (f : DF) : Shape.Statement (.park f) := shape_of_bits _
theorem Shape.irqbBind (f : DF) : Shape.Statement (.irqbBind f) := shape_of_bits _
theorem Shape.irqbUnbind (f : DF) : Shape.Statement (.irqbUnbind f) := shape_of_bits _
theorem Shape.bind (f : DF) : Shape.Statement (.bind f) := shape_of_bits _
theorem Shape.selft (f : DF) : Shape.Statement (.selft f) := shape_of_bits _
theorem Shape.hashb (f : DF) (k : BitVec 2) : Shape.Statement (.hashb f k) := shape_of_bits _
theorem Shape.hashf (f : DF) (k : BitVec 2) : Shape.Statement (.hashf f k) := shape_of_bits _
theorem Shape.ecver (f : DF) : Shape.Statement (.ecver f) := shape_of_bits _
theorem Shape.ecsig (f : DF) : Shape.Statement (.ecsig f) := shape_of_bits _
theorem Shape.mext (f : DF) (k : BitVec 3) : Shape.Statement (.mext f k) := shape_of_bits _
theorem Shape.mread (f : DF) (k : BitVec 3) : Shape.Statement (.mread f k) := shape_of_bits _
theorem Shape.unassignedOpcode (first : Word) : Shape.Statement (.unassignedOpcode first) := shape_of_bits _
theorem Shape.storeDrain (h : Hart) (m : DrainMove) : Shape.Statement (.storeDrain h m) := shape_of_bits _
theorem Shape.yieldWake (h : Hart) : Shape.Statement (.yieldWake h) := shape_of_bits _
theorem Shape.waitvReread (h : Hart) : Shape.Statement (.waitvReread h) := shape_of_bits _
theorem Shape.taskStart (core : Nat) : Shape.Statement (.taskStart core) := shape_of_bits _
theorem Shape.taskComplete (core : Nat) (token : BitVec 16) : Shape.Statement (.taskComplete core token) := shape_of_bits _
theorem Shape.engineGranuleWrite (core : Nat) (matrix : Bool) (token : BitVec 16) (g : Nat) : Shape.Statement (.engineGranuleWrite core matrix token g) := shape_of_bits _
theorem Shape.copyComplete (core : Nat) (token : BitVec 16) : Shape.Statement (.copyComplete core token) := shape_of_bits _
theorem Shape.copyFail (core : Nat) (token : BitVec 16) : Shape.Statement (.copyFail core token) := shape_of_bits _
theorem Shape.dispenserAnswer (h : Hart) : Shape.Statement (.dispenserAnswer h) := shape_of_bits _
theorem Shape.noProducerTrap (core : Nat) : Shape.Statement (.noProducerTrap core) := shape_of_bits _
theorem Shape.packetFetch (slot : Nat) : Shape.Statement (.packetFetch slot) := shape_of_bits _
theorem Shape.slotFetchResume (slot : Nat) : Shape.Statement (.slotFetchResume slot) := shape_of_bits _
theorem Shape.slotGrant (slot : Nat) : Shape.Statement (.slotGrant slot) := shape_of_bits _
theorem Shape.verdictApply (slot : Nat) : Shape.Statement (.verdictApply slot) := shape_of_bits _
theorem Shape.refusalWordWrite (slot : Nat) : Shape.Statement (.refusalWordWrite slot) := shape_of_bits _
theorem Shape.queueErrorEventPost (slot : Nat) : Shape.Statement (.queueErrorEventPost slot) := shape_of_bits _
theorem Shape.launchEnd (slot : Nat) : Shape.Statement (.launchEnd slot) := shape_of_bits _
theorem Shape.workgroupEnd (core : Nat) : Shape.Statement (.workgroupEnd core) := shape_of_bits _
theorem Shape.workgroupStart (core : Nat) : Shape.Statement (.workgroupStart core) := shape_of_bits _
theorem Shape.preemptDelivery (slot : Nat) (core : Nat) : Shape.Statement (.preemptDelivery slot core) := shape_of_bits _
theorem Shape.workgroupArm (core : Nat) : Shape.Statement (.workgroupArm core) := shape_of_bits _
theorem Shape.launchSaved (slot : Nat) : Shape.Statement (.launchSaved slot) := shape_of_bits _
theorem Shape.migrationFrameTake (idx : Nat) : Shape.Statement (.migrationFrameTake idx) := shape_of_bits _
theorem Shape.migrationComplete (idx : Nat) : Shape.Statement (.migrationComplete idx) := shape_of_bits _
theorem Shape.migrationFail (idx : Nat) : Shape.Statement (.migrationFail idx) := shape_of_bits _
theorem Shape.doorbellSend (idx : Nat) : Shape.Statement (.doorbellSend idx) := shape_of_bits _
theorem Shape.messageTake (ring : Nat) : Shape.Statement (.messageTake ring) := shape_of_bits _
theorem Shape.messageDelivery (idx : Nat) : Shape.Statement (.messageDelivery idx) := shape_of_bits _
theorem Shape.messageRetry (ctx : BitVec 16) : Shape.Statement (.messageRetry ctx) := shape_of_bits _
theorem Shape.queueDoorbell (qid : BitVec 16) (value : Word) : Shape.Statement (.queueDoorbell qid value) := shape_of_bits _
theorem Shape.transportReplySend (conn : Conn) : Shape.Statement (.transportReplySend conn) := shape_of_bits _
theorem Shape.stackRetrainingEnd (stack : Nat) : Shape.Statement (.stackRetrainingEnd stack) := shape_of_bits _
theorem Shape.sliceExpiry (slot : Nat) : Shape.Statement (.sliceExpiry slot) := shape_of_bits _
theorem Shape.contextRunWrite (ctx : BitVec 16) (run : BitVec 2) : Shape.Statement (.contextRunWrite ctx run) := shape_of_bits _
theorem Shape.msctlSend : Shape.Statement .msctlSend := shape_of_bits _
theorem Shape.issueSelect (core : Nat) : Shape.Statement (.issueSelect core) := shape_of_bits _
theorem Shape.instructionFetch (ag : Agent) : Shape.Statement (.instructionFetch ag) := shape_of_bits _
theorem Shape.deferExpiry (core : Nat) : Shape.Statement (.deferExpiry core) := shape_of_bits _
theorem Shape.deadlineExpiry (core : Nat) : Shape.Statement (.deadlineExpiry core) := shape_of_bits _
theorem Shape.contextKill (ctx : BitVec 16) (code : BitVec 8) : Shape.Statement (.contextKill ctx code) := shape_of_bits _
theorem Shape.coreRestart (core : Nat) : Shape.Statement (.coreRestart core) := shape_of_bits _
theorem Shape.coreRetire (core : Nat) : Shape.Statement (.coreRetire core) := shape_of_bits _
theorem Shape.atsInvalidationTimeout (rid : BitVec 16) : Shape.Statement (.atsInvalidationTimeout rid) := shape_of_bits _
theorem Shape.stackRetrainingStart (stack : Nat) : Shape.Statement (.stackRetrainingStart stack) := shape_of_bits _
theorem Shape.turnReadyReceive (msg : BitVec 512) : Shape.Statement (.turnReadyReceive msg) := shape_of_bits _
theorem Shape.demotionRequest (ctx : BitVec 16) (va : BitVec 64) : Shape.Statement (.demotionRequest ctx va) := shape_of_bits _
theorem Shape.priRequest (rid : BitVec 16) (pasid : Option (BitVec 20)) (va : BitVec 64) : Shape.Statement (.priRequest rid pasid va) := shape_of_bits _
theorem Shape.atsRequest (rid : BitVec 16) (pasid : Option (BitVec 20)) (va : BitVec 64) : Shape.Statement (.atsRequest rid pasid va) := shape_of_bits _
theorem Shape.frameAppend (by_ : IoActor) (fast : Bool) (frame : BitVec 64) : Shape.Statement (.frameAppend by_ fast frame) := shape_of_bits _
theorem Shape.hbmBurst (pa : BitVec 64) (beats : Nat) (write : Bool) : Shape.Statement (.hbmBurst pa beats write) := shape_of_bits _
theorem Shape.hbmAlert (sub : Nat) (tag : BitVec 6) : Shape.Statement (.hbmAlert sub tag) := shape_of_bits _
theorem Shape.historyRetire (sub : Nat) : Shape.Statement (.historyRetire sub) := shape_of_bits _
theorem Shape.cxlDataResponse (pa : BitVec 64) (marks : BitVec 4) : Shape.Statement (.cxlDataResponse pa marks) := shape_of_bits _
theorem Shape.uncorrectableError (loc : Loc) (code : BitVec 8) (addr : BitVec 64) : Shape.Statement (.uncorrectableError loc code addr) := shape_of_bits _
theorem Shape.correctedError (loc : Loc) : Shape.Statement (.correctedError loc) := shape_of_bits _
theorem Shape.ioTableScrub : Shape.Statement .ioTableScrub := shape_of_bits _
theorem Shape.selfTestDone (seq : Nat) (pass : Bool) : Shape.Statement (.selfTestDone seq pass) := shape_of_bits _
theorem Shape.errorLogConsume (v : Word) : Shape.Statement (.errorLogConsume v) := shape_of_bits _
theorem Shape.keySlotLoad (slot : BitVec 12) (kind : BitVec 2) (owner : BitVec 16) : Shape.Statement (.keySlotLoad slot kind owner) := shape_of_bits _
theorem Shape.keyDataWrite (v : BitVec 64) : Shape.Statement (.keyDataWrite v) := shape_of_bits _
theorem Shape.guiltLimitWrite (v : Word) : Shape.Statement (.guiltLimitWrite v) := shape_of_bits _
theorem Shape.guiltClear (ctx : BitVec 16) : Shape.Statement (.guiltClear ctx) := shape_of_bits _
theorem Shape.stageAdvance : Shape.Statement .stageAdvance := shape_of_bits _
theorem Shape.powerLimitWrite (v : Word) : Shape.Statement (.powerLimitWrite v) := shape_of_bits _
theorem Shape.powerSample (watts : Nat) : Shape.Statement (.powerSample watts) := shape_of_bits _
theorem Shape.thermalCap (temp : BitVec 8) : Shape.Statement (.thermalCap temp) := shape_of_bits _
theorem Shape.thermalTrip (temp : BitVec 8) : Shape.Statement (.thermalTrip temp) := shape_of_bits _
theorem Shape.deviceReset : Shape.Statement .deviceReset := shape_of_bits _
theorem Shape.contextRecordWrite (ctx : BitVec 16) (rec : BitVec 256) : Shape.Statement (.contextRecordWrite ctx rec) := shape_of_bits _
theorem Shape.doorbellMapWrite (idx : Nat) (entry : BitVec 256) : Shape.Statement (.doorbellMapWrite idx entry) := shape_of_bits _
theorem Shape.irqBindingWrite (idx : Nat) (entry : BitVec 64) : Shape.Statement (.irqBindingWrite idx entry) := shape_of_bits _
theorem Shape.invalidationRequest (kind : TlbiKind) (addr : BitVec 64) (ctx : BitVec 16) : Shape.Statement (.invalidationRequest kind addr ctx) := shape_of_bits _
theorem Shape.controlSpaceWrite (by_ : IoActor) (off : BitVec 64) (size : Nat) (v : BitVec 64) : Shape.Statement (.controlSpaceWrite by_ off size v) := shape_of_bits _
theorem Shape.endpointRequest (r : EpReq) : Shape.Statement (.endpointRequest r) := shape_of_bits _
theorem Shape.peerInboundRequest (port : Nat) (r : EpReq) : Shape.Statement (.peerInboundRequest port r) := shape_of_bits _
theorem Shape.msixArrival (r : EpReq) : Shape.Statement (.msixArrival r) := shape_of_bits _
theorem Shape.linkTrain (port : Nat) (rate : Nat) (cxl : Bool) (mod : BitVec 8) : Shape.Statement (.linkTrain port rate cxl mod) := shape_of_bits _
theorem Shape.linkDown (port : Nat) (window : Option Nat) : Shape.Statement (.linkDown port window) := shape_of_bits _
theorem Shape.virtioNotify (fn : Nat) (queue : Nat) : Shape.Statement (.virtioNotify fn queue) := shape_of_bits _
theorem Shape.hostRequest (r : HostAccess) : Shape.Statement (.hostRequest r) := shape_of_bits _
theorem Shape.spdmRequestPost (conn : Conn) (req : List Byte) : Shape.Statement (.spdmRequestPost conn req) := shape_of_bits _
theorem Shape.getVersion (conn : Conn) : Shape.Statement (.getVersion conn) := shape_of_bits _
theorem Shape.getCapabilities (conn : Conn) : Shape.Statement (.getCapabilities conn) := shape_of_bits _
theorem Shape.negotiateAlgorithms (conn : Conn) : Shape.Statement (.negotiateAlgorithms conn) := shape_of_bits _
theorem Shape.getDigests (conn : Conn) : Shape.Statement (.getDigests conn) := shape_of_bits _
theorem Shape.getCertificate (conn : Conn) : Shape.Statement (.getCertificate conn) := shape_of_bits _
theorem Shape.challenge (conn : Conn) : Shape.Statement (.challenge conn) := shape_of_bits _
theorem Shape.getMeasurements (conn : Conn) : Shape.Statement (.getMeasurements conn) := shape_of_bits _
theorem Shape.spdmErrorReply (conn : Conn) : Shape.Statement (.spdmErrorReply conn) := shape_of_bits _
theorem Shape.systemCoreMemoryAccess (r : SysAccess) : Shape.Statement (.systemCoreMemoryAccess r) := shape_of_bits _
theorem Shape.atsInvalidationCompletion (idx : Nat) : Shape.Statement (.atsInvalidationCompletion idx) := shape_of_bits _
theorem Shape.peerReadCompletion (idx : Nat) (data : List Byte) : Shape.Statement (.peerReadCompletion idx data) := shape_of_bits _
theorem Shape.thermalCapLift (temp : BitVec 8) : Shape.Statement (.thermalCapLift temp) := shape_of_bits _

end Sys2Proof.Laws
end

