-- ==== Sys2Proof/Tests/Slice0.lean ====
section
/-! SUPPORT. Tests: words written out from the spec's encoding tables and worked cases, refusals of ill-formed terms and
words, and a few single instructions whose results the spec works out. -/

set_option Elab.async false

namespace Sys2Proof.Tests
open Sys2Proof Sys2Proof.Machine

/-! ## Decoding: one word for each encoded row, laid out by Tables 3-2 to 3-14, 5-7, 8-4, 10-1, 13-1, 17-4, 18-4, 18-7, 20-4
and 23-5 -/

/-- Class 000 (Tables 3-8, 3-12). -/
theorem test_decode_integer1 :
    [decodeTableWord 64 0x000000034000A003,
     decodeTableWord 64 0x010000034000A00B,
     decodeTableWord 64 0x0B0000034180A013,
     decodeTableWord 64 0x060000034180A01B,
     decodeTableWord 64 0x000007034180A023,
     decodeTableWord 64 0x000007034180A02B,
     decodeTableWord 64 0x000000034180A033,
     decodeTableWord 64 0x010000034180A03B,
     decodeTableWord 64 0x000007034180A043,
     decodeTableWord 64 0x010007034180A04B,
     decodeTableWord 64 0x000000034180A053,
     decodeTableWord 64 0x000000034180A05B,
     decodeTableWord 64 0x000000034180A063,
     decodeTableWord 64 0x050000034180A06B,
     decodeTableWord 64 0x080000034180A073,
     decodeTableWord 64 0x020000034000A07B] =
    [some (.mov ⟨10, false, .reg 0, .reg 13, .reg 0, none⟩),
     some (.li ⟨10, false, .reg 0, .reg 13, .reg 0, none⟩ { u := true }),
     some (.add ⟨10, false, .reg 12, .reg 13, .reg 0, none⟩ { ew := .q4, sat := true, u := true }),
     some (.sub ⟨10, false, .reg 12, .reg 13, .reg 0, none⟩ { ew := .h2, sat := true }),
     some (.addc ⟨10, false, .reg 12, .reg 13, .reg 14, none⟩),
     some (.subb ⟨10, false, .reg 12, .reg 13, .reg 14, none⟩),
     some (.mul ⟨10, false, .reg 12, .reg 13, .reg 0, none⟩),
     some (.mulh ⟨10, false, .reg 12, .reg 13, .reg 0, none⟩ { u := true }),
     some (.mad ⟨10, false, .reg 12, .reg 13, .reg 14, none⟩),
     some (.madw ⟨10, false, .reg 12, .reg 13, .reg 14, none⟩ { u := true }),
     some (.add64 ⟨10, false, .reg 12, .reg 13, .reg 0, none⟩),
     some (.sub64 ⟨10, false, .reg 12, .reg 13, .reg 0, none⟩),
     some (.lea ⟨10, false, .reg 12, .reg 13, .reg 0, none⟩ {}),
     some (.min ⟨10, false, .reg 12, .reg 13, .reg 0, none⟩ { ew := .h2, u := true }),
     some (.max ⟨10, false, .reg 12, .reg 13, .reg 0, none⟩ { ew := .q4 }),
     some (.abs ⟨10, false, .reg 0, .reg 13, .reg 0, none⟩ { sat := true })] := by decide +kernel

/-- Class 000 (Tables 3-8, 3-12). -/
theorem test_decode_integer2 :
    [decodeTableWord 64 0x000000034000A083,
     decodeTableWord 64 0x518000034180A08B,
     decodeTableWord 64 0x000007034180A093] =
    [some (.neg ⟨10, false, .reg 0, .reg 13, .reg 0, none⟩ {}),
     some (.cmp ⟨10, false, .reg 12, .reg 13, .reg 0, none⟩ { cond := .gt, u := true, ones := true }),
     some (.sel ⟨10, false, .reg 12, .reg 13, .reg 14, none⟩)] := by decide +kernel

/-- Class 000, continued. -/
theorem test_decode_logic1 :
    [decodeTableWord 64 0x000000034180A09B,
     decodeTableWord 64 0x000000034180A0A3,
     decodeTableWord 64 0x000000034180A0AB,
     decodeTableWord 64 0x000000034180A0B3,
     decodeTableWord 64 0x0A0000034180A0BB,
     decodeTableWord 64 0x040000034180A0C3,
     decodeTableWord 64 0x080000034180A0CB,
     decodeTableWord 64 0x000000034180A0D3,
     decodeTableWord 64 0x000007034180A0DB,
     decodeTableWord 64 0x010000034180A0E3,
     decodeTableWord 64 0x000007034180A0EB,
     decodeTableWord 64 0x000000034000A0F3,
     decodeTableWord 64 0x000000034000A0FB,
     decodeTableWord 64 0x000000034000A103,
     decodeTableWord 64 0x000000034000A10B,
     decodeTableWord 64 0x000007034180A113] =
    [some (.and ⟨10, false, .reg 12, .reg 13, .reg 0, none⟩),
     some (.or ⟨10, false, .reg 12, .reg 13, .reg 0, none⟩),
     some (.xor ⟨10, false, .reg 12, .reg 13, .reg 0, none⟩),
     some (.andn ⟨10, false, .reg 12, .reg 13, .reg 0, none⟩),
     some (.shl ⟨10, false, .reg 12, .reg 13, .reg 0, none⟩ { ew := .q4, sat := true }),
     some (.shr ⟨10, false, .reg 12, .reg 13, .reg 0, none⟩ { ew := .h2 }),
     some (.sar ⟨10, false, .reg 12, .reg 13, .reg 0, none⟩ { ew := .q4 }),
     some (.rot ⟨10, false, .reg 12, .reg 13, .reg 0, none⟩),
     some (.fsh ⟨10, false, .reg 12, .reg 13, .reg 14, none⟩),
     some (.bfx ⟨10, false, .reg 12, .reg 13, .reg 0, none⟩ { u := true }),
     some (.bfi ⟨10, false, .reg 12, .reg 13, .reg 14, none⟩),
     some (.popc ⟨10, false, .reg 0, .reg 13, .reg 0, none⟩),
     some (.clz ⟨10, false, .reg 0, .reg 13, .reg 0, none⟩),
     some (.ctz ⟨10, false, .reg 0, .reg 13, .reg 0, none⟩),
     some (.brev ⟨10, false, .reg 0, .reg 13, .reg 0, none⟩),
     some (.perm ⟨10, false, .reg 12, .reg 13, .reg 14, none⟩)] := by decide +kernel

/-- Class 000, continued. -/
theorem test_decode_logic2 :
    [decodeTableWord 64 0x030007034180A11B] =
    [some (.dot4 ⟨10, false, .reg 12, .reg 13, .reg 14, none⟩ { sat := true, u := true })] := by decide +kernel

/-- Classes 001 and 010: arithmetic, conversions, special functions. -/
theorem test_decode_float1 :
    [decodeTableWord 64 0x280000034180A203,
     decodeTableWord 64 0x400000034180A20B,
     decodeTableWord 64 0x700000034180A213,
     decodeTableWord 64 0x800007034180A21B,
     decodeTableWord 64 0x000000034180A223,
     decodeTableWord 64 0x080000034180A22B,
     decodeTableWord 64 0x000000034180A233,
     decodeTableWord 64 0x000000034180A23B,
     decodeTableWord 64 0x034000034180A243,
     decodeTableWord 64 0x100000034000A24B,
     decodeTableWord 64 0x244000034000A253,
     decodeTableWord 64 0x869000034000A25B,
     decodeTableWord 64 0x000000034000A403,
     decodeTableWord 64 0x000000034000A40B,
     decodeTableWord 64 0x000000034000A413,
     decodeTableWord 64 0x000000034000A41B] =
    [some (.fadd ⟨10, false, .reg 12, .reg 13, .reg 0, none⟩ { rm := .rne, pk := .bf16x2 }),
     some (.fsub ⟨10, false, .reg 12, .reg 13, .reg 0, none⟩ { rm := .rtz }),
     some (.fmul ⟨10, false, .reg 12, .reg 13, .reg 0, none⟩ { rm := .rup, pk := .f16x2 }),
     some (.ffma ⟨10, false, .reg 12, .reg 13, .reg 14, none⟩ { rm := .rdn }),
     some (.fmin ⟨10, false, .reg 12, .reg 13, .reg 0, none⟩ {}),
     some (.fmax ⟨10, false, .reg 12, .reg 13, .reg 0, none⟩ { pk := .bf16x2 }),
     some (.fminp ⟨10, false, .reg 12, .reg 13, .reg 0, none⟩ {}),
     some (.fmaxp ⟨10, false, .reg 12, .reg 13, .reg 0, none⟩ {}),
     some (.fcmp ⟨10, false, .reg 12, .reg 13, .reg 0, none⟩ { cond := .un, ones := true }),
     some (.fclass ⟨10, false, .reg 0, .reg 13, .reg 0, none⟩ { pk := .f16x2 }),
     some (.frnd ⟨10, false, .reg 0, .reg 13, .reg 0, none⟩ { rm := .rne, df := .bf16, sf := .bf16 }),
     some (.cvt ⟨10, false, .reg 0, .reg 13, .reg 0, none⟩ { rm := .rdn, df := .e4m3, sf := .e5m2, sat := true }),
     some (.frcp ⟨10, false, .reg 0, .reg 13, .reg 0, none⟩),
     some (.frsq ⟨10, false, .reg 0, .reg 13, .reg 0, none⟩),
     some (.fsqrt ⟨10, false, .reg 0, .reg 13, .reg 0, none⟩),
     some (.fexp2 ⟨10, false, .reg 0, .reg 13, .reg 0, none⟩)] := by decide +kernel

/-- Classes 001 and 010: arithmetic, conversions, special functions. -/
theorem test_decode_float2 :
    [decodeTableWord 64 0x000000034000A423,
     decodeTableWord 64 0x000000034000A42B,
     decodeTableWord 64 0x000000034000A433] =
    [some (.flog2 ⟨10, false, .reg 0, .reg 13, .reg 0, none⟩),
     some (.fsint ⟨10, false, .reg 0, .reg 13, .reg 0, none⟩),
     some (.fcost ⟨10, false, .reg 0, .reg 13, .reg 0, none⟩)] := by decide +kernel

/-- Class 010: cross-lane. -/
theorem test_decode_crosslane :
    [decodeTableWord 64 0x030007034180A503,
     decodeTableWord 64 0x000007034180A50B,
     decodeTableWord 64 0x020007000180A513,
     decodeTableWord 64 0x280007000180A51B,
     decodeTableWord 64 0x740007000180A523,
     decodeTableWord 64 0x000007000180A52B,
     decodeTableWord 64 0x000007000180A533] =
    [some (.shfl ⟨10, false, .reg 12, .reg 13, .reg 14, none⟩ .bxor),
     some (.bcst ⟨10, false, .reg 12, .reg 13, .reg 14, none⟩),
     some (.vote ⟨10, false, .reg 12, .reg 0, .reg 14, none⟩ .ballot),
     some (.lred ⟨10, false, .reg 12, .reg 0, .reg 14, none⟩ { opc := .max, u := true }),
     some (.lscan ⟨10, false, .reg 12, .reg 0, .reg 14, none⟩ { opc := .fadd, u := false, excl := true }),
     some (.match ⟨10, false, .reg 12, .reg 0, .reg 14, none⟩),
     some (.elect ⟨10, false, .reg 12, .reg 0, .reg 14, none⟩)] := by decide +kernel

/-- Class 011 (Table 10-1, Tables 18-4 and 23-5). -/
theorem test_decode_memory :
    [decodeTableWord 64 0x350000034180A603,
     decodeTableWord 64 0x660400034180A60B,
     decodeTableWord 64 0x847007034180A613,
     decodeTableWord 64 0x404C07034180A61B,
     decodeTableWord 64 0x8000000341800623,
     decodeTableWord 64 0x000000034180062B,
     decodeTableWord 64 0x2000000341800633,
     decodeTableWord 64 0x004007034180A63B,
     decodeTableWord 64 0x000007034180A643,
     decodeTableWord 64 0x000000034000A64B,
     decodeTableWord 64 0x000007034180A653,
     decodeTableWord 64 0x000007034180A65B,
     decodeTableWord 64 0x6000070341800663] =
    [some (.ld ⟨10, false, .reg 12, .reg 13, .reg 0, none⟩ { size := .s2, sx := true, ord := true, scope := .dev }),
     some (.st ⟨10, false, .reg 12, .reg 13, .reg 0, none⟩ { size := .s8, ord := true, scope := .sys, psn := true }),
     some (.ldt ⟨10, false, .reg 12, .reg 13, .reg 14, none⟩ { size := .s16, ord := true, col := true, wf := true, clr := true }),
     some (.stt ⟨10, false, .reg 12, .reg 13, .reg 14, none⟩ { size := .s4, col := true, fill := true, psn := true }),
     some (.pref ⟨0, false, .reg 12, .reg 13, .reg 0, none⟩ .s16),
     some (.cinv ⟨0, false, .reg 12, .reg 13, .reg 0, none⟩ .s1),
     some (.cwb ⟨0, false, .reg 12, .reg 13, .reg 0, none⟩ .s2),
     some (.cpy ⟨10, false, .reg 12, .reg 13, .reg 14, none⟩ true),
     some (.gth ⟨10, false, .reg 12, .reg 13, .reg 14, none⟩),
     some (.ewait ⟨10, false, .reg 0, .reg 13, .reg 0, none⟩),
     some (.cpySeal ⟨10, false, .reg 12, .reg 13, .reg 14, none⟩),
     some (.cpyOpen ⟨10, false, .reg 12, .reg 13, .reg 14, none⟩),
     some (.dbell ⟨0, false, .reg 12, .reg 13, .reg 14, none⟩ true)] := by decide +kernel

/-- Class 100 (Tables 5-7, 8-4). -/
theorem test_decode_tiles :
    [decodeTableWord 64 0x0A0507034180A803,
     decodeTableWord 64 0x000000034000080B,
     decodeTableWord 64 0x000F00034000A813,
     decodeTableWord 64 0x001000034000A813,
     decodeTableWord 64 0x000E07034180081B,
     decodeTableWord 64 0x001007034180081B,
     decodeTableWord 64 0x800500034180A823,
     decodeTableWord 64 0x000107034180A82B,
     decodeTableWord 64 0x0000000340000833,
     decodeTableWord 64 0x0001000000000833,
     decodeTableWord 64 0x000000034180A83B] =
    [some (.talloc ⟨10, false, .reg 12, .reg 13, .reg 14, none⟩ { lv := .sp, xshape := true, xscale := true, span := 5 }),
     some (.tfree ⟨0, false, .reg 0, .reg 13, .reg 0, none⟩),
     some (.thdr ⟨10, false, .reg 0, .reg 13, .reg 0, none⟩ 15),
     some (.thdrCtl ⟨10, false, .reg 0, .reg 13, .reg 0, none⟩),
     some (.thset ⟨0, false, .reg 12, .reg 13, .reg 14, none⟩ 14),
     some (.thsetCtl ⟨0, false, .reg 12, .reg 13, .reg 14, none⟩),
     some (.tmov ⟨10, false, .reg 12, .reg 13, .reg 0, none⟩ { os := true, rm := .rtz, sat := true }),
     some (.mma ⟨10, false, .reg 12, .reg 13, .reg 14, none⟩ true),
     some (.mwait ⟨0, false, .reg 0, .reg 13, .reg 0, none⟩),
     some (.mwaitAll ⟨0, false, .reg 0, .reg 0, .reg 0, none⟩),
     some (.quant ⟨10, false, .reg 12, .reg 13, .reg 0, none⟩)] := by decide +kernel

/-- Class 101: synchronisation (Table 10-1). -/
theorem test_decode_sync :
    [decodeTableWord 64 0x1C9007034180AA03,
     decodeTableWord 64 0x7028070341800A0B,
     decodeTableWord 64 0x060007034180AA13,
     decodeTableWord 64 0x0704000000000A1B,
     decodeTableWord 64 0x021007034180AA23] =
    [some (.atom ⟨10, false, .reg 12, .reg 13, .reg 14, none⟩ { opc := .min, u := true, ord := .rel, scope := .dev, sz := .z8 }),
     some (.red ⟨0, false, .reg 12, .reg 13, .reg 14, none⟩ { opc := .fadd, sz := .z16, sc := true }),
     some (.cas ⟨10, false, .reg 12, .reg 13, .reg 14, none⟩ { ord := .acqrel }),
     some (.fence ⟨0, false, .reg 0, .reg 0, .reg 0, none⟩ { ord := .acqrel, scope := .sys, eng := true }),
     some (.waitv ⟨10, false, .reg 12, .reg 13, .reg 14, none⟩ { ord := .acq, sz := .z8 })] := by decide +kernel

/-- Class 101: control (Table 13-1). -/
theorem test_decode_control1 :
    [decodeTableWord 64 0x0003070340000A2B,
     decodeTableWord 64 0x0008000340000A33,
     decodeTableWord 64 0x0000070340000A3B,
     decodeTableWord 64 0x0001000341800A43,
     decodeTableWord 64 0x0000000340000A4B,
     decodeTableWord 64 0x0000000341800A53,
     decodeTableWord 64 0x000000034000AA5B,
     decodeTableWord 64 0x000100034180AA5B,
     decodeTableWord 64 0x0000000001800A63,
     decodeTableWord 64 0x000000000000AA6B,
     decodeTableWord 64 0x0000000340000A73,
     decodeTableWord 64 0x000107034000AA73,
     decodeTableWord 64 0x0000000000000A7B,
     decodeTableWord 64 0x0000000000000A8B,
     decodeTableWord 64 0x0000000000000A93,
     decodeTableWord 64 0x0000000340000A9B] =
    [some (.bara ⟨0, false, .reg 0, .reg 13, .reg 14, none⟩ 3),
     some (.barw ⟨0, false, .reg 0, .reg 13, .reg 0, none⟩ 8),
     some (.bars ⟨0, false, .reg 0, .reg 13, .reg 14, none⟩ 0),
     some (.br ⟨0, false, .reg 12, .reg 13, .reg 0, none⟩ true),
     some (.jmp ⟨0, false, .reg 0, .reg 13, .reg 0, none⟩),
     some (.jmpr ⟨0, false, .reg 12, .reg 13, .reg 0, none⟩),
     some (.call ⟨10, false, .reg 0, .reg 13, .reg 0, none⟩),
     some (.callInd ⟨10, false, .reg 12, .reg 13, .reg 0, none⟩),
     some (.ret ⟨0, false, .reg 12, .reg 0, .reg 0, none⟩),
     some (.tdisp ⟨10, false, .reg 0, .reg 0, .reg 0, none⟩),
     some (.svc ⟨0, false, .reg 0, .reg 13, .reg 0, none⟩),
     some (.svcMb ⟨10, false, .reg 0, .reg 13, .reg 14, none⟩),
     some (.yield ⟨0, false, .reg 0, .reg 0, .reg 0, none⟩),
     some (.nop ⟨0, false, .reg 0, .reg 0, .reg 0, none⟩),
     some (.exit ⟨0, false, .reg 0, .reg 0, .reg 0, none⟩),
     some (.trap ⟨0, false, .reg 0, .reg 13, .reg 0, none⟩)] := by decide +kernel

/-- Class 101: control (Table 13-1). -/
theorem test_decode_control2 :
    [decodeTableWord 64 0x00000048C0000A83,
     decodeTableWord 32 0x000001FD] =
    [some (.safe ⟨0, false, .reg 0, .imm 3, .reg 0, none⟩),
     some (.nopW)] := by decide +kernel

/-- Class 110 (Tables 17-4, 18-7, 20-4). -/
theorem test_decode_system1 :
    [decodeTableWord 64 0x040300000000AC03,
     decodeTableWord 64 0x0001000340000C0B,
     decodeTableWord 64 0x040500000000AC03,
     decodeTableWord 64 0x040800000000AC03,
     decodeTableWord 64 0x0409000340000C0B,
     decodeTableWord 64 0x0000000000000C13,
     decodeTableWord 64 0x0000000341800C1B,
     decodeTableWord 64 0x0001000340000C1B,
     decodeTableWord 64 0x0002000000000C1B,
     decodeTableWord 64 0x000007034000AC23,
     decodeTableWord 64 0x000007034000AC2B,
     decodeTableWord 64 0x0000000340000C33,
     decodeTableWord 64 0x0000000340000C3B,
     decodeTableWord 64 0x000007034000AC43,
     decodeTableWord 64 0x000100034000AC43,
     decodeTableWord 64 0x000000034180AC4B] =
    [some (.rdsr ⟨10, false, .reg 0, .reg 0, .reg 0, none⟩ 0x403),
     some (.wrsr ⟨0, false, .reg 0, .reg 13, .reg 0, none⟩ 1),
     some (.trqRead ⟨10, false, .reg 0, .reg 0, .reg 0, none⟩),
     some (.mboxRead ⟨10, false, .reg 0, .reg 0, .reg 0, none⟩),
     some (.mbrplWrite ⟨0, false, .reg 0, .reg 13, .reg 0, none⟩),
     some (.eret ⟨0, false, .reg 0, .reg 0, .reg 0, none⟩),
     some (.tlbiPage ⟨0, false, .reg 12, .reg 13, .reg 0, none⟩),
     some (.tlbiCtx ⟨0, false, .reg 0, .reg 13, .reg 0, none⟩),
     some (.tlbiAll ⟨0, false, .reg 0, .reg 0, .reg 0, none⟩),
     some (.rdth ⟨10, false, .reg 0, .reg 13, .reg 14, none⟩),
     some (.wrth ⟨10, false, .reg 0, .reg 13, .reg 14, none⟩),
     some (.wake ⟨0, false, .reg 0, .reg 13, .reg 0, none⟩),
     some (.park ⟨0, false, .reg 0, .reg 13, .reg 0, none⟩),
     some (.irqbBind ⟨10, false, .reg 0, .reg 13, .reg 14, none⟩),
     some (.irqbUnbind ⟨10, false, .reg 0, .reg 13, .reg 0, none⟩),
     some (.bind ⟨10, false, .reg 12, .reg 13, .reg 0, none⟩)] := by decide +kernel

/-- Class 110 (Tables 17-4, 18-7, 20-4). -/
theorem test_decode_system2 :
    [decodeTableWord 64 0x000007034000AC53,
     decodeTableWord 64 0x0003070341800C83,
     decodeTableWord 64 0x0002000341800C8B,
     decodeTableWord 64 0x000000034180AC93,
     decodeTableWord 64 0x0000000341800C9B,
     decodeTableWord 64 0x0007000341800CA3,
     decodeTableWord 64 0x0000000341800CAB] =
    [some (.selft ⟨10, false, .reg 0, .reg 13, .reg 14, none⟩),
     some (.hashb ⟨0, false, .reg 12, .reg 13, .reg 14, none⟩ 3),
     some (.hashf ⟨0, false, .reg 12, .reg 13, .reg 0, none⟩ 2),
     some (.ecver ⟨10, false, .reg 12, .reg 13, .reg 0, none⟩),
     some (.ecsig ⟨0, false, .reg 12, .reg 13, .reg 0, none⟩),
     some (.mext ⟨0, false, .reg 12, .reg 13, .reg 0, none⟩ 7),
     some (.mread ⟨0, false, .reg 12, .reg 13, .reg 0, none⟩ 0)] := by decide +kernel

/-- The C form (Table 3-5): source code 46 is the integer 5, 54 the float 64. -/
theorem test_decode_shortC :
    [decodeTableWord 16 0xB860,
     decodeTableWord 16 0xB862,
     decodeTableWord 16 0xB864,
     decodeTableWord 16 0xB866,
     decodeTableWord 16 0xB868,
     decodeTableWord 16 0xB86A,
     decodeTableWord 16 0xB86C,
     decodeTableWord 16 0xB86E,
     decodeTableWord 16 0xB870,
     decodeTableWord 16 0xB872,
     decodeTableWord 16 0xB874,
     decodeTableWord 16 0xB876,
     decodeTableWord 16 0xDBF8,
     decodeTableWord 16 0xDBFA,
     decodeTableWord 16 0xDBFC,
     decodeTableWord 16 0xDBFE] =
    [some (.movC ⟨3, .imm 6⟩),
     some (.addC ⟨3, .imm 6⟩),
     some (.subC ⟨3, .imm 6⟩),
     some (.mulC ⟨3, .imm 6⟩),
     some (.andC ⟨3, .imm 6⟩),
     some (.orC ⟨3, .imm 6⟩),
     some (.xorC ⟨3, .imm 6⟩),
     some (.shlC ⟨3, .imm 6⟩),
     some (.shrC ⟨3, .imm 6⟩),
     some (.sarC ⟨3, .imm 6⟩),
     some (.minC ⟨3, .imm 6⟩),
     some (.maxC ⟨3, .imm 6⟩),
     some (.faddC ⟨31, .imm 14⟩),
     some (.fsubC ⟨31, .imm 14⟩),
     some (.fmulC ⟨31, .imm 14⟩),
     some (.fmaxC ⟨31, .imm 14⟩)] := by decide +kernel

/-- The W form (Table 3-14): D 100, A 7, B 129 (L2). -/
theorem test_decode_shortW1 :
    [decodeTableWord 32 0x81019001,
     decodeTableWord 32 0x810F9005,
     decodeTableWord 32 0x810F9009,
     decodeTableWord 32 0x810F900D,
     decodeTableWord 32 0x810F9011,
     decodeTableWord 32 0x810F9015,
     decodeTableWord 32 0x810F9019,
     decodeTableWord 32 0x810F901D,
     decodeTableWord 32 0x810F9021,
     decodeTableWord 32 0x810F9025,
     decodeTableWord 32 0x810F9029,
     decodeTableWord 32 0x810F902D,
     decodeTableWord 32 0x810F9031,
     decodeTableWord 32 0x810F9035,
     decodeTableWord 32 0x810F9039,
     decodeTableWord 32 0x810F903D] =
    [some (.movW ⟨100, .latch 1⟩),
     some (.addW ⟨100, 7, .latch 1⟩),
     some (.subW ⟨100, 7, .latch 1⟩),
     some (.mulW ⟨100, 7, .latch 1⟩),
     some (.mulhW ⟨100, 7, .latch 1⟩),
     some (.mulhUW ⟨100, 7, .latch 1⟩),
     some (.minW ⟨100, 7, .latch 1⟩),
     some (.maxW ⟨100, 7, .latch 1⟩),
     some (.minUW ⟨100, 7, .latch 1⟩),
     some (.maxUW ⟨100, 7, .latch 1⟩),
     some (.andW ⟨100, 7, .latch 1⟩),
     some (.orW ⟨100, 7, .latch 1⟩),
     some (.xorW ⟨100, 7, .latch 1⟩),
     some (.andnW ⟨100, 7, .latch 1⟩),
     some (.shlW ⟨100, 7, .latch 1⟩),
     some (.shrW ⟨100, 7, .latch 1⟩)] := by decide +kernel

/-- The W form (Table 3-14): D 100, A 7, B 129 (L2). -/
theorem test_decode_shortW2 :
    [decodeTableWord 32 0x810F9041,
     decodeTableWord 32 0x810F9045,
     decodeTableWord 32 0x81019049,
     decodeTableWord 32 0x8101904D,
     decodeTableWord 32 0x81019051,
     decodeTableWord 32 0x81019055,
     decodeTableWord 32 0x810F9059,
     decodeTableWord 32 0x810F905D,
     decodeTableWord 32 0x810F9061,
     decodeTableWord 32 0x810F9065,
     decodeTableWord 32 0x810F9069,
     decodeTableWord 32 0x810F906D,
     decodeTableWord 32 0x810F9071,
     decodeTableWord 32 0x810F9075,
     decodeTableWord 32 0x81019079,
     decodeTableWord 32 0x8101907D] =
    [some (.sarW ⟨100, 7, .latch 1⟩),
     some (.rotW ⟨100, 7, .latch 1⟩),
     some (.popcW ⟨100, .latch 1⟩),
     some (.clzW ⟨100, .latch 1⟩),
     some (.ctzW ⟨100, .latch 1⟩),
     some (.brevW ⟨100, .latch 1⟩),
     some (.cmpEqW ⟨100, 7, .latch 1⟩),
     some (.cmpNeW ⟨100, 7, .latch 1⟩),
     some (.cmpLtW ⟨100, 7, .latch 1⟩),
     some (.cmpGeW ⟨100, 7, .latch 1⟩),
     some (.cmpLtUW ⟨100, 7, .latch 1⟩),
     some (.cmpGeUW ⟨100, 7, .latch 1⟩),
     some (.leaW ⟨100, 7, .latch 1⟩),
     some (.add64W ⟨100, 7, .latch 1⟩),
     some (.negW ⟨100, .latch 1⟩),
     some (.absW ⟨100, .latch 1⟩)] := by decide +kernel

/-- The W form (Table 3-14): D 100, A 7, B 129 (L2). -/
theorem test_decode_shortW3 :
    [decodeTableWord 32 0x810F9101,
     decodeTableWord 32 0x810F9105,
     decodeTableWord 32 0x810F9109,
     decodeTableWord 32 0x810F910D,
     decodeTableWord 32 0x810F9111,
     decodeTableWord 32 0x810F9115,
     decodeTableWord 32 0x810F9119,
     decodeTableWord 32 0x810F911D,
     decodeTableWord 32 0x810F9121,
     decodeTableWord 32 0x810F9125,
     decodeTableWord 32 0x810F9129,
     decodeTableWord 32 0x810F912D,
     decodeTableWord 32 0x81019131,
     decodeTableWord 32 0x81019135,
     decodeTableWord 32 0x81019141,
     decodeTableWord 32 0x81019145] =
    [some (.faddW ⟨100, 7, .latch 1⟩),
     some (.fsubW ⟨100, 7, .latch 1⟩),
     some (.fmulW ⟨100, 7, .latch 1⟩),
     some (.fminW ⟨100, 7, .latch 1⟩),
     some (.fmaxW ⟨100, 7, .latch 1⟩),
     some (.faddBf16x2W ⟨100, 7, .latch 1⟩),
     some (.fmulBf16x2W ⟨100, 7, .latch 1⟩),
     some (.faddF16x2W ⟨100, 7, .latch 1⟩),
     some (.fmulF16x2W ⟨100, 7, .latch 1⟩),
     some (.fcmpLtW ⟨100, 7, .latch 1⟩),
     some (.fcmpLeW ⟨100, 7, .latch 1⟩),
     some (.fcmpEqW ⟨100, 7, .latch 1⟩),
     some (.cvtF32I32W ⟨100, .latch 1⟩),
     some (.cvtI32F32W ⟨100, .latch 1⟩),
     some (.frcpW ⟨100, .latch 1⟩),
     some (.frsqW ⟨100, .latch 1⟩)] := by decide +kernel

/-- The W form (Table 3-14): D 100, A 7, B 129 (L2). -/
theorem test_decode_shortW4 :
    [decodeTableWord 32 0x81019149,
     decodeTableWord 32 0x8101914D,
     decodeTableWord 32 0x81019151,
     decodeTableWord 32 0x810F9181,
     decodeTableWord 32 0x810F9185,
     decodeTableWord 32 0x810F9189,
     decodeTableWord 32 0x810F918D,
     decodeTableWord 32 0x810F9191,
     decodeTableWord 32 0x810F9195] =
    [some (.fsqrtW ⟨100, .latch 1⟩),
     some (.fexp2W ⟨100, .latch 1⟩),
     some (.flog2W ⟨100, .latch 1⟩),
     some (.ld4W ⟨100, 7, .latch 1⟩),
     some (.ld8W ⟨100, 7, .latch 1⟩),
     some (.ld1W ⟨100, 7, .latch 1⟩),
     some (.ld1SxW ⟨100, 7, .latch 1⟩),
     some (.ld2W ⟨100, 7, .latch 1⟩),
     some (.ld2SxW ⟨100, 7, .latch 1⟩)] := by decide +kernel

/-! ## The spec's own worked encodings -/

/-- Tables 3-15, 6-3 and 7-9: C and W forms. -/
theorem test_worked_short :
    [decodeTableWord 16 0xB862,
     decodeTableWord 32 0x810F9021,
     decodeTableWord 32 0xAF52A069,
     decodeTableWord 32 0xAA3E7929,
     decodeTableWord 32 0x28003145] =
    [some (.addC ⟨3, .imm 6⟩),
     some (.minUW ⟨100, 7, .latch 1⟩),
     some (.cmpLtUW ⟨40, 41, .imm 7⟩),
     some (.fcmpLeW ⟨30, 31, .imm 2⟩),
     some (.frsqW ⟨12, .reg 40⟩)] := by decide +kernel

/-- Tables 3-15, 6-3, 7-9 and 8-7: D and L forms of the computing classes. -/
theorem test_worked_compute :
    [decodeTableWord 64 0x40008EC00190021B,
     decodeTableWord 64 0x0B0000030160A013,
     decodeTableWord 64 0x00000381408060DB,
     decodeTableWord 96 0x000008050100007FC06090E7,
     decodeTableWord 64 0x080003014080821B,
     decodeTableWord 64 0x0E100001C000325B,
     decodeTableWord 64 0x70008F800121451B,
     decodeTableWord 64 0x000091486400782B,
     decodeTableWord 64 0x00000048A580B83B,
     decodeTableWord 64 0x0001000000000833] =
    [some (.ffma ⟨0, true, .reg 12, .latch 0, .imm (-3), none⟩ { rm := .rtz }),
     some (.add ⟨10, false, .reg 11, .reg 12, .reg 0, none⟩ { ew := .q4, sat := true, u := true }),
     some (.fsh ⟨6, false, .reg 4, .reg 5, .reg 7, none⟩),
     some (.bfx ⟨9, false, .reg 3, .lit, .reg 0, some 0x805⟩ { u := true }),
     some (.ffma ⟨8, false, .reg 4, .reg 5, .reg 6, none⟩ { pk := .bf16x2 }),
     some (.cvt ⟨3, false, .reg 0, .reg 7, .reg 0, none⟩ { df := .e2m1, sf := .f32, sat := true }),
     some (.lred ⟨20, false, .reg 9, .reg 0, .imm (-1), none⟩ ⟨.fadd, false, false⟩),
     some (.mma ⟨7, false, .imm 0, .imm 1, .imm 2, none⟩ false),
     some (.quant ⟨11, false, .imm 12, .imm 2, .reg 0, none⟩),
     some (.mwaitAll ⟨0, false, .reg 0, .reg 0, .reg 0, none⟩)] := by decide +kernel

/-- Tables 3-15, 10-10, 18-5 and 19-8, and the worked cases of 23: memory, engines and doorbells. -/
theorem test_worked_memory :
    [decodeTableWord 96 0x000010004000007FC0814607,
     decodeTableWord 96 0x000000108000007FC141460F,
     decodeTableWord 64 0x000007030141463B,
     decodeTableWord 64 0x0000070301414653,
     decodeTableWord 64 0x000007028181565B,
     decodeTableWord 96 0x000000406000037FC0800667,
     decodeTableWord 96 0x000000204000FFC801C00667] =
    [some (.ld ⟨20, false, .reg 4, .lit, .reg 0, some 0x1000⟩ { size := .s4 }),
     some (.st ⟨20, false, .reg 10, .lit, .reg 0, some 0x10⟩ { size := .s16 }),
     some (.cpy ⟨20, false, .reg 10, .reg 12, .reg 14, none⟩ false),
     some (.cpySeal ⟨20, false, .reg 10, .reg 12, .reg 14, none⟩),
     some (.cpyOpen ⟨21, false, .reg 12, .reg 10, .reg 14, none⟩),
     some (.dbell ⟨0, false, .reg 4, .lit, .reg 6, some 0x40⟩ true),
     some (.dbell ⟨0, false, .reg 14, .imm 0, .lit, some 0x20⟩ false)] := by decide +kernel

/-- Tables 13-6 and 19-8: control and waiting. -/
theorem test_worked_control :
    [decodeTableWord 96 0xFFFFFFC00001007FC0A00A47,
     decodeTableWord 64 0x000087C880000A3B,
     decodeTableWord 64 0x00000048C0000A83,
     decodeTableWord 64 0x0000000000014A6B,
     decodeTableWord 64 0x0001054940009A73,
     decodeTableWord 96 0x001800110001FFC840008A77,
     decodeTableWord 96 0x000000180000007FC0000A37] =
    [some (.br ⟨0, false, .reg 5, .lit, .reg 0, some 0xFFFFFFC0⟩ true),
     some (.bars ⟨0, false, .reg 0, .imm 2, .special .nth, none⟩ 0),
     some (.safe ⟨0, false, .reg 0, .imm 3, .reg 0, none⟩),
     some (.tdisp ⟨20, false, .reg 0, .reg 0, .reg 0, none⟩),
     some (.svcMb ⟨9, false, .reg 0, .imm 5, .reg 10, none⟩),
     some (.svcMb ⟨8, false, .reg 0, .imm 1, .lit, some 0x180011⟩),
     some (.barw ⟨0, false, .reg 0, .lit, .reg 0, some 0x18⟩ 0)] := by decide +kernel

/-- Tables 17-7, 20-5 and 21-4 and the worked case of R344: system and security. -/
theorem test_worked_system :
    [decodeTableWord 64 0x0403000000006C03,
     decodeTableWord 64 0x0001004800000C0B,
     decodeTableWord 64 0x00000001C0800C1B,
     decodeTableWord 64 0x000001808000AC23,
     decodeTableWord 64 0x000000494100CC4B,
     decodeTableWord 96 0x000000190000FF8100009C47,
     decodeTableWord 64 0x000103C800800C83,
     decodeTableWord 96 0x000000400001007FC1400C8F,
     decodeTableWord 64 0x0000004801006C93,
     decodeTableWord 64 0x0001004800800CA3,
     decodeTableWord 64 0x0000004805C00C9B,
     decodeTableWord 96 0x000001500007007FC5C00CAF] =
    [some (.rdsr ⟨6, false, .reg 0, .reg 0, .reg 0, none⟩ 0x403),
     some (.wrsr ⟨0, false, .reg 0, .imm 0, .reg 0, none⟩ 1),
     some (.tlbiPage ⟨0, false, .reg 4, .reg 7, .reg 0, none⟩),
     some (.rdth ⟨10, false, .reg 0, .reg 2, .reg 3, none⟩),
     some (.bind ⟨12, false, .reg 8, .imm 5, .reg 0, none⟩),
     some (.irqbBind ⟨9, false, .reg 0, .reg 4, .lit, some 0x19⟩),
     some (.hashb ⟨0, false, .reg 4, .imm 0, .reg 7, none⟩ 1),
     some (.hashf ⟨0, false, .reg 10, .lit, .reg 0, some 0x40⟩ 1),
     some (.ecver ⟨6, false, .reg 8, .imm 0, .reg 0, none⟩),
     some (.mext ⟨0, false, .reg 4, .imm 0, .reg 0, none⟩ 1),
     some (.ecsig ⟨0, false, .reg 46, .imm 0, .reg 0, none⟩),
     some (.mread ⟨0, false, .reg 46, .lit, .reg 0, some 0x150⟩ 7)] := by decide +kernel

/-- Tables 8-7, 10-10, 14-6, 15-6, 16-7, 21-4 and 24-6. -/
theorem test_worked_programs :
    [decodeTableWord 16 0x5DE2,
     decodeTableWord 64 0x8000004924A08823,
     decodeTableWord 64 0x6000004A0080660B,
     decodeTableWord 64 0x40700582A4609613,
     decodeTableWord 64 0x069007480080CA03,
     decodeTableWord 64 0x702804C800800A0B,
     decodeTableWord 64 0x028015480502AA23,
     decodeTableWord 64 0x00008FC80281450B,
     decodeTableWord 96 0xA00000400000FF8106032647,
     decodeTableWord 96 0x0000003F0000000D3FE350B7,
     decodeTableWord 64 0x00008F8D46C33503,
     decodeTableWord 64 0x000000482003E063,
     decodeTableWord 64 0x80000602E400461B,
     decodeTableWord 64 0x8600004801810603] =
    [some (.addC ⟨15, .reg 23⟩),
     some (.tmov ⟨8, false, .imm 5, .imm 4, .reg 0, none⟩ { os := true }),
     some (.st ⟨6, false, .reg 4, .imm 8, .reg 0, none⟩ { size := .s8 }),
     some (.ldt ⟨9, false, .imm 3, .reg 10, .reg 11, none⟩ { size := .s4, col := true, wf := true, clr := true }),
     some (.atom ⟨12, false, .reg 4, .imm 0, .reg 14, none⟩ { opc := .add, ord := .acqrel, scope := .dev, sz := .z8 }),
     some (.red ⟨0, false, .reg 4, .imm 0, .reg 9, none⟩ { opc := .fadd, sz := .z16, sc := true }),
     some (.waitv ⟨42, false, .reg 40, .imm 0, .reg 42, none⟩ { ord := .acq, scope := .dev }),
     some (.bcst ⟨20, false, .reg 20, .imm 0, .imm (-1), none⟩),
     some (.gth ⟨50, false, .reg 48, .reg 4, .lit, some 0xA0000040⟩),
     some (.andn ⟨53, false, .lit, .reg 52, .reg 0, some 0x3F⟩),
     some (.shfl ⟨51, false, .reg 54, .reg 53, .imm (-1), none⟩ .idx),
     some (.lea ⟨62, false, .latch 0, .imm 0, .reg 0, none⟩ {}),
     some (.stt ⟨4, false, .imm 0, .reg 11, .reg 12, none⟩ { size := .s16 }),
     some (.ld ⟨16, false, .reg 12, .imm 0, .reg 0, none⟩ { size := .s16, ord := true, scope := .sys })] := by decide +kernel

/-- Table 3-15: the FFMA is stored as these bytes. -/
theorem test_worked_bytes : encode (.ffma ⟨0, true, .reg 12, .latch 0, .imm (-3), none⟩ { rm := .rtz }) =
    [0x1B, 0x02, 0x90, 0x01, 0xC0, 0x8E, 0x00, 0x40] := by decide +kernel

/-! ## What is refused -/

/-- Ill-formed terms, one for each check of WellFormed (R56-R60, R65, R132). -/
theorem test_illFormed :
    [-- a literal named by no operand, and an operand that names a literal that is not there
     (Instr.mov ⟨3, false, .reg 0, .reg 1, .reg 0, some 5⟩).reject, (Instr.mov ⟨3, false, .reg 0, .lit, .reg 0, none⟩).reject,
     -- a register-only field that holds an immediate, a field that takes only a register or a latch, a field that takes
     -- only an immediate
     (Instr.ld ⟨3, false, .imm 4, .reg 1, .reg 0, none⟩ { size := .s4 }).reject,
     (Instr.ret ⟨0, false, .imm 4, .reg 0, .reg 0, none⟩).reject, (Instr.safe ⟨0, false, .reg 0, .reg 3, .reg 0, none⟩).reject,
     -- unused fields that are not zero
     (Instr.mov ⟨3, false, .reg 9, .reg 1, .reg 0, none⟩).reject, (Instr.add ⟨3, false, .reg 9, .reg 1, .reg 2, none⟩ {}).reject,
     (Instr.yield ⟨3, false, .reg 0, .reg 0, .reg 0, none⟩).reject,
     -- N beside a D, N where there is no result, N on CAS
     (Instr.mov ⟨3, true, .reg 0, .reg 1, .reg 0, none⟩).reject, (Instr.yield ⟨0, true, .reg 0, .reg 0, .reg 0, none⟩).reject,
     (Instr.cas ⟨0, true, .reg 4, .reg 1, .reg 2, none⟩ {}).reject,
     -- modifiers the instruction does not name, or values it does not accept
     (Instr.mul ⟨3, false, .reg 9, .reg 1, .reg 0, none⟩).reject,
     (Instr.mulh ⟨3, false, .reg 9, .reg 1, .reg 0, none⟩ { sat := true }).reject,
     (Instr.cmp ⟨3, false, .reg 9, .reg 1, .reg 0, none⟩ { cond := .un }).reject,
     (Instr.add ⟨3, false, .reg 9, .reg 1, .reg 0, none⟩ { u := true }).reject] =
    [some .literalForm, some .literalForm, some .sourceKind, some .sourceKind, some .sourceKind,
     some .unusedField, some .unusedField, some .unusedField, some .noWriteBack, some .noWriteBack, some .noWriteBack,
     none, some .reservedModifier, some .reservedModifier, some .reservedModifier] := by decide +kernel

def refusal (n w : Nat) : Option Reject :=
  match decode (bytesOf n w) with | .ok _ => none | .error e => some e

/-- Words the decoder refuses, by name: the D opcode 0x1FF and the W opcode 0xFF are unassigned; source code 304 is
reserved; code 511 in a D form and an L form of which no field holds 511; a non-zero C field of ADD; N with a D;
MOD bit 0 of ADD and EW = 11; an instruction cut short. -/
theorem test_refused :
    [refusal 8 0x0000000000000FFB, refusal 4 0x000003FD, refusal 8 0x0000004C0160A013,
     refusal 8 0x0000007FC160A013, refusal 12 0x0000080501000003006090E7, refusal 8 0x000002830160A013,
     refusal 8 0x000000030170A013, refusal 8 0x000100030160A013, refusal 8 0x0C0000030160A013,
     refusal 6 0x000000030160A013, refusal 0 0] =
    [some .unassignedOpcode, some .unassignedOpcode, some .reservedSource, some .literalForm, some .literalForm,
     some .unusedField, some .noWriteBack, some .reservedModifier, some .reservedModifier, some .truncated,
     some .truncated] := by decide +kernel

/-! ## Single instructions whose results the spec works out -/

/-- The machine after reset with these registers in the management core's thread, which has the turn. -/
def having (regs : List (Nat × Word)) (fmode : BitVec 3 := 0) : State :=
  { State.reset with cur := .mgmt, mgmt := { State.reset.mgmt with thread := { pc := 0x100, regs := regs, fmode := fmode } } }

/-- These registers, then FLAGS, after one instruction. -/
def after (i : Instr) (s : State) (rs : List Nat) : Option (List Word × BitVec 7) :=
  match exec i s with
  | .next t => some (rs.map (t.thread .mgmt).reg, (t.thread .mgmt).flags)
  | _ => none

def abs3 (d a b : BitVec 8) (c : Src := .reg 0) : DF := ⟨d, false, .reg a, .reg b, c, none⟩

/-- Table 6-2. -/
theorem test_add_packed :
    ([{ ew := .q4 }, { ew := .q4, sat := true }, { ew := .q4, sat := true, u := true }].map fun m =>
      after (.add (abs3 10 11 12) m) (having [(11, 0x7F8010F0), (12, 0x0180F010)]) [10]) =
    [some ([0x80000000], 0), some ([0x7F800000], 0x40), some ([0x80FFFFFF], 0x40)] := by decide +kernel

theorem test_max_packed :
    after (.max (abs3 10 11 12) { ew := .q4, u := true }) (having [(11, 0x7F8010F0), (12, 0x0180F010)]) [10] =
    some ([0x7F80F0F0], 0) := by decide +kernel

/-- The worked case below Table 6-2. -/
theorem test_shifts_packed :
    [after (.shr (abs3 1 2 3) { ew := .h2 }) (having [(2, 0x80001234), (3, 0x00100004)]) [1],
     after (.sar (abs3 1 2 3) { ew := .h2 }) (having [(2, 0x80001234), (3, 0x00100004)]) [1],
     after (.shl (abs3 1 2 3) { ew := .h2, sat := true }) (having [(2, 0x80001234), (3, 0x00100004)]) [1]] =
    [some ([0x00000123], 0), some ([0xFFFF0123], 0), some ([0x80007FFF], 0x40)] := by decide +kernel

/-- The 96-bit addition of 06: the carry leaves in the odd register and enters through bit 0 of c. -/
theorem test_addc_carry :
    [after (.addc (abs3 10 0 3 (.imm 0))) (having [(0, 0xFFFFFFFF), (3, 1)]) [10, 11],
     after (.addc (abs3 14 2 5 (.reg 13))) (having [(2, 1), (5, 0x80000000), (13, 1)]) [14, 15]] =
    [some ([0, 1], 0), some ([0x80000002, 0], 0)] := by decide +kernel

/-- R137: LI and LI.u of 0x80000000. -/
theorem test_li :
    [after (.li ⟨4, false, .reg 0, .lit, .reg 0, some 0x80000000⟩ { u := true }) (having []) [4, 5],
     after (.li ⟨4, false, .reg 0, .lit, .reg 0, some 0x80000000⟩ {}) (having []) [4, 5]] =
    [some ([0x80000000, 0], 0), some ([0x80000000, 0xFFFFFFFF], 0)] := by decide +kernel

/-- Below Table 6-3: CMP.lt.u and CMP.lt of 0xFFFFFFF0 and 7; BFX.u of bits 12:5. -/
theorem test_cmp_bfx :
    [after (.cmpLtUW ⟨40, 41, .imm 7⟩) (having [(40, 9), (41, 0xFFFFFFF0)]) [40],
     after (.cmp ⟨40, false, .reg 41, .imm 7, .reg 0, none⟩ { cond := .lt }) (having [(41, 0xFFFFFFF0)]) [40],
     after (.bfx ⟨9, false, .reg 3, .lit, .reg 0, some 0x0805⟩ { u := true }) (having [(3, 0xFFFFE01F ||| 0x12A0)]) [9]] =
    [some ([0], 0), some ([1], 0), some ([0x95], 0)] := by decide +kernel

/-- The worked cases of 07: two BF16 sums under RNE and `.rup`, and the conversion of four E4M3 elements. -/
theorem test_fadd_packed :
    [after (.fadd (abs3 1 2 3) { pk := .bf16x2 }) (having [(2, 0x3F803F80), (3, 0x3B803C00)]) [1],
     after (.fadd (abs3 1 2 3) { pk := .bf16x2, rm := .rup }) (having [(2, 0x3F803F80), (3, 0x3B803C00)]) [1]] =
    [some ([0x3F803F81], 0x01), some ([0x3F813F81], 0x01)] := by decide +kernel

theorem test_cvt :
    after (.cvt (abs3 2 0 3) { df := .e2m1, sf := .e4m3 }) (having [(3, 0x287FCA42)]) [2] = some ([0x0FE4], 0x33) := by
  decide +kernel

/-- R59: an integer immediate of a float operand is read as the number itself. -/
theorem test_float_immediate :
    after (.faddW ⟨1, 2, .imm 20⟩) (having [(2, 0x3F800000)]) [1] = some ([0x41A80000], 0) := by decide +kernel

/-- R34, R35: a latch that no instruction has filled raises LATCH_EMPTY, saves the pc and enters the handler. -/
theorem test_latchEmpty :
    (match exec (.mov ⟨3, false, .reg 0, .latch 4, .reg 0, none⟩) (having []) with
     | .next t => let th := t.thread .mgmt; (th.causeActive, th.causeCode, th.epc) == (true, Cause.latchEmpty.code, 0x100)
     | _ => false) = true := by decide +kernel

/-- R33: the poison of a source reaches the result. -/
theorem test_poison :
    (match exec (.xor (abs3 3 1 2)) ((having [(1, 5), (2, 6)]).modThread .mgmt fun th => { th with poison := [(2, true)] }) with
     | .next t => ((t.thread .mgmt).reg 3, (t.thread .mgmt).regPoison 3) == (3, true)
     | _ => false) = true := by decide +kernel

/-- A step from reset runs the word placed at the reset address (R50): ADD.q4 has four parcels. -/
theorem test_step :
    (match step (State.reset.withFetchWord 64 0x0B0000030160A013) with
     | .next t => (t.thread .mgmt).pc == 0x108
     | _ => false) = true := by decide +kernel

end Sys2Proof.Tests
end

