-- ==== Sys2Proof/Tests/Witness.lean ====
section
/-! SUPPORT. Small states that meet the hypotheses of the statements: a named witness for each statement of Obligations.lean,
and for each of its clauses. -/

set_option Elab.async false

namespace Sys2Proof.Tests
open Sys2Proof.Machine Sys2Proof.Claims

/-! ## Helpers -/

theorem named {s : State} {h : Hart} {us : List OpUse} (e : opCheck s h us = none) : Named s h us := e
theorem turnMgmt {s : State} (e : s.cur = .mgmt) : Turn s .mgmt := ⟨e, by intro c l h; cases h⟩
theorem turnUser {s : State} {c t : Nat} (e : s.cur = .user c t) : Turn s (.user c t) := ⟨e, by intro c l h; cases h⟩

/-- A D form without a literal. -/
def df (d : BitVec 8) (a b c : Src) (n : Bool := false) : DF := ⟨d, n, a, b, c, none⟩

/-- A workgroup of 128 threads with 32 registers each, alone on core 0. -/
def wgA : Workgroup :=
  { ctx := 0, slot := 0, cx := 0, cy := 0, rw := 1, rh := 1, nth := 128, regs := 32, hdr := 0x10000, args := 0,
    safe := [⟨0x40, 0x80, 0⟩], nbv := false }

/-- A thread with small numbers in registers 1–15. -/
def thA : Thread :=
  { regs := [(1, 5), (2, 7), (3, 0x80000000), (4, 0x1000), (6, 0x20000), (8, 1), (10, 64), (12, 1), (15, 0xFFFFFFFF)] }

def coreA : Core := { started := true, wg := some wgA, threads := [(0, thA)] }

/-- Thread 0 of core 0 has the turn; virtual addresses below 2^38 are the physical ones, readable, writable and
executable at U level (one level-2 leaf at 0x8000 under the root 0x4000 of context 0). -/
def sU : State :=
  { State.reset with
    cur := .user 0 0
    cores := [(0, coreA)]
    mem := [(0x4000, 0x01), (0x4001, 0x81), (0x8000, 0x3F), (0x8001, 0x01)]
    io := { ftop := 0x4000000000, ctxs := [(0, BitVec.ofNat 256 0x4000)] } }

/-- The same machine with the turn on the management core, whose registers hold addresses of SRAM (0x100000 …) and of
control space. -/
def sM : State :=
  { sU with
    cur := .mgmt
    mgmt := { thread := {
      pc := 0x100
      regs := [(1, 5), (2, 7), (3, 0x80000000), (4, 0x100000), (6, 0x100), (8, 1), (11, 0x04000000), (12, 0x3F800000),
        (13, 0x7F800000), (15, 0x08008000)] } }
    io := { sU.io with ptop := 0x900000000000, pmode := 6, links := [(0, some { up := true, rate := 1, cxl := false, module := 2, reached := [2] })],
                       ntb := [(0, BitVec.ofNat 256 (2 ^ 255 + 2 ^ 64 * 0x800000000000))] } }

/-- The same machine with the turn on the supervisor group of core 0. -/
def sG : State := { sU with cur := .sup 0 }

/-- The same state with other fields of core 0, or of its thread 0. -/
def withCore (f : Core → Core) : State := sU.modCore 0 f
def withThread (f : Thread → Thread) : State := sU.modThread (.user 0 0) f

/-- `op r20 ← 0, 0` with immediates. -/
def dfImm : DF := df 20 (.imm 0) (.imm 0) (.imm 0)

/-! ## Computing instructions -/

/-- A state reached by a translation that ended with `r`. -/
theorem placed {α β : Type} {x : α × β} {r : α} (e : x.1 = r) : x = (r, x.2) := by rw [← e]

abbrev U : Hart := .user 0 0
/-- `op d ← r1, r2, r8`. -/
def dfA : DF := df 20 (.reg 1) (.reg 2) (.reg 8)
/-- `op d(pair) ← pair r4, r20, r1`: an address. -/
def dfAddr : DF := df 22 (.reg 4) (.reg 20) (.reg 1)

/-! ## Computing instructions -/

theorem witness_integerWordCompletes : ∃ r, Turn sU U ∧ intWord sU U (.add dfA {}) = some r ∧
    Named sU U (r.uses ++ r.f.dst .w32) := ⟨_, turnUser rfl, rfl, named (by decide +kernel)⟩

theorem witness_integerPairCompletes : ∃ r, Turn sU U ∧ intPair sU U (.addc dfA) = some r ∧
    Named sU U (r.uses ++ r.f.dst .pair) := ⟨_, turnUser rfl, rfl, named (by decide +kernel)⟩

theorem witness_floatCompletes : ∃ r, Turn sU U ∧ floatWord sU U (.ffma dfA {}) = some r ∧
    Named sU U (r.uses ++ r.f.dst .w32) := ⟨_, turnUser rfl, rfl, named (by decide +kernel)⟩

theorem witness_loneLaneCompletes : ∃ x, UserTurn sU 0 0 ∧ crossLane (.lred dfA ⟨.add, false, false⟩) = some x ∧
    Named sU U x.uses ∧ FreeLane sU 0 0 ∧ sU.opPair U x.f.c = BitVec.ofNat 64 (2 ^ (0 % 64)) ∧
    sU.opPoison U x.f.c .pair = false :=
  ⟨_, rfl, rfl, named (by decide +kernel), by unfold FreeLane; decide +kernel, by decide +kernel, by decide +kernel⟩

/-- LRED.add of registers 1, with the mask in pair 8: threads 0 and 1 of row 1. Thread 1 has arrived; thread 0 has the turn. -/
def lredA : Instr := .lred dfA ⟨.add, false, false⟩
def memberB : XMember := { lane := 1, op := .lred .add false, x := 9, xp := false, y := none, yp := false, fmode := 0, dst := ⟨20, false⟩ }
/-- An open group of the mask, thread 1 its member. -/
def sCross (mask : Nat) : State :=
  withCore (fun k => { k with
    threads := [(0, { thA with regs := [(1, 5), (8, BitVec.ofNat 32 mask)] }), (1, { thA with run := .parked .xlane, npc := 0x40 })]
    groups := [⟨1, BitVec.ofNat 64 mask, [memberB]⟩] })
/-- Of the lanes 0, 1 and 2 the third is still awaited; of the lanes 0 and 1 none, and each member has a result. -/
theorem witness_loneLaneCompletes_group : ∃ x, crossLane lredA = some x ∧ (∀ mask ∈ [3, 7], UserTurn (sCross mask) 0 0 ∧
    opCheck (sCross mask) U x.uses = none ∧
    (∀ q ∈ maskTraps ((sCross mask).core 0) 0 (1 + 0 / 64) (0 % 64) ((sCross mask).opPair U x.f.c) ((sCross mask).opPoison U x.f.c .pair),
      q.1 = false) ∧
    ((sCross mask).core 0).groups.find? (fun g => g.row == 1 + 0 / 64 && g.mask.getLsbD (0 % 64)) =
      some ⟨1, BitVec.ofNat 64 mask, [memberB]⟩ ∧
    (∀ g' ∈ ((sCross mask).core 0).groups, g'.row = 1 + 0 / 64 → ∀ m ∈ g'.members, m.lane ≠ 0 % 64) ∧
    (let ms := insertMember (memberOf (sCross mask) U lredA x) [memberB]
     (ms.map (·.lane)).Nodup ∧ (∀ m ∈ ms, (memberResult ms m).isSome = true) ∧
       ((∀ l, l < 64 → (BitVec.ofNat 64 mask).getLsbD l = true → ∃ m ∈ ms, m.lane = l) ↔ mask = 3))) :=
  ⟨_, rfl, by unfold UserTurn; decide +kernel⟩

/-- A thread alone of its row opens a group of lanes 0 and 1. -/
def sOpens : State := withCore (fun k => { k with
  threads := [(0, { thA with regs := [(1, 5), (8, 3)] }), (1, thA)] })
theorem witness_loneLaneCompletes_opens : ∃ x, crossLane lredA = some x ∧ UserTurn sOpens 0 0 ∧ opCheck sOpens U x.uses = none ∧
    (∀ q ∈ maskTraps (sOpens.core 0) 0 (1 + 0 / 64) (0 % 64) (sOpens.opPair U x.f.c) (sOpens.opPoison U x.f.c .pair), q.1 = false) ∧
    (sOpens.core 0).groups = [] ∧ (∃ l, l < 64 ∧ l ≠ 0 % 64 ∧ (sOpens.opPair U x.f.c).getLsbD l = true) :=
  ⟨_, rfl, rfl, by decide +kernel, by decide +kernel, by decide +kernel, by decide +kernel⟩

/-! ## Memory -/

theorem requestWaits_free {s : State} {h : Hart} (free : s.requestFree h = true) (links : s.io.links = []) (pa : Nat) :
    s.requestWaits h (.dev pa) = false := by
  have tags : s.tagsUsed pa = false := by
    unfold State.tagsUsed
    split
    · rw [links]; rfl
    · rfl
  simp [State.requestWaits, free, tags]
theorem requestWaitsU (pa : Nat) : sU.requestWaits U (.dev pa) = false := requestWaits_free (by decide +kernel) rfl pa

theorem witness_loadCompletes_memory : Turn sM .mgmt ∧ ldForm (.ld dfAddr { size := .s4 }) = some (dfAddr.fields, { size := .s4 }) ∧
    Named sM .mgmt (ldUses dfAddr.fields { size := .s4 }) ∧ AddrOk sM .mgmt dfAddr.fields 4 false ∧
    sM.place .mgmt .load (sM.addrOf .mgmt dfAddr.fields).toNat = (.at (.sram 0) 0, sM) ∧ Readable sM (.sram 0) ∧ sM.requestWaits .mgmt (.sram 0) = false ∧
    sM.loadWaits .mgmt (.sram 0) 4 = false :=
  ⟨turnMgmt rfl, rfl, named (by decide +kernel), by unfold AddrOk Clean; decide +kernel, rfl, trivial, by decide +kernel, by decide +kernel⟩

theorem witness_loadCompletes_control : Turn sM .mgmt ∧ Named sM .mgmt (ldUses (df 22 (.reg 10) (.reg 20) (.reg 0)).fields { size := .s8 }) ∧
    AddrOk sM .mgmt (df 22 (.reg 10) (.reg 20) (.reg 0)).fields 8 false ∧
    sM.place .mgmt .load (sM.addrOf .mgmt (df 22 (.reg 10) (.reg 20) (.reg 0)).fields).toNat = (.at (.ctl 0) 0, sM) :=
  ⟨turnMgmt rfl, named (by decide +kernel), by unfold AddrOk Clean; decide +kernel, rfl⟩

theorem witness_loadCompletes_peer : Turn sM .mgmt ∧ Named sM .mgmt (ldUses (df 22 (.reg 14) (.reg 20) (.reg 0)).fields { size := .s4 }) ∧
    AddrOk sM .mgmt (df 22 (.reg 14) (.reg 20) (.reg 0)).fields 4 false ∧
    sM.place .mgmt .load (sM.addrOf .mgmt (df 22 (.reg 14) (.reg 20) (.reg 0)).fields).toNat = (.at (.dev 0x800000000000) 0, sM) ∧
    isPeer 0x800000000000 = true ∧ sM.peerWindow? 0x800000000000 = some 0 ∧
    sM.requestWaits .mgmt (.dev 0x800000000000) = false ∧ sM.loadWaits .mgmt (.dev 0x800000000000) 4 = false :=
  ⟨turnMgmt rfl, named (by decide +kernel), by unfold AddrOk Clean; decide +kernel, placed (by decide +kernel), by decide,
    by decide +kernel, by decide +kernel, by decide +kernel⟩

theorem witness_storeCompletes : Turn sM .mgmt ∧ Named sM .mgmt (addrUses dfAddr.fields ++ [(.reg 22, .pair)]) ∧
    AddrOk sM .mgmt dfAddr.fields 8 true ∧ sM.opPoison .mgmt (.reg 22) .pair = false ∧
    sM.place .mgmt .store (sM.addrOf .mgmt dfAddr.fields).toNat = (.at (.sram 0) 0, sM) ∧ sM.queueFull .mgmt = false :=
  ⟨turnMgmt rfl, named (by decide +kernel), by unfold AddrOk Clean; decide +kernel, by decide +kernel, rfl, by decide +kernel⟩

theorem witness_storeCompletes_control : Named sM .mgmt (addrUses (df 22 (.reg 10) (.reg 20) (.reg 0)).fields ++ [(.reg 22, .pair)]) ∧
    AddrOk sM .mgmt (df 22 (.reg 10) (.reg 20) (.reg 0)).fields 8 true ∧
    sM.place .mgmt .store (sM.addrOf .mgmt (df 22 (.reg 10) (.reg 20) (.reg 0)).fields).toNat = (.at (.ctl 0) 0, sM) ∧
    sM.orderHome .mgmt = true ∧ (sM.thread .mgmt).mv.fencedRel.isSome = false :=
  ⟨named (by decide +kernel), by unfold AddrOk Clean; decide +kernel, rfl, by decide +kernel, by decide +kernel⟩

theorem witness_atomicCompletes_memory : ∃ r, Turn sM .mgmt ∧ rmwForm sM .mgmt (.cas dfAddr { opc := .add, sz := .z4, ord := .acqrel }) = some r ∧
    Named sM .mgmt (addrUses r.f ++ [(r.f.c, .w32)] ++ r.uses) ∧ AddrOk sM .mgmt r.f 4 true ∧
    sM.opPoison .mgmt r.f.c .w32 = false ∧ r.dPoison = false ∧
    sM.place .mgmt .atomic (sM.addrOf .mgmt r.f).toNat = (.at (.sram 0) 0, sM) ∧
    sM.atomReady .mgmt (.sram 0) (relScope (sM.thread .mgmt) (if r.ordered && ordRel r.m.ord then some r.m.scope else none)) = true ∧
    sM.atomicWaits .mgmt (.sram 0) 4 = false ∧ sM.requestWaits .mgmt (.sram 0) = false :=
  ⟨_, turnMgmt rfl, rfl, named (by decide +kernel), by unfold AddrOk Clean; decide +kernel, by decide +kernel, by decide +kernel, rfl,
    by decide +kernel, by decide +kernel, by decide +kernel⟩

/-- RED.sc of 1.0 and of infinity. -/
theorem witness_atomicCompletes_cell : ∀ c ∈ [(12 : BitVec 8), 13], let f := df 22 (.reg 4) (.reg 20) (.reg c)
    Turn sM .mgmt ∧ Named sM .mgmt (addrUses f.fields ++ [(f.fields.c, .w32)]) ∧ AddrOk sM .mgmt f.fields 16 true ∧
    sM.opPoison .mgmt f.fields.c .w32 = false ∧
    sM.place .mgmt .atomic (sM.addrOf .mgmt f.fields).toNat = (.at (.sram 0) 0, sM) ∧
    sM.atomReady .mgmt (.sram 0) (relScope (sM.thread .mgmt) none) = true ∧
    sM.atomicWaits .mgmt (.sram 0) 16 = false ∧ sM.requestWaits .mgmt (.sram 0) = false := by
  intro c hc
  simp only [List.mem_cons, List.not_mem_nil, or_false] at hc
  rcases hc with rfl | rfl <;>
    exact ⟨turnMgmt rfl, named (by decide +kernel), by unfold AddrOk Clean; decide +kernel, by decide +kernel, rfl, by decide +kernel,
      by decide +kernel, by decide +kernel⟩

theorem witness_atomicCompletes_finite : ∃ a b c, fF32.decode (sM.opFloat .mgmt .f32 (.reg 12)).toNat = .fin a b c := ⟨_, _, _, rfl⟩
theorem witness_atomicCompletes_infinite : ∀ a b c, fF32.decode (sM.opFloat .mgmt .f32 (.reg 13)).toNat ≠ .fin a b c := by
  intro a b c h; have : fF32.decode (sM.opFloat .mgmt .f32 (.reg 13)).toNat = .inf false := by rfl
  rw [this] at h; cases h

theorem witness_hintsAndFencesComplete : Turn sU U ∧ Named sU U (addrUses dfAddr.fields) ∧ Clean (sU.addrPoison U dfAddr.fields) ∧
    (sU.coreOf U).engineIdle U.key = true ∧ sU.orderHome U = true ∧ (sU.thread U).storeQ.isEmpty = true :=
  ⟨turnUser rfl, named (by decide +kernel), by unfold Clean; decide +kernel, by decide +kernel, by decide +kernel, by decide +kernel⟩

theorem witness_hintsAndFencesComplete_pref : PrefFree sU U dfAddr.fields 4 := by
  intro pa key _; exact requestWaitsU pa

/-- WAITV of a zero in SRAM: c = 5 (register 1) differs from it, c = 0 (register 20) equals it. -/
theorem witness_waitvCompletes : ∀ c ∈ [(1 : BitVec 8), 20], let f := df 22 (.reg 4) (.reg 20) (.reg c)
    Turn sM .mgmt ∧ Named sM .mgmt (addrUses f.fields ++ [(f.fields.c, .w32)] ++ f.fields.dst .w32) ∧
    AddrOk sM .mgmt f.fields 4 false ∧ sM.opPoison .mgmt f.fields.c .w32 = false ∧
    sM.place .mgmt .waitv (sM.addrOf .mgmt f.fields).toNat = (.at (.sram 0) 0, sM) ∧ sM.requestWaits .mgmt (.sram 0) = false ∧
    sM.loadWaits .mgmt (.sram 0) 4 = false ∧
    (bytesVal ((sM.noteAtomic .mgmt (.sram 0)).loadBytes .mgmt (.sram 0) 0 4 none true).1 = sM.opData .mgmt f.fields.c 4 ↔ c = 20) := by
  intro c hc
  simp only [List.mem_cons, List.not_mem_nil, or_false] at hc
  rcases hc with rfl | rfl <;>
    exact ⟨turnMgmt rfl, named (by decide +kernel), by unfold AddrOk Clean; decide +kernel, by decide +kernel, rfl, by decide +kernel,
      by decide +kernel, by decide +kernel⟩

/-! ## Control -/

theorem witness_transferCompletes : ∃ x, Turn sU U ∧ transferOf sU U (.call (df 20 (.reg 0) (.reg 4) (.reg 0))) = some x ∧
    Named sU U (x.2.uses ++ x.2.dst x.1) ∧ sU.opsPoison U x.2.uses = false ∧ TargetOk x.2.target :=
  ⟨_, turnUser rfl, rfl, named (by decide +kernel), by decide +kernel, by unfold TargetOk; decide +kernel⟩

theorem witness_transferCompletes_branch : ∃ x, transferOf sU U (.br (df 0 (.reg 1) (.reg 4) (.reg 0)) true) = some x ∧
    TargetOk x.2.target := ⟨_, by rfl, by unfold TargetOk; decide +kernel⟩

theorem witness_branchNotTakenAndNop : Turn sU U ∧ (sU.op32 U (.reg 1) = 0 ↔ false = true) ∧
    Named sU U [(.reg 1, .w32), (.reg 2, .w32)] ∧ sU.opsPoison U [(.reg 1, .w32), (.reg 2, .w32)] = false ∧ GroupTurn sG 0 :=
  ⟨turnUser rfl, by decide +kernel, named (by decide +kernel), by decide +kernel, by unfold GroupTurn; decide +kernel⟩

theorem witness_callsTrap : UserTurn sU 0 0 ∧ Named sU U [(.reg 1, .w32)] := ⟨rfl, named (by decide +kernel)⟩

theorem witness_managementTraps : MgmtTurn sM ∧ sM.mgmt.thread.causeActive = false ∧ Named sM .mgmt [(.reg 1, .w32)] ∧
    (sM.takeTrap .mgmt .und 0 0).mgmt.thread.causeActive = true := ⟨rfl, rfl, named (by decide +kernel), by decide +kernel⟩

theorem witness_parksComplete_tdisp : UserTurn sU 0 0 ∧ Named sU U ((df 20 (.reg 1) (.reg 2) (.reg 8)).fields.dst .quad) :=
  ⟨rfl, named (by decide +kernel)⟩

theorem witness_parksComplete_svcMb : UserTurn sU 0 0 ∧ Named sU U ([(dfA.fields.b, .w32), (dfA.fields.c, .w32)] ++ dfA.fields.dst .w32) ∧
    sU.opsPoison U [(dfA.fields.b, .w32), (dfA.fields.c, .w32)] = false ∧ (sU.thread U).storeQ = [] ∧ (sU.core 0).mbox.length < 32 :=
  ⟨rfl, named (by decide +kernel), by decide +kernel, by decide +kernel, by decide +kernel⟩

/-! ## Barriers -/

/-- Barrier 7 at level 0 and, with the launch of `sB`, barrier 16 at level 0, count 5 (register 1). -/
theorem witness_barrierArrivalCompletes : UserTurn sU 0 0 ∧ Named sU U [(.reg 2, .w32), (.reg 1, .w32)] ∧
    sU.opsPoison U [(.reg 2, .w32), (.reg 1, .w32)] = false ∧ ScopeOk sU 0 0 wgA (sU.op32 U (.reg 2)).toNat 0 ∧
    CountOk sU 0 (sU.op32 U (.reg 2)).toNat 0 (sU.op32 U (.reg 1)).toNat ∧ sU.barReady U (sU.op32 U (.reg 2)).toNat = true :=
  ⟨rfl, named (by decide +kernel), by decide +kernel, ⟨rfl, by decide +kernel⟩, by unfold CountOk; decide +kernel, by decide +kernel⟩

theorem witness_barrierArrivalCompletes_block : ScopeOk sU 0 0 wgA 16 0 ∧ CountOk sU 0 16 0 5 ∧ sU.barReady U 16 = true :=
  ⟨⟨rfl, by decide +kernel⟩, by unfold CountOk; decide +kernel, by decide +kernel⟩

/-- BARW of a barrier never arrived at waits; after the arrival of the one thread that the count names, it ends. -/
theorem witness_barrierWaitCompletes :
    phaseDone (sU.barrier 0 7 0).phase (waitTarget sU 0 0 7) = false ∧
    phaseDone ((sU.arriveBar U 0 7 0 1).barrier 0 7 0).phase (waitTarget (sU.arriveBar U 0 7 0 1) 0 0 7) = true ∧
    phaseDone ((sU.arriveBar U 0 7 0 5).barrier 0 7 0).phase (waitTarget (sU.arriveBar U 0 7 0 5) 0 0 7) = false :=
  ⟨by decide +kernel, by decide +kernel, by decide +kernel⟩

/-- Barrier 24 is bound by entry 0 of the interrupt binding table, barrier 25 by none. -/
def sBound : State := { sU with io := { sU.io with irqs := [(0, bputs 0 [(63, 1, 1), (60, 2, 1)])] } }
theorem witness_barrierWaitCompletes_bound : sBound.irqBound 0 24 = true ∧ WaitScopeOk sBound 0 0 wgA 24 0 ∧ sBound.irqBound 0 25 = false :=
  ⟨by decide +kernel, .inr ⟨rfl, by decide +kernel⟩, by decide +kernel⟩
theorem witness_barrierWaitCompletes_scope : ∃ s : State, UserTurn s 0 0 ∧ Named s U [(.reg 1, .w32)] ∧
    s.opPoison U (.reg 1) .w32 = false ∧ (s.op32 U (.reg 1)).toNat = 25 ∧ s.irqBound 0 25 = false :=
  ⟨withThread (fun th => { th with regs := [(1, 25)] }), by unfold UserTurn; decide +kernel, named (by decide +kernel), by decide +kernel⟩

/-! ## Safe points, special registers, agents -/

/-- SAFE 0 names the entry of `wgA`, SAFE 5 (register 1) none; the workgroup is not armed in `sU`, armed in `sArmed`; the
thread of `sInside` is in its save routine. -/
def sArmed : State := withCore (fun k => { k with wg := some { wgA with preempt := .armed } })
def sInside : State := withThread (fun th => { th with save := { phase := .inside, entry := 0, resume := 0x1000, area := 0x2000 } })
def sInsideArmed : State := sArmed.modThread U (fun th => { th with save := { phase := .inside } })

theorem witness_safeAndExitComplete : UserTurn sU 0 0 ∧ (sU.core 0).wg = some wgA ∧
    wgA.safe[(sU.op32 U (.reg 20)).toNat]? = some ⟨0x40, 0x80, 0⟩ ∧ wgA.safe[(sU.op32 U (.reg 1)).toNat]? = none ∧
    wgA.preempt = .none ∧ (sU.thread U).save.phase = .none := ⟨rfl, rfl, by decide +kernel, by decide +kernel, rfl, by decide +kernel⟩
theorem witness_safeAndExitComplete_armed : UserTurn sArmed 0 0 ∧ ((sArmed.core 0).wg.map (·.preempt)) = some .armed ∧
    (sArmed.thread U).save.phase ≠ .inside := ⟨by unfold UserTurn; decide +kernel, by decide +kernel, by decide +kernel⟩
theorem witness_safeAndExitComplete_inside : UserTurn sInside 0 0 ∧ (sInside.thread U).save.phase = .inside ∧
    UserTurn sInsideArmed 0 0 ∧ (sInsideArmed.thread U).save.phase = .inside ∧
    ((sInsideArmed.core 0).wg.map (·.preempt)) = some .armed :=
  ⟨by unfold UserTurn; decide +kernel, by decide +kernel, by unfold UserTurn; decide +kernel, by decide +kernel, by decide +kernel⟩
/-- A thread restored inside its routine, once a new pre-emption has armed. -/
def sAgain : State := sArmed.modThread U (fun th => { th with save := { phase := .inside, again := true } })
theorem witness_safeAndExitComplete_again : UserTurn sAgain 0 0 ∧ (sAgain.thread U).save.phase = .inside ∧
    (sAgain.thread U).save.again = true ∧ ((sAgain.core 0).wg.map (·.preempt)) = some .armed :=
  ⟨by unfold UserTurn; decide +kernel, by decide +kernel, by decide +kernel, by decide +kernel⟩
theorem witness_safeAndExitComplete_group : GroupTurn sG 0 ∧ (sG.core 0).trq = [] ∧ (sG.core 0).mbox = [] ∧ (sG.core 0).events = [] ∧
    GroupTurn (sG.modCore 0 (fun k => { k with trq := [3] })) 0 ∧ ((sG.modCore 0 (fun k => { k with trq := [3] })).core 0).trq ≠ [] :=
  ⟨by unfold GroupTurn; decide +kernel, by decide +kernel, by decide +kernel, by decide +kernel, by unfold GroupTurn; decide +kernel,
    by decide +kernel⟩

theorem witness_specialRegistersComplete : Turn sU U ∧ SrAllowed U 0x003 ∧ Named sU U (dfA.fields.dst (srWidth 0x003)) ∧
    WrsrOk dfA.fields 0x003 U sU ∧ WrsrOk dfA.fields 0x803 .mgmt sM :=
  ⟨turnUser rfl, by unfold SrAllowed; decide +kernel, named (by decide +kernel), by unfold WrsrOk SrAllowed Named; decide +kernel,
    by unfold WrsrOk SrAllowed Named; decide +kernel⟩
theorem witness_specialRegistersComplete_group : GroupTurn sG 0 ∧
    (∀ l, l < 64 → SrAllowed (.sup 0 l) 0x404 ∧ Named (lanesState (rdsrEff dfA.fields 0x404) 0 sG l) (.sup 0 l)
      (dfA.fields.dst (srWidth 0x404))) ∧
    (∀ l, l < 64 → WrsrOk dfA.fields 0x404 (.sup 0 l) (lanesState (wrsrEff dfA.fields 0x404) 0 sG l)) :=
  ⟨by unfold GroupTurn; decide +kernel, by unfold SrAllowed Named; decide +kernel, by unfold WrsrOk SrAllowed Named; decide +kernel⟩

/-- The group's write of its read-only registers. -/
theorem witness_specialRegistersComplete_readOnly : (sG.core 0).status = .running ∧ Named sU U [(dfA.fields.b, .w32)] ∧
    (∀ sr ∈ [(0x002 : BitVec 12), 0x405, 0x408], ∀ l, l < 64 → Named sG (.sup 0 l) [((df 20 (.reg 2) (.reg 4) (.reg 8)).fields.b, srWidth sr.toNat)]) :=
  ⟨by decide +kernel, named (by decide +kernel), by unfold Named; decide +kernel⟩

/-- The same of the rules of what is read back: the writes of FMODE, QPCT, CAUSE, EPC and TVAL by thread 0 and a lane answer ok. -/
theorem witness_specialRegistersComplete_readBack :
    (∀ n ∈ [0x000, 0x001, 0x003], ∃ s', sU.writeSr U n 0xFFFF = .ok s') ∧
    (∀ n ∈ [0x400, 0x401, 0x402], ∃ s', sG.writeSr (.sup 0 5) n 0xFFFF = .ok s') := by
  constructor <;> intro n hn <;> simp only [List.mem_cons, List.not_mem_nil, or_false] at hn <;>
    rcases hn with rfl | rfl | rfl <;> exact ⟨_, rfl⟩

theorem witness_agentInstructionsComplete : GroupTurn sG 0 ∧
    (∀ l, l < 64 → Named (lanesState (trqEff dfA.fields) 0 sG l) (.sup 0 l) (dfA.fields.dst .w32)) ∧
    (∀ l, l < 64 → Named (lanesState (mboxEff dfA.fields) 0 sG l) (.sup 0 l) (dfA.fields.dst .pair)) ∧
    (∀ l, l < 64 → Sources (lanesState (rdthEff dfA.fields) 0 sG l) (.sup 0 l) [(dfA.fields.b, .w32), (dfA.fields.c, .w32)]
      (dfA.fields.dst .w32) ∧ (lanesState (rdthEff dfA.fields) 0 sG l).saveHolds (.sup 0 l) 0 = false ∧
      (((lanesState (rdthEff dfA.fields) 0 sG l).core 0).captureHeld wgA 0) = false) ∧
    (∀ l, l < 64 → Sources (lanesState (wrthEff dfA.fields) 0 sG l) (.sup 0 l)
      [(dfA.fields.b, .w32), (dfA.fields.c, .w32), (.reg dfA.fields.d, .w32)] []) ∧
    (∀ l, l < 64 → Sources (lanesState (wakeEff dfA.fields) 0 sG l) (.sup 0 l) [(dfA.fields.b, .w32)] []) ∧
    (∀ l, l < 64 → Sources (lanesState (parkEff dfA.fields) 0 sG l) (.sup 0 l) [(dfA.fields.b, .w32)] []) :=
  ⟨by unfold GroupTurn; decide +kernel, by unfold Named; decide +kernel, by unfold Named; decide +kernel,
    by unfold Sources Named; decide +kernel, by unfold Sources Named; decide +kernel, by unfold Sources Named; decide +kernel,
    by unfold Sources Named; decide +kernel⟩
theorem witness_agentInstructionsComplete_others :
    (∀ l, l < 64 → Sources (lanesState (replyEff dfA.fields) 0 sG l) (.sup 0 l) [(dfA.fields.b, .pair)] [] ∧
      ((lanesState (replyEff dfA.fields) 0 sG l).coreOf (.sup 0 l)).agentDrained = true) ∧
    (∀ l, l < 64 → Sources (lanesState (irqbEff true dfA.fields) 0 sG l) (.sup 0 l) [(dfA.fields.b, .w32), (dfA.fields.c, .w32)]
      (dfA.fields.dst .w32)) ∧
    (∀ l, l < 64 → Sources (lanesState (irqbEff false dfA.fields) 0 sG l) (.sup 0 l) [(dfA.fields.b, .w32)] (dfA.fields.dst .w32)) ∧
    (∀ l, l < 64 → Sources (lanesState (selftEff dfImm.fields) 0 sG l) (.sup 0 l) [(dfImm.fields.b, .w32), (dfImm.fields.c, .w32)]
      (dfImm.fields.dst .w32)) :=
  ⟨by unfold Sources Named; decide +kernel, by unfold Sources Named; decide +kernel, by unfold Sources Named; decide +kernel,
    fun _ _ => ⟨rfl, rfl⟩⟩
theorem witness_agentInstructionsComplete_tlbi : ∀ kind ∈ [TlbiKind.page, .ctx, .all], ∀ l, l < 64 →
    TlbiOk kind dfAddr.fields (.sup 0 l) (lanesState (tlbiEff kind dfAddr.fields) 0 sG l) := by
  unfold TlbiOk Sources Named; decide +kernel

/-! ## The management core's own instructions -/

/-- `op r20 ← pair r4 + r20, r1`: five bytes at SRAM offset 0. -/
def dfM : DF := df 20 (.reg 4) (.reg 20) (.reg 1)

theorem witness_managementInstructionsComplete : MgmtTurn sM ∧ TlbiOk .page dfM.fields .mgmt sM ∧ TlbiOk .ctx dfM.fields .mgmt sM ∧
    TlbiOk .all dfM.fields .mgmt sM ∧ Sources sM .mgmt [(dfM.fields.b, .w32), (dfM.fields.c, .w32)] (dfM.fields.dst .w32) ∧
    Sources sM .mgmt [(dfM.fields.a, .quad), (dfM.fields.b, .w32)] (dfM.fields.dst .w32) ∧ sM.storesHome .mgmt = true :=
  ⟨rfl, by unfold TlbiOk Sources Named; decide +kernel, by unfold TlbiOk Sources Named; decide +kernel,
    by unfold TlbiOk Sources Named; decide +kernel, by unfold Sources Named; decide +kernel, by unfold Sources Named; decide +kernel,
    by decide +kernel⟩
theorem witness_managementInstructionsComplete_records :
    Named sM .mgmt [(dfM.fields.a, .pair), (dfM.fields.b, .w32), (dfM.fields.c, .w32)] ∧
    (let n := (sM.op32 .mgmt dfM.fields.c).toNat
     let ps := sM.addrPoison .mgmt dfM.fields ++ [(sM.opPoison .mgmt dfM.fields.c .w32, 2)]
     n = 5 ∧ sM.secCheck (sM.addrOf .mgmt dfM.fields) 1 n (ps.any (·.1)) ps [(.load, (sM.addrOf .mgmt dfM.fields).toNat, n)] = none) ∧
    Named sM .mgmt (addrUses dfM.fields ++ dfM.fields.dst .w32) ∧
    RecordOk sM dfM.fields 48 [(.store, (sM.addrOf .mgmt dfM.fields).toNat, 48)] ∧ sM.storeRoom 48 = true ∧
    RecordOk sM dfM.fields 48 [(.load, (sM.addrOf .mgmt dfM.fields).toNat, 48)] ∧ (recordRead sM dfM.fields 48).2.1 = false ∧
    RecordOk sM dfM.fields 240 [(.load, (sM.addrOf .mgmt dfM.fields).toNat, 240)] ∧ (recordRead sM dfM.fields 240).2.1 = false ∧
    RecordOk sM dfM.fields 144 [(.load, (sM.addrOf .mgmt dfM.fields).toNat, 48), (.store, (sM.addrOf .mgmt dfM.fields).toNat + 48, 96)] ∧
    sM.storeRoom 96 = true ∧ RecordReads sM dfM.fields 5 ∧ RecordReads sM dfM.fields 48 ∧ RecordReads sM dfM.fields 240 :=
  ⟨named (by decide +kernel), by decide +kernel, named (by decide +kernel), by unfold RecordOk; decide +kernel, by decide +kernel,
    by unfold RecordOk; decide +kernel, by decide +kernel, by unfold RecordOk; decide +kernel, by decide +kernel,
    by unfold RecordOk; decide +kernel, by decide +kernel, by unfold RecordReads; decide +kernel, by unfold RecordReads; decide +kernel,
    by unfold RecordReads; decide +kernel⟩

theorem namedImm (s : State) (c l : Nat) : Named s (.sup c l) [(.imm 0, .w32), (.imm 0, .w32), (.reg 20, .w32)] := rfl

theorem witness_groupComputes : GroupTurn sG 0 ∧
    (∀ l, l < 64 → ∃ r, intWord (lanesState (fun h s => match intWord s h (.add dfImm {}) with
        | some r => r.state h s
        | none => s) 0 sG l) (.sup 0 l) (.add dfImm {}) = some r ∧
      Named (lanesState (fun h s => match intWord s h (.add dfImm {}) with
        | some r => r.state h s
        | none => s) 0 sG l) (.sup 0 l) (r.uses ++ r.f.dst .w32)) ∧
    (∀ l, l < 64 → ∃ r, floatWord (lanesState (fun h s => match floatWord s h (.fadd dfImm {}) with
        | some r => r.state h s
        | none => s) 0 sG l) (.sup 0 l) (.fadd dfImm {}) = some r ∧
      Named (lanesState (fun h s => match floatWord s h (.fadd dfImm {}) with
        | some r => r.state h s
        | none => s) 0 sG l) (.sup 0 l) (r.uses ++ r.f.dst .w32)) :=
  ⟨by unfold GroupTurn; decide +kernel, fun _ _ => ⟨_, rfl, namedImm ..⟩, fun _ _ => ⟨_, rfl, namedImm ..⟩⟩

/-! ## Tiles -/

/-- A header of `rows` × `cols` elements of format `fmt`, its lines 16 bytes apart. -/
def hdrOf (fmt rows cols : Nat) : Header := Hd.rehash (bputs 0 [(0, 16, 1), (16, 4, fmt), (32, 16, rows), (48, 16, cols), (64, 32, 16)])
def tileOf (lv : Level) (fmt span base : Nat) : Tile :=
  { hdr := hdrOf fmt 4 4, lv, xshape := false, xsparse := false, xscale := false, xfmt := false, span, base }

/-- An E4M3 scratchpad tile of 4 × 4 elements with block scales. -/
def tileQ : Tile := { tileOf .sp 3 1 2 with hdr := Hd.rehash (bput (hdrOf 3 4 4) 20 2 1) }

/-- An FP16 scratchpad tile of 4 × 8 elements. -/
def tileG : Tile := { tileOf .sp 1 1 3 with hdr := hdrOf 1 4 8 }

/-- FP16 operands (handles 1, 2), an FP32 accumulator (5) and FP16 scratchpad tiles (7, 64) of 4 × 4 elements; an FP16 header at
0x20000; and as many registers that name them. -/
def wgT : Workgroup :=
  { wgA with tiles := [(1, tileOf .om 1 0 0), (2, tileOf .om 1 0 1), (5, tileOf .acc 0 0 0), (7, tileOf .sp 1 1 0), (64, tileOf .sp 1 1 1), (65, tileQ), (66, tileG)] }
def sT : State :=
  { withCore (fun k => { k with wg := some wgT, carve := 0, threads := [(0, { thA with regs := thA.regs ++ [(17, 2), (21, 9), (23, 65)] })] }) with
    mem := pokes sU.mem 0x20000 (natBytes 64 (hdrOf 1 4 4).toNat) }

/-- TALLOC of handle 9 (register 21) from the header that pair 6 names. -/
def dfTalloc : DF := df 22 (.reg 6) (.reg 20) (.reg 21)
def mdSp : AllocMod := { lv := .sp, span := 1 }

theorem witness_tileTableInstructionsComplete_talloc : UserTurn sT 0 0 ∧
    Named sT U (addrUses dfTalloc.fields ++ [(dfTalloc.fields.c, .w32)] ++ dfTalloc.fields.dst .w32) ∧
    Clean (sT.addrPoison U dfTalloc.fields) ∧ sT.opPoison U dfTalloc.fields.c .w32 = false ∧
    (∃ s1, sT.checkGranules U (sT.addrOf U dfTalloc.fields) 64 4 false [] = (.at (.dev 0x20000) 0, s1) ∧
      s1.granulesWait U (.dev 0x20000) 4 = false ∧ ∃ base span, TallocOk (s1.loadGranules U (.dev 0x20000) 0 4).2.2 0
        (BitVec.ofNat 512 (bytesNat (s1.loadGranules U (.dev 0x20000) 0 4).1)) 9 mdSp base span) :=
  ⟨rfl, named (by decide +kernel), by unfold Clean; decide +kernel, by decide +kernel, _, placed (by decide +kernel), by decide +kernel, 4, 1,
    by unfold TallocOk; decide +kernel⟩

/-- `op r20 ← r8 (handle 1), r17 (handle 2), r1 (handle 5)`. -/
def dfT : DF := df 20 (.reg 8) (.reg 17) (.reg 1)
/-- `op r20 ← r2 (handle 7), r10 (handle 64)`. -/
def dfMove : DF := df 20 (.reg 2) (.reg 10) (.reg 0)

/-- THDR of handle 2; THSET of handle 7, with value and mask 0. -/
theorem witness_tileTableInstructionsComplete : UserTurn sT 0 0 ∧ Sources sT U [(.reg 17, .w32)] (dfT.fields.dst .w32) ∧
    FreeTile sT 0 (sT.op32 U (.reg 17)).toNat (tileOf .om 1 0 1) ∧ (tileOf .om 1 0 1).ok = true ∧
    Sources sT U [(.reg 2, .w32), (.reg 20, .w32), (.reg 20, .w32)] [] ∧ FreeTile sT 0 (sT.op32 U (.reg 2)).toNat (tileOf .sp 1 1 0) ∧
    (let x := tileOf .sp 1 1 0
     let n := hdrMasked x.hdr 1 0 0
     x.ok = true ∧ descOk (some x.lv) n x.wild = true ∧ x.holds n x.wild = true) :=
  ⟨rfl, by unfold Sources Named; decide +kernel, by unfold FreeTile; decide +kernel, by decide +kernel,
    by unfold Sources Named; decide +kernel, by unfold FreeTile; decide +kernel, by decide +kernel⟩

/-- LDT and STT of two bytes at row 1, column 1 of handle 7. -/
def dfSp : DF := df 20 (.reg 2) (.reg 8) (.reg 8)
def spHalf : MemMod := { size := .s2 }
theorem witness_scratchpadAccessCompletes : UserTurn sT 0 0 ∧
    (let x := tileOf .sp 1 1 0
     let a := spAccess sT U dfSp.fields spHalf
     let three : List OpUse := [(dfSp.fields.a, .w32), (dfSp.fields.b, .w32), (dfSp.fields.c, .w32)]
     x.ok = true ∧ x.lv = .sp ∧ (sT.core 0).tile? a.h = some x ∧ descOk (some .sp) x.hdr x.wild = true ∧ x.wild.any = false ∧
     (∀ q ∈ spFaults (geoOf x.hdr) false a.h a.row a.col 2, q.1 = false) ∧
     opCheck sT U (three ++ dfSp.fields.dst .w32) = none ∧ sT.opsPoison U three = false ∧
     (∀ q ∈ spGranules (geoOf x.hdr) x a, ((sT.core 0).bankLock (q / 1024) (q / 1024 + 1)) = (false, false)) ∧
     (∀ q ∈ spGranules (geoOf x.hdr) x a, mget GState.empty (sT.core 0).spState q = .empty) ∧ spGranules (geoOf x.hdr) x a ≠ [] ∧
     opCheck sT U (three ++ [(.reg 20, .w32)]) = none ∧ sT.opPoison U (.reg 20) .w32 = false ∧ sT.queueFull U = false) :=
  ⟨rfl, by decide +kernel⟩
/-- STT there; and to the same tile with its format a wildcard. -/
def tileW : Tile := { tileOf .sp 1 1 0 with xfmt := true }
def sTW : State := sT.modCore 0 (fun k => { k with wg := some { wgT with tiles := [(7, tileW)] } })
theorem witness_scratchpadAccessCompletes_stt : SttOk dfSp.fields spHalf (tileOf .sp 1 1 0) U sT ∧ SttOk dfSp.fields spHalf tileW U sTW ∧
    tileW.wild.any = true := by
  unfold SttOk SpOk Named; decide +kernel
/-- The same place with its granule Full. -/
def sFull : State := sT.modCore 0 (fun k => { k with spState := [(1, .full)] })
theorem witness_scratchpadAccessCompletes_full :
    (∀ q ∈ spGranules (geoOf (tileOf .sp 1 1 0).hdr) (tileOf .sp 1 1 0) (spAccess sFull U dfSp.fields spHalf),
      mget GState.empty (sFull.core 0).spState q = .full) ∧
    spGranules (geoOf (tileOf .sp 1 1 0).hdr) (tileOf .sp 1 1 0) (spAccess sFull U dfSp.fields spHalf) ≠ [] := by decide +kernel

/-! ## Tasks and engine operations -/

theorem witness_taskIssueCompletes : UserTurn sT 0 0 ∧
    Named sT U ([(dfT.fields.a, .w32), (dfT.fields.b, .w32), (dfT.fields.c, .w32)] ++ dfT.fields.dst .w32) ∧
    MmaOk sT U dfT.fields false (tileOf .om 1 0 0) (tileOf .om 1 0 1) ∧ TaskRoom sT 0 0 wgT 0 0 ∧
    Named sT U ([(dfMove.fields.a, .w32), (dfMove.fields.b, .w32)] ++ dfMove.fields.dst .w32) ∧
    MoveOk sT U dfMove.fields false false (tileOf .sp 1 1 1) (tileOf .sp 1 1 0) ∧
    TaskRoom sT 0 0 wgT 0 (moveLocks wgT.taskTok (tileOf .sp 1 1 1) (tileOf .sp 1 1 0)).length ∧
    MoveOk sT U (df 20 (.reg 23) (.reg 10) (.reg 0)).fields false true (tileOf .sp 1 1 1) tileQ :=
  ⟨rfl, named (by decide +kernel), by unfold MmaOk; decide +kernel, by unfold TaskRoom; decide +kernel, named (by decide +kernel),
    by unfold MoveOk; decide +kernel, by unfold TaskRoom; decide +kernel, by unfold MoveOk; decide +kernel⟩

end Sys2Proof.Tests
end

