-- ==== Sys2Proof/Tests/WitnessEngines.lean ====
section
/-! SUPPORT. Witnesses of the statements about engine waits, copies, gathers, images, and the events of engines, threads and
the selector. -/

set_option Elab.async false

namespace Sys2Proof.Tests
open Sys2Proof.Machine Sys2Proof.Claims

/-- A task and a copy of thread 0 that are under way, their tokens 5 and 7 (registers 1 and 2). -/
def taskA : Task :=
  { idx := 0, kind := .tmov, running := some 16, token := 5, tid := 0, ha := 7, hb := 64, hc := 0, rm := 0, ftz := false, nbv := false,
    opt := false, os := false, od := false, qpct := 0 }
def opA : EngOp := { token := 7, tid := 0, kind := .bytes 0x20000 0x1000 64, ctx := 0, ksel := 0 }
def sBusy : State := sT.modCore 0 (fun k => { k with tasks := [taskA], ops := [opA] })

theorem witness_engineWaitCompletes : UserTurn sU 0 0 ∧ Sources sU U [(.reg 1, .w32)] (dfA.fields.dst .w32) ∧ (sU.core 0).tasks = [] ∧
    (sU.core 0).ops = [] ∧ sBusy.cur = .user 0 0 ∧ Sources sBusy U [(.reg 1, .w32), (.reg 2, .w32)] (dfA.fields.dst .w32) ∧
    (∃ x ∈ (sBusy.core 0).tasks, x.token = (sBusy.op32 U (.reg 1)).setWidth 16) ∧ (∃ x ∈ (sBusy.core 0).tasks, x.tid = 0) ∧
    (∃ o ∈ (sBusy.core 0).ops, o.token = (sBusy.op32 U (.reg 2)).setWidth 16) ∧ (∃ o ∈ (sBusy.core 0).ops, o.tid = 0) :=
  ⟨rfl, by unfold Sources Named; decide +kernel, by decide +kernel, by decide +kernel, by decide +kernel,
    by unfold Sources Named; decide +kernel, by decide +kernel, by decide +kernel, by decide +kernel, by decide +kernel⟩

/-- The machine of `sT` with other registers: addresses 0x20000 (pair 2), 0x30000 (pair 4), handles 7 (pair 6) and 66 (pair 8); a
length of 64 (12), tile copies in and out (13, 14), a gather of one record to memory (15) and to a tile (16). -/
def sC : State := sT.modThread U (fun th =>
  { th with regs := [(2, 0x20000), (4, 0x30000), (6, 7), (8, 66), (12, 64), (13, 0x40000000), (14, 0xC0000000), (15, 1), (16, 0x20000001)] })

theorem witness_copiesAndGathersComplete_bytes : UserTurn sC 0 0 ∧ (sC.core 0).wg = some wgT ∧
    (∀ c ∈ [(20 : Nat), 12], Sources sC U [(.reg 2, .pair), (.reg 4, .pair), (.reg c, .w32)] [(.reg 20, .w32)]) ∧
    (sC.op32 U (.reg 20)).toNat % 2 ^ 24 = 0 ∧ 0 < (sC.op32 U (.reg 12)).toNat % 2 ^ 24 ∧
    (∀ y ∈ [sC.opPair U (.reg 2), sC.opPair U (.reg 2) + 63, sC.opPair U (.reg 4), sC.opPair U (.reg 4) + 63], y.toNat < 2 ^ 60) ∧
    OpRoom sC 0 0 wgT (.bytes (sC.opPair U (.reg 2)) (sC.opPair U (.reg 4)) 64)
      (memLock false (sC.opPair U (.reg 4)).toNat 64 ++ memLock true (sC.opPair U (.reg 2)).toNat 64).length :=
  ⟨by unfold UserTurn; decide +kernel, by decide +kernel, by unfold Sources Named; decide +kernel, by decide +kernel, by decide +kernel,
    by
      intro y hy
      simp only [List.mem_cons, List.not_mem_nil, or_false] at hy
      rcases hy with rfl | rfl | rfl | rfl <;> decide +kernel,
    by unfold OpRoom; decide +kernel⟩

theorem witness_copiesAndGathersComplete_tile : ∃ s1, sC.checkGranules U 0x20000 64 4 false [] = (.at (.dev 0x20000) 0, s1) ∧
    (let r := s1.loadGranules U (.dev 0x20000) 0 4
     let m : Header := BitVec.ofNat 512 (bytesNat r.1)
     let tl := tileOf .sp 1 1 0
     Sources sC U [(.reg 6, .pair), (.reg 2, .pair), (.reg 13, .w32)] [(.reg 20, .w32)] ∧
     Sources sC U [(.reg 2, .pair), (.reg 6, .pair), (.reg 14, .w32)] [(.reg 20, .w32)] ∧
     sC.opPair U (.reg 2) = 0x20000 ∧ ((sC.opPair U (.reg 6)).setWidth 32 : Word).toNat = 7 ∧ (sC.core 0).tile? 7 = some tl ∧
     (∀ into : Bool, ∀ q ∈ handleFaults (some tl) 7 (!into) ++ copyHeaderFaults m 0x20000 (some tl) 7 into, q.1 = false) ∧
     OpRoom r.2.2 0 0 wgT (.tileIn 7 0x20000 m) (memLock false 0x20000 (memSpan m)).length.succ) :=
  ⟨_, placed (by decide +kernel), by unfold Sources Named OpRoom; decide +kernel⟩

theorem witness_copiesAndGathersComplete_gather : ∃ s1, sC.checkGranules U 0x30000 16 1 false [] = (.at (.dev 0x30000) 0, s1) ∧
    (let r := s1.loadGranules U (.dev 0x30000) 0 1
     let base : BitVec 64 := BitVec.ofNat 64 (bytesNat (r.1.take 8))
     Sources sC U [(.reg 2, .pair), (.reg 4, .pair), (.reg 15, .w32)] [(.reg 20, .w32)] ∧
     Sources sC U [(.reg 8, .pair), (.reg 4, .pair), (.reg 16, .w32)] [(.reg 20, .w32)] ∧
     r.2.1 = false ∧ base.toNat % 16 = 0 ∧ base.toNat < 2 ^ 60 ∧ (sC.core 0).tile? 66 = some tileG ∧
     (∀ q ∈ gatherDestFaults none 0x20000 false 1 16 1, q.1 = false) ∧
     (∀ q ∈ gatherDestFaults (some tileG) 66 false 0x20000001 16 1, q.1 = false) ∧
     OpRoom r.2.2 0 0 wgT (.gatherMem 0x30000 base 16 1 0x20000) (memLock false 0x30000 20 ++ memLock true 0x20000 16).length ∧
     OpRoom r.2.2 0 0 wgT (.gatherTile 0x30000 base 16 1 66) (memLock false 0x30000 20).length.succ) :=
  ⟨_, placed (by decide +kernel), by unfold Sources Named OpRoom; decide +kernel⟩

/-- The last lane of a group whose registers name a 64-byte payload at 0x40000 and an image at 0x20000. -/
def sImg : State :=
  { sG with cores := [(0, { coreA with
      lanesDone := List.range 63
      threads := coreA.threads ++ [(supKey 63, { regs := [(2, 0x20000), (4, 0x40000), (6, 64)] })] })] }
theorem witness_imageIssueCompletes : sImg.cur = .sup 0 ∧ (sImg.core 0).lanesLeft = [63] ∧
    Sources sImg (.sup 0 63) [(.reg 2, .pair), (.reg 4, .pair), (.reg 6, .pair)] [(.reg 20, .w32)] ∧
    ImageOk sImg 0 (sImg.opPair (.sup 0 63) (.reg 2)) (sImg.opPair (.sup 0 63) (.reg 4)) (sImg.opPair (.sup 0 63) (.reg 6)) ∧
    (sImg.core 0).wg = some wgA ∧ sImg.imageKeyFault 0 0 true = true ∧ (sImg.thread (.sup 0 63)).run = .ready :=
  ⟨rfl, by decide +kernel, by unfold Sources Named; decide +kernel, by unfold ImageOk; decide +kernel, by decide +kernel,
    by decide +kernel, by decide +kernel⟩

/-! ## Engine events, waits, the selector -/

/-- The page of VA 0 is in the capacity tier and not resident, that of VA 0x20000 is at 0x20000 (level-0 leaves under 0x10000). -/
def sPaged : State :=
  { sBusy with
    mem := [(0x4000, 0x01), (0x4001, 0x81), (0x8000, 0x01), (0x8001, 0xC1), (0xC000, 0x01), (0xC001, 0x01), (0xC002, 0x01),
            (0x10000, 0x7F), (0x10005, 0x10), (0x10010, 0x3F), (0x10011, 0x01), (0x10012, 0x02)]
    io := { sBusy.io with ctop := 0x100000100000 } }
/-- The same once the Summer stage has begun. -/
def sSummer : State := { sPaged with mgmt := { sPaged.mgmt with stage := .summer } }
def opOf (k : EngKind) : EngOp := { opA with kind := k }

theorem witness_engineEventsHappen_task : (∃ t e, ((sT.modCore 0 (fun k => { k with tasks := [{ taskA with running := none }] })).core 0).readyTask = some t ∧
      ((sT.modCore 0 (fun k => { k with tasks := [{ taskA with running := none }] })).core 0).freeEngine = some e) ∧
    (sBusy.core 0).runningTask 5 = some taskA := ⟨⟨_, _, rfl, rfl⟩, by decide +kernel⟩
theorem witness_engineEventsHappen_copy : sBusy.runningOp 0 7 = some opA ∧ (sBusy.plan 0 opA).1.missing = [] ∧
    (sBusy.plan 0 opA).1.faults = [] ∧ (sPaged.plan 0 opA).1.missing ≠ [] ∧
    (sBusy.plan 0 (opOf (.bytes 0x20000 0x4000000000 64))).1.faults ≠ [] :=
  ⟨by decide +kernel, by decide +kernel, by decide +kernel, by decide +kernel, by decide +kernel⟩
theorem witness_engineEventsHappen_granule :
    (sT.modCore 0 (fun k => { k with ops := [opOf (.tileIn 7 0x20000 (hdrOf 1 4 4))] })).runningOp 0 7 = some (opOf (.tileIn 7 0x20000 (hdrOf 1 4 4))) ∧
    (opOf (.tileIn 7 0x20000 (hdrOf 1 4 4))).done.contains 0 = false ∧
    ((sT.plan 0 (opOf (.tileIn 7 0x20000 (hdrOf 1 4 4)))).1.early 0).isSome = true := ⟨by decide +kernel, by decide +kernel, by decide +kernel⟩
theorem witness_engineEventsHappen_taskGranule : ((sBusy.core 0).taskResult taskA).any (fun r =>
      decide (r.1.lv = .sp) && ((taskA.spWrites r.1 r.2.1).find? (fun w => w.1.g == 0 && !w.2)).isSome) = true ∧
    taskA.ha ≠ taskA.hb ∧ taskA.done.contains 0 = false := ⟨by decide +kernel, by decide +kernel, by decide +kernel⟩

/-- Thread 0 parked in a wait. -/
def sWait (w : Wait) : State := sT.modThread U (fun th => { th with run := .parked w, npc := 0x40 })
def dstA : Dest := ⟨20, false⟩
def grantA : Grant :=
  { launch := true, x0 := 0, y0 := 0, wlog := 0, hlog := 0, seq := 0, qid := 3, ctx := 0, n := 1, held := [0],
    disp := { x := 4, y := 4, z := 1, chunk := 2, next := 0 } }
def sDisp : State := ((sWait (.tdisp dstA)).modCore 0 (fun k => { k with claims := [0] })).setSlot 0 { grant := some grantA }
theorem witness_waitEventsHappen_tdisp : (sDisp.thread U).run = .parked (.tdisp dstA) ∧ (sDisp.core 0).oldestClaim = some 0 ∧
    (sDisp.thread U).stopped = false ∧ (sDisp.core 0).wg = some wgT ∧ wgT.slot = 0 ∧
    (sDisp.slot 0).grant = some grantA := by decide +kernel
theorem witness_waitEventsHappen_yield : ((sWait .yield).thread U).run = .parked .yield := by decide +kernel
def accA : Access := { kind := .waitv, addr := 0x20000, size := 4, data := 0, dpoison := false, acq := false, rel := false, scope := .core, dst := dstA }
theorem witness_waitEventsHappen_access : ((sWait (.waitv accA)).thread U).run = .parked (.waitv accA) ∧
    (sWait (.waitv accA)).underKill U = false ∧
    ((sWait (.page 0 0x20000 (.access accA))).thread U).run = .parked (.page 0 0x20000 (.access accA)) ∧
    (sWait (.page 0 0x20000 (.access accA))).underKill U = false ∧ (sWait (.page 0 0x20000 (.access accA))).io.migs = [] := by
  decide +kernel
def spA : SpAccess := { h := 7, row := 0, col := 0, size := 2, column := false, sx := false, clr := false, acq := false, dst := dstA }
def sHopeless : State := sT.modCore 0 (fun k =>
  { k with wg := some { wgT with nth := 1 }, threads := [(0, { run := .parked (.ldtWf spA) }), (supKey 0, { run := .parked .supIdle })] })
theorem witness_waitEventsHappen_noProducer : (sHopeless.core 0).hopeless = [(0, spA)] := by decide +kernel

/-- The management core about to run ADD from ROM; with its pc at an address that is nowhere; and thread 0 at a page that is not resident. -/
def sFetch : State := State.reset.placeCode .mgmt 0x100 [0x13, 0xA0, 0x60, 0x01, 0x03, 0x00, 0x00, 0x0B]
def sNowhere : State := State.reset.modThread .mgmt (fun th => { th with pc := 0x90000 })
theorem witness_selectEventsHappen_fetch : sFetch.agentReady .mgmt = true ∧ (∃ i s1, sFetch.fetch .mgmt = (.instr i, s1)) ∧
    sNowhere.agentReady .mgmt = true ∧ (∃ c v s1, sNowhere.fetch .mgmt = (.trap c v, s1)) ∧
    sSummer.agentReady (.user 0 0) = true ∧ ∃ e s1, sSummer.fetch U = (.held e, s1) :=
  ⟨by decide +kernel, ⟨_, _, rfl⟩, by decide +kernel, ⟨_, _, _, rfl⟩, by decide +kernel, ⟨_, _, rfl⟩⟩
def entA : StoreEnt := { tid := 0, space := .global, bytes := [(0x20000, 0x11, 0xFF)], key := 0, poison := false, fill := [], rel := none, ord := 0 }
theorem witness_selectEventsHappen_stores :
    ((sM.modThread .mgmt (fun th => { th with storeQ := [entA] })).thread .mgmt).storeQ = [entA] ∧
    (sM.modThread .mgmt (fun th => { th with storeQ := [entA] })).requestFree .mgmt = true ∧
    (sT.modThread U (fun th => { th with storeQ := [entA] })).requestFree U = true ∧
    ((sT.modThread U (fun th => { th with storeQ := [entA] })).thread U).storeQ = [entA] ∧ entA.space = .global ∧
    (∀ p ∈ ((sT.modThread U (fun th => { th with storeQ := [entA] })).core 0).threads, p.2.run = .ready) ∧
    (sT.modThread U (fun th => { th with storeQ := [entA] })).meetsHold
      { who := .core 0, tid := 0, bytes := addrsOf [entA], joins := true, home := false } = false ∧
    ((sT.modCore 0 (fun k => { k with coreOrder := [entA] })).order U)[0]? = some entA ∧ mayGoHome [entA] 0 = true ∧
    (sT.modCore 0 (fun k => { k with coreOrder := [entA] })).retrains entA = false := by decide +kernel

end Sys2Proof.Tests
end

