-- ==== Sys2Proof/Tests/WitnessUnits.lean ====
section
/-! SUPPORT. Witnesses of the statements about the scheduler, migrations, the root complex, errors, keys, power, control and SPDM. -/

set_option Elab.async false

namespace Sys2Proof.Tests
open Sys2Proof.Machine Sys2Proof.Claims

/-! ## The scheduler -/

/-- A valid bind record for queue 3: a region of 2 × 2 cores, SLICE 1, DEFER 1. -/
def recA : BitVec 128 := bputs 0 [(63, 1, 1), (16, 16, 3), (5, 3, 1), (2, 3, 1), (68, 16, 1), (100, 16, 1)]
/-- A LAUNCH of 2^wlog × 1 cores with its kernel at 0x50000. -/
def launchPk (wlog : Nat) : BitVec 512 := bputs 0 [(0, 8, 1), (16, 4, wlog), (32, 32, 1), (64, 64, 0x50000)]
/-- Its kernel: 16 registers, 64 threads, 16 bytes of code. -/
def kernelA : BitVec 512 := Hd.rehash (bputs 0 [(0, 32, 0x4B584C4E), (32, 16, 1), (64, 32, 64), (96, 16, 16), (112, 16, 64), (160, 32, 16)])

/-- Queue 3 is bound to slot 0, its descriptor at 0x30000, one packet in its window; the areas of the slots start at 0x40000. -/
def sQ (packet : BitVec 512) : State :=
  { sU with
    mgmt := { stage := .summer }
    io := { sU.io with slotb := 0x40000 }
    mem := pokes (pokes (sU.mem ++ [(0x30008, 4), (0x3000C, 1), (0x40008, 1)]) 0x40040 (natBytes 64 packet.toNat)) 0x50000
      (natBytes 64 kernelA.toNat)
    cores := [(0, { coreA with wg := none })]
    sched := { slots := [(0, { bindRec := recA, window := [⟨0, packet, false⟩] })], queueTable := [(3, 0x30001)] } }
/-- The same with other fields of slot 0. -/
def sQs (f : Slot → Slot) : State := (sQ (launchPk 0)).modSlot 0 f

theorem witness_slotEventsHappen_doorbell : sPaged.mgmt.stage ≠ .summer ∧ (sQ 0).mgmt.stage = .summer ∧ (sQ 0).qDesc? 0 = none ∧ (sQ 0).qDesc? 3 = some 0x30000 ∧
    BR.v ((sQ 0).slot 0).bindRec = true ∧ ((sQ 0).slot 0).fetchFault = false ∧ BR.qid ((sQ 0).slot 0).bindRec = 3 ∧
    QD.err (sQ 0) 0x30000 = false := by decide +kernel
/-- A NOP packet, a LAUNCH of one core and one that its region cannot hold. -/
theorem witness_slotEventsHappen_nop : (sQ 0).mgmt.stage = .summer ∧ (sQ 0).slotPending 0 = true ∧ ((sQ 0).head? 0).isSome = true ∧
    (sQ 0).demand 0 = some none ∧ (sQ 0).demandBlocked 0 = false ∧ (sQ 0).grantable 0 = true := by decide +kernel
theorem witness_slotEventsHappen_grant : (sQ (launchPk 0)).slotPending 0 = true ∧ ((sQ (launchPk 0)).head? 0).isSome = true ∧
    (sQ (launchPk 0)).demand 0 = some (some (0, 0)) ∧ (sQ (launchPk 0)).demandBlocked 0 = false ∧
    (sQ (launchPk 0)).grantable 0 = true ∧ (sQ (launchPk 0)).outranked 0 = false := by decide +kernel
theorem witness_slotEventsHappen_notice : (sQ (launchPk 2)).slotPending 0 = true ∧ ((sQ (launchPk 2)).head? 0).isSome = true ∧
    (sQ (launchPk 2)).demand 0 = some (some (2, 0)) ∧ (sQ (launchPk 2)).demandBlocked 0 = true ∧
    ((sQ (launchPk 2)).slot 0).noticed = false := by decide +kernel
theorem witness_slotEventsHappen_slot :
    ((sQs (fun sl => { sl with fetchFault := true })).slot 0).fetchFault = true ∧ (sQ 0).io.migs = [] ∧
    ((sQs (fun sl => { sl with refusal := some (0, 0x20000, 5) })).slot 0).refusal = some (0, 0x20000, 5) ∧
    ((sQs (fun sl => { sl with qerrHeld := [5] })).slot 0).qerrHeld = 5 :: [] ∧ ((sQs (fun sl => { sl with qerrHeld := [5] })).slot 0).awaits = false := by
  decide +kernel
def grantQ : Grant := { grantA with preemptReq := false, exitedAt := [] }
def headV (code : Byte) (guilt : Bool) : State :=
  sQs (fun sl => { sl with verdicts := [⟨code, guilt, none⟩], grant := some { grantQ with claimants := [0] } })
theorem witness_slotEventsHappen_verdict : ∀ code ∈ [(0 : Byte), 0xA2],
    ((headV code true).slot 0).verdicts = ⟨code, true, none⟩ :: [] ∧
    ((headV code true).slot 0).grant = some { grantQ with claimants := [0] } ∧ grantQ.verdictDone = false ∧ grantQ.launch = true ∧
    ((sQs (fun sl => { sl with verdicts := [⟨code, true, some 5⟩] })).slot 0).verdicts = ⟨code, true, some 5⟩ :: [] := by decide +kernel
/-- A write of VCODE into the area of slot 0, whose claimed head waits; and one while a queue-error event alone does. -/
theorem witness_slotEventsHappen_observe :
    let bs : List (Nat × Byte × Byte) := [(0x40010, 0xA2, 0xFF)]
    let head := sQs (fun sl => { sl with grant := some { grantQ with claimants := [0] } })
    let event := sQs (fun sl => { sl with qerrPosted := [5] })
    head.io.slotb.toNat / 16 ≠ 0 ∧ bs.any (fun w => w.1 == 16 * (head.io.slotb.toNat / 16 + (8 * 0 + 1))) = true ∧
    (head.slot 0).grant = some { grantQ with claimants := [0] } ∧ (head.slot 0).verdicts = [] ∧ event.io.slotb = head.io.slotb ∧
    (event.slot 0).awaits = false ∧ (event.slot 0).qerrPosted = 5 :: [] := by decide +kernel

/-- The same launch once the agent of core 0 has claimed it and its verdict was 0. -/
def grantW : Grant := { grantQ with claimants := [0], verdictDone := true }
theorem witness_workgroupEventsHappen_start : (sQs (fun sl => { sl with grant := some grantW })).launchOf 0 = some (0, grantW) ∧
    ((sQs (fun sl => { sl with grant := some grantW })).core 0).wg = none ∧
    ((sQs (fun sl => { sl with grant := some grantW })).core 0).started = true ∧
    ((sQs (fun sl => { sl with grant := some grantW })).core 0).status = .running ∧
    ((sQs (fun sl => { sl with grant := some grantW })).core 0).ctxid = grantW.ctx ∧ grantW.claimants.contains 0 = true ∧
    grantW.verdictDone = true ∧ grantW.refused = false ∧
    ((sQs (fun sl => { sl with grant := some grantW })).agentVerdict 0 0 0).1 = .accept kernelA [] := by decide +kernel
/-- A workgroup of one thread, which has exited; and a launch whose EXITS have all come. -/
def sExited : State := sU.modCore 0 (fun k => { k with wg := some { wgA with nth := 1 }, threads := [(0, { run := .exited })] })
theorem witness_workgroupEventsHappen_end : ((sExited.core 0).wg = some { wgA with nth := 1 }) ∧ sExited.boundIrqs 0 = [] ∧
    (∀ t, t < 1 → ((sExited.core 0).thread t).run = .exited ∧ ((sExited.core 0).thread t).storeQ = []) ∧ (sExited.core 0).tasks = [] ∧
    (sExited.core 0).ops = [] ∧
    ((sQs (fun sl => { sl with grant := some { grantQ with verdictDone := true, held := [] } })).slot 0).grant =
      some { grantQ with verdictDone := true, held := [] } ∧ grantQ.killed = false ∧ grantQ.refused = false ∧
    grantQ.n ≤ (sQs (fun sl => { sl with grant := some { grantQ with verdictDone := true, held := [] } })).slotExits 0 := by decide +kernel

/-- The workgroup of a killed context, its threads stopped; the launch, whose other cores are gone, is killed too. -/
def sKilled : State :=
  { sQs (fun sl => { sl with grant := some { grantQ with killed := true } }) with
    cores := [(0, { coreA with wg := some { wgA with nth := 1, killed := true }, threads := [(0, { run := .ready, stopped := true })] })] }
theorem witness_workgroupEventsHappen_killed : (sKilled.core 0).wg = some { wgA with nth := 1, killed := true } ∧ sKilled.boundIrqs 0 = [] ∧
    (∀ t, t < 1 → ((sKilled.core 0).thread t).storeQ = []) ∧ (sKilled.core 0).tasks = [] ∧ (sKilled.core 0).ops = [] ∧
    (sKilled.slot 0).grant = some { grantQ with killed := true } ∧ grantQ.held.filter (· ≠ 0) = [] ∧ wgA.ctx = sKilled.mgmt.ctxkId ∧
    sKilled.cores.length = 1 := by decide +kernel

/-! ## Pre-emption -/

/-- A launch on core 0 that is being pre-empted, its workgroup in `p`, and its one thread stopped. -/
def grantP : Grant := { grantQ with preemptReq := true, verdictDone := true }
def sPre (p : Preempt) (g : Grant) : State :=
  { sQs (fun sl => { sl with grant := some g }) with
    cores := [(0, { coreA with wg := some { wgA with preempt := p, nth := 1, served := p = .armed }, threads := [(0, { thA with stopped := true })] })] }
theorem witness_preemptionEventsHappen_deliver : ((sPre .none grantP).slot 0).grant = some grantP ∧ grantP.launch = true ∧
    BR.slice ((sPre .none grantP).slot 0).bindRec ≠ 0 ∧ ((sPre .none grantP).core 0).wg.isSome = true ∧ Preempting grantP ∧
    0 ∈ grantP.held ∧ 0 ∉ grantP.delivered ∧ wgA.slot = 0 ∧ (sPre .none grantP).launchRestoring grantP = false := by
  unfold Preempting; decide +kernel
/-- A pending slot of the same priority whose queue demands core 0; without it no other slot is pending. -/
def sRival : State :=
  { sPre .none grantQ with
    mem := pokes (sPre .none grantQ).mem 0x31000 [0, 0, 0, 0, 0, 0, 0, 0, 4, 0, 0, 0, 1]
    sched := { slots := [(0, { bindRec := recA, grant := some grantQ }), (1, { bindRec := bput recA 16 16 4, window := [⟨0, launchPk 0, false⟩] })]
               queueTable := [(3, 0x30001), (4, 0x31001)] } }
theorem witness_preemptionEventsHappen_rival : (sRival.slot 0).grant = some grantQ ∧ grantQ.launch = true ∧
    BR.slice (sRival.slot 0).bindRec ≠ 0 ∧ sRival.slotPending 1 = true ∧
    BR.prio (sRival.slot 0).bindRec ≤ BR.prio (sRival.slot 1).bindRec ∧ 0 ∈ sRival.demandCores 1 ∧ 0 ∈ grantQ.held ∧
    (∀ k', k' < 64 → k' ≠ 0 → (sPre .none grantQ).slotPending k' = false) := by decide +kernel
theorem witness_preemptionEventsHappen_arm :
    ((sPre .deferring grantP).core 0).wg = some { wgA with preempt := .deferring, nth := 1, served := false } ∧
    (sPre .deferring grantP).partlyArrived { wgA with preempt := .deferring, nth := 1 } = false ∧
    ((sPre .deferring grantP).modCore 0 (fun k => { k with wg := k.wg.map (fun w => { w with bars := mset {} w.bars 3 { count := some 2, arrivals := 1 } }) })).partlyArrived
      { wgA with preempt := .deferring, nth := 1, bars := [(3, { count := some 2, arrivals := 1 })] } = true ∧
    ((sPre .armed grantP).core 0).wg = some { wgA with preempt := .armed, nth := 1, served := true } ∧
    (∃ t, t < 1 ∧ (((sPre .armed grantP).core 0).thread t).saveDone = false) :=
  ⟨by decide +kernel, by decide +kernel, by decide +kernel, by decide +kernel, 0, by decide +kernel⟩
theorem witness_preemptionEventsHappen_saved :
    ((sPre .armed { grantP with delivered := [0] }).slot 0).grant = some { grantP with delivered := [0] } ∧
    Preempting { grantP with delivered := [0] } ∧ grantP.held ≠ [] ∧
    (∀ c ∈ grantP.held, ∃ w, ((sPre .armed { grantP with delivered := [0] }).core c).wg = some w ∧ c ∈ [0] ∧
      ((sPre .armed { grantP with delivered := [0] }).core c).saved w = true) ∧
    (sPre .armed { grantP with delivered := [0] }).io.peers = [] := by
  refine ⟨by decide +kernel, by unfold Preempting; decide, by decide, ?_, by decide +kernel⟩
  intro c hc
  have : c = 0 := by simpa [grantP, grantQ, grantA] using hc
  subst this
  exact ⟨_, rfl, by decide, by decide +kernel⟩

/-! ## Migrations -/

/-- `sSummer` with the page at VA 0x20000 pinned; with a migration of the page at VA 0 and one free fast frame at 0x40000. -/
def sPinned : State := { sSummer with mem := poke sPaged.mem 0x10011 0x05 }
def migA : Migration := { ctx := 0, va := 0, pteAddr := 0x10000, promote := true, entry := 0x10000000007F }
def sMig (m : Migration) : State :=
  { sSummer with
    mem := sPaged.mem ++ [(0x30002, 0x04)]
    io := { sPaged.io with migs := [m], ffr := 0x30000, ffc := bputs 0 [(48, 16, 1), (0, 4, 2)] } }
theorem witness_migrationEventsHappen_demote : sSummer.mgmt.stage ≠ .winter ∧ sPinned.mgmt.stage ≠ .winter ∧
    (∃ e ea, sSummer.walk (CtxF.root (sSummer.ctxRec 0)) 0x20000 = .leaf e 0 ea ∧ Pte.res e = true ∧ Pte.pin e = false ∧ WordAt sSummer ea) ∧
    (∃ e ea, sPinned.walk (CtxF.root (sPinned.ctxRec 0)) 0x20000 = .leaf e 0 ea ∧ Pte.res e = true ∧ Pte.pin e = true) ∧
    sSummer.io.migs = [] ∧ sSummer.holds = [] ∧ (∃ e ea, sSummer.walk (CtxF.root (sSummer.ctxRec 0)) 0 = .leaf e 0 ea ∧ Pte.res e = false) :=
  ⟨by decide +kernel, by decide +kernel, ⟨0x2013F, 0x10010, by unfold WordAt; decide +kernel⟩, ⟨0x2053F, 0x10010, by decide +kernel⟩, by decide +kernel, rfl,
    ⟨0x10000000007F, 0x10000, by decide +kernel⟩⟩
/-- A promotion and a demotion (of the page at VA 0x20000, from a ring of free capacity frames) that have no frame yet. -/
def migD : Migration := { ctx := 0, va := 0x20000, pteAddr := 0x10010, promote := false, entry := 0x2023F }
def sMigD : State := { sMig migD with io := { (sMig migD).io with cfr := 0x30000, cfc := bputs 0 [(48, 16, 1), (0, 4, 2)] } }
theorem witness_migrationEventsHappen_take : (sMig migA).io.migs[0]? = some migA ∧ migA.frame = none ∧ migA.promote = true ∧
    (sMig migA).sourceLost migA = false ∧ Ring.count ((sMig migA).ring true).2 ≠ 0 ∧
    ((sMig migA).settleDrains.takeFrame true).isSome = true ∧ sMigD.io.migs[0]? = some migD ∧ migD.promote = false ∧
    sMigD.settleDrains.drainOf (.demote migD.pteAddr) = none ∧ Ring.count (sMigD.ring false).2 ≠ 0 ∧
    (sMigD.settleDrains.takeFrame false).isSome = true := by decide +kernel

theorem noPageWaits {s : State} (e : ∀ p ∈ s.cores, ∀ t ∈ p.2.threads, t.2.run = .ready) : NoPageWaits s := by
  intro p hp t ht x va a h; rw [e p hp t ht] at h; cases h

/-- A migration with its frame whose entry is as its last CAS left it; one whose entry has changed; one that has lost its source. -/
def migF : Migration := { migA with frame := some 0x40000 }
theorem witness_migrationEventsHappen_end : (sMig migF).io.migs[0]? = some migF ∧ migF.frame = some 0x40000 ∧
    (sMig migF).peekMem 0x10000 8 64 = migF.entry ∧ (sMig migF).holds = [] ∧ (sMig migF).sourceLost migF = false ∧ WordAt (sMig migF) migF.pteAddr ∧
    Migration.alone migF ∧ NoPageWaits (sMig migF) ∧ (∀ fast, ApartFrom (ringEnd (sMig migF) fast) migF.pteAddr) ∧
    (sMig { migA with entry := 0 }).peekMem 0x10000 8 64 ≠ 0 ∧ (sMig { migA with lost := true }).sourceLost { migA with lost := true } = true :=
  ⟨by decide +kernel, by decide +kernel, by decide +kernel, rfl, by decide +kernel, by unfold WordAt; decide +kernel,
    by unfold Migration.alone; decide +kernel, noPageWaits (by decide +kernel), by unfold ApartFrom; decide +kernel, by decide +kernel,
    by decide +kernel⟩
theorem witness_migrationEventsHappen_append : IoActor.system ≠ .management ∧ (sMig migA).mgmt.stage ≠ .winter ∧
    Ring.count ((sMig migA).ring true).2 < 2 ^ Ring.slog ((sMig migA).ring true).2 ∧ WordAt (sMig migA) (ringEnd (sMig migA) true) ∧
    (sMig migA).holds = [] ∧ sPaged.mgmt.stage = .winter :=
  ⟨by decide, by decide +kernel, by decide +kernel, by unfold WordAt; decide +kernel, rfl, by decide +kernel⟩
def peerA : PeerReq := ⟨U, { accA with kind := .load false false }, 0x800000000000, [], false⟩
theorem witness_migrationEventsHappen_answer : ({ sU with io := { sU.io with peers := [peerA] } } : State).io.peers[0]? = some peerA ∧
    peerA.a.kind = .load false false := ⟨rfl, rfl⟩

/-! ## The root complex -/

/-- A doorbell entry of context 0 whose target is a message ring at 0x20000; and one held doorbell. -/
def bellRing : BitVec 256 := bputs 0 [(255, 1, 1), (253, 2, 2), (232, 4, 2), (128, 64, 0x20000), (64, 64, 0x9000)]
def bellA : HeldBell := { h := U, entry := 5, kind := 1, target := 3, size := 4, val := 1, after := 0 }
/-- A DATA message to context 0 of module 0. -/
def msgBits : BitVec 512 := bputs 0 [(0, 8, 1)]
def msgA : Message := ⟨msgBits, false, 0, 0x20000, false, false, none⟩
def sBell : State :=
  { sU with
    mem := sU.mem ++ [(0x20000, 1)]
    io := { sU.io with doorbells := [(5, bellRing)], ringW := [(5, 1)], proxy := [bellA], messages := [msgA] } }
theorem witness_messageEventsHappen_bell : sBell.io.proxy[0]? = some bellA ∧ sBell.bellReady bellA = true ∧
    bellBlocked sBell.io.proxy 0 bellA = false := by decide +kernel
theorem witness_messageEventsHappen_take : Bell.v (sBell.bell 5) = true ∧ Bell.kind (sBell.bell 5) = 2 ∧
    mget 0 sBell.io.ringIdx 5 ≠ mget 0 sBell.io.ringW 5 ∧
    (sBell.translate .iommu 0 true .unitLoad 0x20000).1 = .pa 0x20000 0 ∧
    (let r := ((sBell.translate .iommu 0 true .unitLoad 0x20000).2.cxlReads 0x20000 64).readGranules 0 0x20000 4
     let bits : BitVec 512 := bputs (BitVec.ofNat 512 (bytesNat r.1)) [(96, 16, 0), (64, 8, r.2.2.io.modId.toNat)]
     r.2.1 = false ∧ Msg.reserved bits = false ∧ Msg.type bits = 1 ∧ Msg.dstMod bits = r.2.2.io.modId.toNat) := by decide +kernel
/-- The same with the ring beyond the 60-bit space. -/
theorem witness_messageEventsHappen_range : 2 ^ 60 ≤ (Bell.target (bput bellRing 188 4 1) + BitVec.ofNat 64 (64 * 0)).toNat ∧
    Bell.v (bput bellRing 188 4 1) = true ∧ Bell.kind (bput bellRing 188 4 1) = 2 := by decide +kernel
/-- A held doorbell to the bus with no root link, and one to a message ring. -/
theorem witness_messageEventsHappen_kinds : bellA.kind = 1 ∧ sBell.qDesc? (bellA.target.toNat % 65536) = none ∧ sBell.rootUp = false ∧
    (∀ k ∈ [0, 2], sBell.bellReady { bellA with kind := k } = true ∧
      bellBlocked [{ bellA with kind := k }] 0 { bellA with kind := k } = false) := by decide +kernel
theorem witness_messageEventsHappen_deliver : sBell.io.messages[0]? = some msgA ∧ msgA.code = none ∧ sBell.msgBlocked 0 msgA = false ∧
    msgA.fromMgmt = false ∧ sBell.localMsg msgA = true ∧ msgA.held = false ∧
    CtxF.state (sBell.ctxRec (Msg.dstCtx (bput msgBits 80 16 9))) ≠ 1 ∧ Msg.dstCtx msgA.bits = (0 : BitVec 16).toNat := by decide +kernel
/-- A message from another module for context 1, which is ready, with an inbox of four entries at 0x60000. -/
def msgR : Message := { msgA with bits := bput msgBits 80 16 1, remote := true }
def sInbox : State :=
  { sBell with io := { sBell.io with
      messages := [msgR], ctxs := [(0, BitVec.ofNat 256 0x4000), (1, bputs 0 [(192, 64, 0x60000), (156, 4, 2), (105, 2, 1), (102, 3, 1)])] } }
theorem witness_messageEventsHappen_inbox : sInbox.io.messages[0]? = some msgR ∧ sInbox.msgBlocked 0 msgR = false ∧
    (let r := sInbox.ctxRec (Msg.dstCtx msgR.bits)
     CtxF.state r = 1 ∧ 2 ≤ CtxF.ilog r ∧ CtxF.ilog r ≤ 12 ∧ CtxF.run r ≠ 0 ∧ CtxF.inbox r = 0x60000 ∧
     mget 0 sInbox.memKey (0x60000 / 16) = sInbox.keyTag (CtxF.ckey r)) ∧
    peeks sInbox.mem 0x60000 16 = List.replicate 16 0 ∧ sInbox.installed 0x60000 = true ∧ sInbox.installed 0x60040 = true ∧
    (∀ g ∈ [0x6000, 0x6004, 0x6005, 0x6006, 0x6007], sInbox.subFailed (16 * g) = false ∧ sInbox.slotGranule? g = none) ∧
    sInbox.holds = [] ∧ (∀ n ∈ sInbox.io.messages, n.held = false) := by decide +kernel
/-- A held message that its context no longer takes. -/
theorem witness_messageEventsHappen_retry : (∃ m : Message, m = { msgR with bits := bput msgBits 80 16 9, held := true } ∧
    ({ sInbox with io := { sInbox.io with messages := [m] } } : State).io.messages[0]? = some m ∧ m.held = true ∧
    Msg.dstCtx m.bits = (9 : BitVec 16).toNat ∧ m.fromMgmt = false ∧ m.remote = true ∧
    CtxF.state (sInbox.ctxRec (9 : BitVec 16).toNat) ≠ 1) := ⟨_, rfl, by decide +kernel⟩
/-- A peer link to module 2, and a receive ring at the start of SRAM. -/
def sPeer : State :=
  { sM with io := { sM.io with pmode := 6, links := [(0, some { up := true, rate := 1, cxl := false, module := 2, reached := [2] })], mrbase := 0x100000 } }
theorem witness_messageEventsHappen_receive : sPeer.peerUp (Msg.srcMod (bputs 0 [(0, 8, 1), (64, 8, 2)])) = true ∧
    Msg.type (bputs 0 [(0, 8, 1), (64, 8, 2)]) = 1 ∧ Msg.type (bputs 0 [(0, 8, 2), (64, 8, 2)]) = 2 ∧
    0x100000 ≤ sPeer.io.mrbase.toNat ∧ sPeer.io.mrbase.toNat + 1088 ≤ 0x200000 ∧ sPeer.dataWaits 2 = false ∧
    (sPeer.sramWord 0 + 2 ^ 32 - sPeer.sramWord 8) % 2 ^ 32 ≠ 16 := by decide +kernel
/-- A TURN-READY of the management core to module 2, which a link reaches, and to module 3, which none does. -/
def msgT (md : Nat) : Message := { msgA with bits := bputs 0 [(0, 8, 2), (72, 8, md)], fromMgmt := true }
theorem witness_messageEventsHappen_turn : ∀ md ∈ [2, 3], Msg.type (msgT md).bits = 2 ∧ Msg.reserved (msgT md).bits = false ∧
    Msg.dstMod (msgT md).bits ≠ sPeer.io.modId.toNat ∧ sPeer.peerUp (Msg.dstMod (msgT md).bits) = decide (md = 2) ∧
    sPeer.msgBlocked 0 (msgT md) = false := by decide +kernel

/-- A request of function 0x100, for memory or for the aperture; the function is valid, with ATS and PRI. -/
def reqA (addr : BitVec 64) (write : Option (List Byte)) : EpReq := ⟨0x100, none, false, addr, 4, write, false, false⟩
def sEp : State :=
  { sU with io := { sU.io with
      fns := [(0x100, bputs 0 [(61, 3, 7)])], irqs := [(0, bputs 0 [(63, 1, 1), (60, 2, 2), (28, 16, 0x100)]), (1, bputs 0 [(63, 1, 1), (60, 2, 1), (28, 16, 0x100)])] } }
theorem witness_endpointEventsHappen_aperture : overPayload .root (reqA 0xFEE00000 (some [0, 0, 0, 0])) = false ∧
    overPayload .root (reqA 0x20000 none) = false ∧ overPayload .peer (reqA 0x20000 none) = false ∧ inAperture (reqA 0xFEE00000 (some [0, 0, 0, 0])).addr = true ∧
    IrqF.v (sEp.irq 0) = true ∧ IrqF.src (sEp.irq 0) = false ∧ IrqF.rid (sEp.irq 0) = 0x100 ∧ IrqF.state (sEp.irq 0) = 2 ∧
    inAperture 0xFEE00010 = true ∧ IrqF.v (sEp.irq 1) = true ∧ IrqF.src (sEp.irq 1) = false ∧ IrqF.rid (sEp.irq 1) = 0x100 ∧
    IrqF.state (sEp.irq 1) = 1 := by decide +kernel
theorem witness_endpointEventsHappen_memory : inAperture (reqA 0x20000 none).addr = false ∧ Fn.v (sEp.fn 0x100) = true ∧
    (reqA 0x20000 none).exec = false ∧ sEp.ctxOfPasid (Fn.dpasid (sEp.fn 0x100)) = some 0 ∧ Fn.v (sU.fn 0x100) = false ∧
    (reqA 0x20000 none).translated = false ∧ Fn.ats (sEp.fn 0x100) = true ∧
    Fn.v (({ sEp with io := { sEp.io with fns := [(0x100, bputs 0 [(63, 1, 1)])] } } : State).fn 0x100) = true ∧
    Fn.ats (({ sEp with io := { sEp.io with fns := [(0x100, bputs 0 [(63, 1, 1)])] } } : State).fn 0x100) = false := by decide +kernel
/-- An open inbound window of port 0, read and write, at 0x20000. -/
def windowIn : BitVec 256 := bputs 0 [(253, 3, 7), (64, 60, 0x20000), (0, 64, 0x20000)]
def sIn : State := { sEp with io := { sEp.io with ntb := [(0, windowIn)], pmode := 6, links := [(0, some { up := true, rate := 1, cxl := false, module := 2, reached := [2] })] } }
theorem witness_endpointEventsHappen_peer : sIn.linkUp 0 = true ∧ sIn.linkRole 0 = .peer ∧ inAperture (BitVec.ofNat 64 0x20000) = false ∧
    sIn.inboundWindow 0 0x40000 4 = none ∧ sIn.inboundWindow 0 0x20000 4 = some windowIn ∧
    windowIn.getLsbD 253 = true ∧ sIn.ctxOfPasid (bget windowIn 228 20) = some 0 := by decide +kernel
/-- A write of one byte too many. -/
theorem witness_endpointEventsHappen_payload : (reqA 0x20000 (some (List.replicate 513 0))).write = some (List.replicate 513 0) ∧
    512 < (List.replicate 513 (0 : Byte)).length := by decide +kernel

/-- A function that may present a PASID, which no record has. -/
def sPasid : State := { sEp with io := { sEp.io with fns := [(0x100, bputs 0 [(60, 4, 15)])] } }
theorem witness_translationServiceEventsHappen : sU.xlateAllowed 0x100 none Fn.ats = false ∧ sU.xlateAllowed 0x100 none Fn.pri = false ∧
    sPasid.xlateCtx 0x100 (some 7) = none ∧ sPasid.xlateAllowed 0x100 (some 7) Fn.ats = true ∧
    sPasid.xlateAllowed 0x100 (some 7) Fn.pri = true ∧
    sEp.xlateAllowed 0x100 none Fn.ats = true ∧ sEp.xlateAllowed 0x100 none Fn.pri = true ∧ sEp.xlateCtx 0x100 none = some 0 ∧
    (sEp.xlate .iommu 0 true .load 0x20000).1 = .pa 0x20000 0 ∧
    (sEp.translate .iommu 0 true .load 0x20000).1 = .pa 0x20000 0 ∧ (sPaged.translate .iommu 0 true .load 0).1 = .absent 0x10000 := by
  decide +kernel
def drainA : Drain := { who := .register, kind := .all, addr := 0, ctx := 0, owing := [0x100] }
/-- One invalidation, and two of the same function, of which the first is late. -/
def sOwed (ds : List Drain) : State := { sEp with io := { sEp.io with drains := ds } }
theorem witness_translationServiceEventsHappen_owed : (sOwed [drainA]).owedInvs[0]? = some (0, 0x100) ∧
    (sOwed [drainA]).io.drains[0]? = some drainA ∧
    (sOwed [drainA, { drainA with ctx := 1 }]).io.drains.findIdx? (fun d => d.owing.contains 0x100) = some 0 ∧
    (sOwed [drainA, { drainA with ctx := 1 }]).io.drains[1]? = some { drainA with ctx := 1 } ∧
    (0x100 : BitVec 16) ∈ ({ drainA with ctx := 1 } : Drain).owing := by decide +kernel

/-- A root port, which alone trains CXL, at 64 GT/s at most. -/
def sRoot : State := { sPeer with io := { sPeer.io with pmode := 2 } }
theorem witness_linkEventsHappen : sPeer.linkRole 0 = .peer ∧ trainedRate 700 false = some 640 ∧ trainedRate 1280 false = some 1280 ∧
    sRoot.linkRole 0 = .root ∧ trainedRate 1280 (true && sRoot.linkRole 0 == .root) = some 640 ∧
    mget none sPeer.io.links 0 = some { up := true, rate := 1, cxl := false, module := 2, reached := [2] } ∧
    sPeer.hostUp = false ∧
    (mget 0 sM.io.ntb (32 * 0 + 0) : BitVec 256).getLsbD 255 = true ∧ (mget 0 sM.io.ntb (32 * 0 + 1) : BitVec 256).getLsbD 255 = false := by
  decide +kernel
/-- An up host link with the options of its role, in the Winter and in the Summer stage; the host has enabled queue 1 of the console. -/
def sHost (stage : Stage) : State :=
  { sPeer with
    mgmt := { sPeer.mgmt with stage }
    io := { sPeer.io with
      pmode := 4
      links := [(0, some { up := true, rate := 1, cxl := false, module := 2, reached := [], options := portOptions .host 1 })]
      virtqs := [(1, { enabled := true })]
      hostRegs := [(0x900, some 7)] } }
theorem witness_linkEventsHappen_host : (sHost .winter).hostUp = true ∧ ((sHost .winter).virtq 0 1).enabled = true ∧
    ((sHost .winter).virtq 1 0).enabled = false ∧ ((sHost .winter).virtioCarrier 0).1 = .management ∧
    ((sHost .summer).virtioCarrier 0).1 = .system ∧ (sHost .winter).anyLink (·.msixSent) = true ∧
    mget none (sHost .winter).io.hostRegs (0x8FE + 2) = some 7 ∧
    mget none (sHost .winter).io.links 0 = some { up := true, rate := 1, cxl := false, module := 2, reached := [], options := portOptions .host 1 } ∧
    (portOptions .host 1).aer = true := by decide +kernel
theorem witness_systemCoreEventsHappen : sU.mgmt.stage = .winter ∧ sSummer.mgmt.stage ≠ .winter ∧
    (∀ g ∈ granules 0x20000 64, sSummer.installed (16 * g) = true ∧ isPeer (16 * g) = false ∧ mget 0 sSummer.memKey g = sSummer.keyTag 0) := by
  decide +kernel

/-! ## Images under a key -/

/-- The last lane's image of queue 3, which the core's context owns, under key slot 5, a context key of it. -/
def sImgKey : State :=
  { sImg with
    mem := (sQ 0).mem
    sched := { queueTable := [(3, 0x30001)] }
    keys := { sImg.keys with slots := [(5, ⟨.gcm, 0, []⟩)] }
    cores := [(0, { coreA with
      ksel := 5, lanesDone := List.range 63
      threads := coreA.threads ++ [(supKey 63, { regs := [(2, 0x20000), (4, 0x40000), (6, 64), (7, 3)] })] })] }
def dfImg : DF := df 20 (.reg 2) (.reg 4) (.reg 6)
theorem witness_imageIssueCompletes_key : sImgKey.cur = .sup 0 ∧ (sImgKey.core 0).lanesLeft = [63] ∧
    (∀ l' ∈ (sImgKey.core 0).lanesDone, (sImgKey.thread (.sup 0 l')).run = .ready) ∧
    Sources sImgKey (.sup 0 63) [(.reg 2, .pair), (.reg 4, .pair), (.reg 6, .pair)] (dfImg.fields.dst .w32) ∧
    ImageOk sImgKey 0 (sImgKey.opPair (.sup 0 63) (.reg 2)) (sImgKey.opPair (.sup 0 63) (.reg 4)) (sImgKey.opPair (.sup 0 63) (.reg 6)) ∧
    bget (sImgKey.opPair (.sup 0 63) (.reg 6)) 32 16 = 3 ∧ sImgKey.imageKeyFault 0 3 true = false ∧
    OpRoom sImgKey 0 (supKey 63) wgA (.sealImg 0x20000 0x40000 0 3 0 64) 4 :=
  ⟨rfl, by decide +kernel, by decide +kernel, by unfold Sources Named; decide +kernel, by unfold ImageOk; decide +kernel,
    by decide +kernel, by decide +kernel, by unfold OpRoom; decide +kernel⟩
/-- The last lane's open, refused by its key slot, for a workgroup of context 1 under restore. -/
def sImgLost : State := sImg.modCore 0 (fun k => { k with wg := some { wgA with ctx := 1, restoring := true } })
theorem witness_imageIssueCompletes_lost : sImgLost.cur = .sup 0 ∧ (sImgLost.core 0).lanesLeft = [63] ∧
    (sImgLost.core 0).wg = some { wgA with ctx := 1, restoring := true } ∧ sImgLost.imageKeyFault 0 0 false = true ∧
    ImageOk sImgLost 0 (sImgLost.opPair (.sup 0 63) (.reg 4)) (sImgLost.opPair (.sup 0 63) (.reg 2)) (sImgLost.opPair (.sup 0 63) (.reg 6)) :=
  ⟨rfl, by decide +kernel, by decide +kernel, by decide +kernel, by unfold ImageOk; decide +kernel⟩

end Sys2Proof.Tests
end

