-- ==== Sys2Proof/Tests/WitnessEnd.lean ====
section
/-! SUPPORT. Witnesses of the statements about errors, keys, power, control, SPDM, doorbells, frames, traps, the step, the encoding
and the invariants. -/

set_option Elab.async false

namespace Sys2Proof.Tests
open Sys2Proof.Machine Sys2Proof.Claims

/-! ## Errors, keys, power, control -/

def cmdA : HbmCommand := { tag := 5, pa := 0x20000, beats := 4, data := none, replayed := true }
/-- A sub-channel with one command in its history; with a command replayed three times. -/
def subA (replays : Nat) : SubChannel := { history := [cmdA], nextTag := 6, replays, replayTag := 5 }
def sSub (replays : Nat) : State := { sU with errors := { subs := [(subChannel 0x20000, subA replays)] } }
/-- A read and a write of four beats that wait; a write of the same bytes in the queue of their sub-channel. -/
def readA : Burst := ⟨0, 0x20000, 16, false, []⟩
def writeA : Burst := ⟨0, 0x20000, 16, true, (List.range 16).map (0x20000 + ·)⟩
def queuedA : QueuedWrite := ⟨writeA.pa, writeA.size, writeA.mask⟩
def sWaits (r : List Burst) (c : SubChannel) : State := { sU with bursts := r, errors := { subs := [(subChannel 0x20000, c)] } }
theorem witness_hbmEventsHappen_waiting : ∀ r ∈ [readA, writeA], ∀ c ∈ [({} : SubChannel), { failed := true }],
    (sWaits [r] c).bursts.find? (fun x => x.pa == 0x20000 && x.size == 4 * 4 && x.write == r.write) = some r ∧
    (sWaits [r] c).bursts.takeWhile (· ≠ r) = [] ∧ (sWaits [r] c).l2Holds r.pa r.size = false ∧
    ({ sWaits [r] c with l2 := [(0x2000, true)] } : State).l2Holds r.pa r.size = true ∧
    ((sWaits [r] c).sub (subChannel r.pa)).failed = c.failed := by decide +kernel
theorem witness_hbmEventsHappen_read : ({ writes := [queuedA] } : SubChannel).covers readA.pa readA.size = true ∧
    ({} : SubChannel).covers readA.pa readA.size = false ∧ (4 : Nat) ∈ [4, 8, 16, 32] ∧ readA.pa % (4 * 4) = 0 ∧
    ((sWaits [readA] {}).sub (subChannel readA.pa)).history.length < 64 ∧
    ((sWaits [readA] {}).l2In (readA.pa / 16)).length + 8 ≤ l2Slice ∧
    64 ≤ ((sWaits [readA] { history := List.replicate 64 cmdA }).sub (subChannel readA.pa)).history.length := by decide +kernel
theorem witness_hbmEventsHappen_drain : (sWaits [] { writes := [queuedA] }).bursts = [] ∧
    ((sWaits [] { writes := [queuedA] }).sub (subChannel 0x20000)).writes.find? (fun w => w.pa == 0x20000 && w.size == 4 * 4) = some queuedA ∧
    ((sWaits [] { writes := [queuedA] }).sub (subChannel 0x20000)).history.length < 64 := by decide +kernel
theorem witness_hbmEventsHappen : ((sSub 0).sub (subChannel 0x20000)).history = cmdA :: [] ∧
    ((sSub 0).sub (subChannel 0x20000)).history.dropWhile (fun e => e.tag ≠ 5) = cmdA :: [] ∧
    ((sSub 0).sub (subChannel 0x20000)).replays < 3 ∧ 3 ≤ ((sSub 3).sub (subChannel 0x20000)).replays ∧
    ((sSub 3).sub (subChannel 0x20000)).replayTag = 5 := by decide +kernel

theorem witness_errorEventsHappen : 0xE0 ≤ (0xE0 : BitVec 8).toNat ∧ (0xE5 : BitVec 8).toNat ≤ 0xE5 ∧ (⟨0, 0, 1, 0⟩ : Loc).kind = 0 ∧ (⟨0, 0, 1, 0⟩ : Loc).index.toNat / 4096 < 192 ∧
    sU.inTier 0 0x20000 = true ∧ mget none sM.io.links ((⟨5, 0, 0, 0⟩ : Loc).index.toNat / 256) = some { up := true, rate := 1, cxl := false, module := 2, reached := [2] } ∧
    (⟨13, 0, 0, 0⟩ : Loc).kind = 13 ∧ (sU.core 1).wg = none ∧ (⟨5, 0, 0, 0⟩ : Loc).kind.toNat ≤ 5 ∧
    sPaged.inTier 1 0x100000000000 = true ∧ sU.saves = [] := by decide +kernel
/-- A link of the host face, which reports through AER, up and down. -/
theorem witness_errorEventsHappen_link : mget none (sHost .winter).io.links ((⟨5, 0, 0, 0⟩ : Loc).index.toNat / 256) =
      some { up := true, rate := 1, cxl := false, module := 2, reached := [], options := portOptions .host 1 } ∧
    (portOptions .host 1).aer = true ∧ (portOptions .peer 640).errorsLogged = true := by decide +kernel
/-- A save whose workgroup is armed and has sealed an image whose page at 0x20000 lies on each stack. -/
def grantS : Grant := { grantP with delivered := [0], images := [(0, 0x20000, 64)] }
theorem witness_errorEventsHappen_save : grantS ∈ (sPre .armed grantS).saves ∧ (sPre .armed grantS).mayRunOut grantS = false ∧
    ∀ stack, stack < 12 → (sPre .armed grantS).sealsOnto grantS stack = true := by decide +kernel
def testA : Test := { kind := 0, core := 0, index := 1, ext := 0, events := [4] }
theorem witness_errorEventsHappen_test : ({ sU with errors := { tests := [testA] } } : State).errors.tests.find? (fun t => t.events.contains 4) = some testA ∧
    testA.events = [4] ∧ ({ tests := [testA] } : Errors).recent 4 { kind := testA.kind, core := testA.core, index := testA.index, ext := testA.ext } < 2 := by
  decide +kernel

theorem witness_keyAndGuiltEventsHappen : sU.mgmt.ksd.length + 8 ≤ 64 ∧ sU.keyInFlight 7 = false ∧
    ({ sU with mgmt := { ksd := List.replicate 64 1 } } : State).mgmt.ksd.length = 64 ∧
    (∀ p ∈ sU.io.ctxs, CtxF.guilt (sU.ctxRec p.1) < Nat.max 1 (bget (5 : Word) 0 8)) ∧ CtxF.run (sU.ctxRec 7) = 0 := by decide +kernel
theorem witness_powerEventsHappen : sU.mgmt.plim.toNat < 2801 ∧ 100 * 600 < 95 * sU.mgmt.plim.toNat ∧ sU.mgmt.hot = false ∧
    2700 ≤ sU.mgmt.plim.toNat ∧ 95 * sU.mgmt.plim.toNat ≤ 100 * 2700 ∧ 95 ≤ (95 : BitVec 8).toNat ∧ (95 : BitVec 8).toNat < 110 ∧ (89 : BitVec 8).toNat < 90 ∧
    110 ≤ (110 : BitVec 8).toNat ∧ (∀ p ∈ sU.cores, ∀ t ∈ p.2.threads, t.2.storeQ = []) ∧ sU.mgmt.thread.storeQ = [] := by decide +kernel

/-- A state that may advance to Spring, to Summer. -/
def sBoot (stage : Stage) : State :=
  { sU with
    mgmt := { stage }
    keys := { meas := [(1, List.replicate 48 0x11), (3, List.replicate 48 0x33)] }
    io := { sU.io with slotb := 0x40000 } }
theorem witness_controlEventsHappen : ((sU.modCore 1 (fun k => { k with status := .stopped })).core 1).status = .stopped ∧
    ((sU.modCore 1 (fun k => { k with status := .stopped })).core 1).wg = none ∧ (sU.core 1).status = .running ∧ (sU.core 1).wg = none ∧
    ((sU.modCore 1 (fun k => { k with status := .retired })).core 1).status = .retired ∧ sU.mgmt.ctxkGo = false ∧
    ({ sU with mgmt := { ctxkGo := true } } : State).mgmt.ctxkGo = true ∧ (sBoot .winter).mayAdvance = true ∧
    (sBoot .winter).mgmt.stage = .winter ∧ (sBoot .spring).mayAdvance = true ∧ (sBoot .spring).mgmt.stage = .spring ∧
    sU.mayAdvance = false ∧ sU.io.msBusy = false ∧ (∀ t ∈ (sU.core 1).threads, t.2.storeQ = []) ∧ (sBoot .winter).mgmt.retiredPos = [] ∧
    (∀ p ∈ (sBoot .spring).cores, ∀ t ∈ p.2.threads, t.2.storeQ = []) ∧ (sBoot .spring).sched.slots = [] := by decide +kernel

/-! ## SPDM -/

/-- A request of `bs`, posted in the DOE connection of a state whose connection is in `st`. -/
def sSpdm (st : SpdmState) (bs : List Byte) : State :=
  { sM with
    spdmDoe := { st }
    mgmt := { sM.mgmt with sram := pokes (pokes (pokes [] 0x80000 [1]) 0x80004 [BitVec.ofNat 8 bs.length]) 0x81000 bs } }
def getVersionReq : List Byte := [0x10, 0x84, 0, 0]
/-- A host port that is up, with the options Table 18-1 gives it. -/
def sDoeLink : State :=
  { sPeer with io := { sPeer.io with pmode := 4, links := [(0, some { up := true, rate := 1, cxl := false, module := 2, reached := [], options := portOptions .host 1 })] } }
theorem witness_spdmEventsHappen_post : sM.transportUp .i3c = true ∧ sM.tseq .i3c = sM.rseq .i3c ∧ (sM.spdm .i3c).sent.toNat = sM.rseq .i3c ∧
    sDoeLink.transportUp .doe = true ∧ getVersionReq ≠ [] ∧ getVersionReq.length ≤ 4096 ∧ sM.tseq .doe = sM.rseq .doe ∧
    (sM.spdm .doe).sent.toNat = sM.rseq .doe ∧ (sSpdm .start getVersionReq).serving? .i3c = false ∧
    ({ sM with spdmI3c := { sent := 1 } } : State).serving? .i3c = true := by decide +kernel
/-- A reply laid down and not yet sent. -/
def sReply : State := { sM with mgmt := { sM.mgmt with sram := [(0x80000, 1), (0x80008, 1), (0x8000C, 4)] } }
theorem witness_spdmEventsHappen_send : sReply.tseq .doe = sReply.rseq .doe ∧ (sReply.spdm .doe).sent.toNat ≠ sReply.rseq .doe ∧
    (∀ g ∈ granules (Conn.area .doe + 12) 4 ++ granules (Conn.area .doe + 0x2000) (sReply.sramWord (Conn.area .doe + 12)),
      mget false sReply.mgmt.sramPoison g = false) ∧
    (∃ g ∈ granules (Conn.area .doe + 0x2000) 4,
      mget false ({ sReply with mgmt := { sReply.mgmt with sramPoison := [(0x8200, true)] } } : State).mgmt.sramPoison g = true) ∧
    (({ sReply with spdmDoe := { waiting := [getVersionReq] } } : State).spdm .doe).waiting = getVersionReq :: [] := by decide +kernel
theorem witness_spdmEventsHappen_getVersion : (sSpdm .start getVersionReq).scanTurn .doe = true ∧
    (sSpdm .start getVersionReq).request? .doe = some getVersionReq ∧
    ((sSpdm .start getVersionReq).answer .doe getVersionReq).code = 0x84 ∧
    ((sSpdm .start getVersionReq).answer .doe getVersionReq).after.isSome = true := by decide +kernel
/-- An unknown request is answered by an error. -/
theorem witness_spdmEventsHappen_error : (sSpdm .start [0x12, 0x55, 0, 0]).scanTurn .doe = true ∧
    (sSpdm .start [0x12, 0x55, 0, 0]).request? .doe = some [0x12, 0x55, 0, 0] ∧
    ((sSpdm .start [0x12, 0x55, 0, 0]).answer .doe [0x12, 0x55, 0, 0]).after = none := by decide +kernel
/-- Each request of Table 21-2 posted in the state that accepts it, and four that none does. -/
def capabilitiesReq : List Byte := [0x12, 0xE1, 0, 0, 0, 12, 0, 0, 0, 0, 0, 0, 0, 0x10, 0, 0, 0, 0x10, 0, 0]
def algorithmsReq : List Byte := [0x12, 0xE3, 0, 0, 0x20, 0, 1, 0, 0x80, 0, 0, 0, 2, 0, 0, 0] ++ List.replicate 16 0
def certificateReq : List Byte := [0x12, 0x82, 0, 0, 0, 0, 0, 4]
def challengeReq (kind : Byte) : List Byte := 0x12 :: 0x83 :: 0 :: kind :: List.replicate 32 7
def measurementsReq (signed : Bool) : List Byte :=
  0x12 :: 0xE0 :: (if signed then 1 else 0) :: 3 :: (if signed then List.replicate 32 7 ++ [0] else [])
/-- The nonce of a challenge that is accepted. -/
theorem witness_spdmEventsHappen_nonce : (nonceOf 0x83 (challengeReq 0)).isSome = true ∧ (nonceOf 0xE0 (measurementsReq false)).isSome = true := by decide
theorem witness_spdmEventsHappen_posted : ∀ r ∈ ([(.start, getVersionReq), (.v, capabilitiesReq), (.c, algorithmsReq), (.n, [0x12, 0x81, 0, 0]),
      (.n, certificateReq), (.n, challengeReq 0), (.n, challengeReq 1), (.n, challengeReq 255), (.n, measurementsReq false),
      (.n, measurementsReq true), (.start, [0x12]), (.start, [0x13, 0, 0, 0]), (.n, [0x10, 0x81, 0, 0]), (.n, [0x12, 0x55, 0, 0]),
      (.c, challengeReq 0)] : List (SpdmState × List Byte)),
    SpdmPosted (sSpdm r.1 r.2) .doe r.2 ∧ ((sSpdm r.1 r.2).spdm .doe).st = r.1 ∧ logsOpen ((sSpdm r.1 r.2).spdm .doe) := by
  unfold SpdmPosted logsOpen; decide +kernel
theorem witness_spdmEventsHappen_contents : bytesNat ((algorithmsReq.drop 4).take 2) = algorithmsReq.length ∧
    (algorithmsReq.getD 6 0).getLsbD 0 = true ∧ (bytesNat ((algorithmsReq.drop 8).take 4)).testBit 7 = true ∧
    (bytesNat ((algorithmsReq.drop 12).take 4)).testBit 1 = true ∧
    0 < ({ sM with mgmt := { sM.mgmt with flash := [(0x400000, 4)] } } : State).chain.length := by decide +kernel

/-! ## Doorbells, frames, results -/

/-- A doorbell of context 0 named 0x1000 (pair 4). -/
def bellName : BitVec 256 := bputs 0 [(255, 1, 1), (253, 2, 1), (128, 64, 3), (64, 64, 0x1000)]
def sDoor : State := { sU with io := { sU.io with doorbells := [(2, bellName)] } }
theorem witness_doorbellAndUnassignedComplete : UserTurn sDoor 0 0 ∧ Named sDoor U (addrUses dfAddr.fields ++ [(dfAddr.fields.c, .w32)]) ∧
    (sDoor.addrOf U dfAddr.fields).toNat % 4 = 0 ∧ (sDoor.addrOf U dfAddr.fields).toNat < 2 ^ 60 ∧
    Clean (sDoor.addrPoison U dfAddr.fields ++ [(sDoor.opPoison U dfAddr.fields.c .w32, 2)]) ∧
    sDoor.findBell (sDoor.core 0).ctxid (sDoor.addrOf U dfAddr.fields) false = some (2, bellName) ∧
    (sDoor.io.proxy.filter (fun b => b.h == U)).length < 8 ∧ sU.findBell (sU.core 0).ctxid (sU.addrOf U dfAddr.fields) false = none :=
  ⟨rfl, named (by decide +kernel), by decide +kernel, by decide +kernel, by unfold Clean; decide +kernel, by decide +kernel,
    by decide +kernel, by decide +kernel⟩

theorem witness_registerInstructionsFrame : ∃ r p, Turn sU U ∧ intWord sU U (.sub dfA {}) = some r ∧
    Named sU U (r.uses ++ r.f.dst .w32) ∧ r.f.d < 256 ∧ intPair sU U (.subb dfA) = some p ∧ Named sU U (p.uses ++ p.f.dst .pair) ∧
    p.f.d < 256 :=
  ⟨_, _, turnUser rfl, rfl, named (by decide +kernel), by decide +kernel, rfl, named (by decide +kernel), by decide +kernel⟩

/-- The store of `witness_storeCompletes`; and an entry of the core order that goes home to a granule of untouched material. -/
theorem witness_storeFrames : ((sT.modCore 0 (fun k => { k with coreOrder := [entA] })).order U)[0]? = some entA ∧ entA.space = .global ∧
    mayGoHome ((sT.modCore 0 (fun k => { k with coreOrder := [entA] })).order U) 0 = true ∧
    (sT.modCore 0 (fun k => { k with coreOrder := [entA] })).retrains entA = false ∧ touchesGranule entA.bytes (0x20003 / 16) = true ∧
    touchesGranule entA.bytes 0 = false ∧ isPeer 0x20003 = false ∧ sT.subFailed 0x20003 = false ∧
    mget 0 sT.memKey (0x20003 / 16) = sT.keyTag entA.key ∧ sT.slotGranule? (0x20003 / 16) = none ∧
    (sT.modCore 0 (fun k => { k with coreOrder := [entA] })).meetsHold { who := Hart.observer U, bytes := addrsOf [entA] } = false := by
  decide +kernel
/-- The same store while the slot areas lie at 0x20000: its fields from offset 18 on are read-only. -/
def sArea : State := { sT with io := { sT.io with slotb := 0x20000 } }
theorem witness_storeFrames_area : sArea.slotGranule? (0x20012 / 16) = some 1 ∧ slotMask (16 * (1 % 8) + 0x20012 % 16) = 0 ∧
    mget 0 sArea.memKey (0x20012 / 16) = sArea.keyTag entA.key ∧ sArea.subFailed 0x20012 = false := by decide +kernel

theorem witness_logicResults : Turn sU U ∧ Named sU U ([(dfA.fields.a, .w32), (dfA.fields.b, .w32)] ++ dfA.fields.dst .w32) ∧
    (let f : CF := ⟨2, .reg 8⟩
     opCheck sU U ([(f.fields.a, .w32), (f.fields.b, .w32)] ++ f.fields.dst .w32) = none) ∧
    (let f : WF := ⟨2, 1, .imm 7⟩
     opCheck sU U ([(f.fields.a, .w32), (f.fields.b, .w32)] ++ f.fields.dst .w32) = none) :=
  ⟨turnUser rfl, named (by decide +kernel), by decide +kernel, by decide +kernel⟩
theorem witness_carryChain : Turn sU U ∧ Named sU U ([(dfA.fields.a, .w32), (dfA.fields.b, .w32), (dfA.fields.c, .w32)] ++ dfA.fields.dst .pair) :=
  ⟨turnUser rfl, named (by decide +kernel)⟩
/-- b = 7 (register 2) and b = 0x80000000 (register 3). -/
theorem witness_absNegResults : Turn sU U ∧ Named sU U ([(.reg 3, .w32), (.reg 2, .w32)] ++ dfA.fields.dst .w32) ∧
    sU.op32 U (.reg 3) = 0x80000000 ∧ sU.op32 U (.reg 2) ≠ 0x80000000 := ⟨turnUser rfl, named (by decide +kernel), by decide +kernel, by decide +kernel⟩
/-- Element 3 of four, with a shift count of the width. -/
theorem witness_elementsApart : 3 < 32 / ewWidth .q4 ∧ ewWidth .q4 ≤ elem (ewWidth .q4) 0x08000000 3 ∧ ({ sat := true } : IntMod).sat = true := by
  decide

/-! ## Traps -/

theorem witness_userTrapEntry : UserTurn sU 0 0 ∧ gate 0 .all (.user 0 0) = none ∧
    ((sU.takeTrap U .und 7 0).thread U).run = .trapped ∧ ((sU.takeTrap U .und 7 0).thread U).stopped = false ∧ wgA.killed = false :=
  ⟨rfl, by decide, by decide +kernel, by decide +kernel, rfl⟩
theorem witness_privilegeTraps : UserTurn sU 0 0 ∧ levelS (.rdth dfA) = true ∧ levelM (.eret dfA) = true ∧ managementOnly (.ecver dfA) = true ∧
    srGate U 0x400 = some .priv ∧ srGate U 0x7FF = some .und ∧ sG.cur = .sup 0 ∧ (sG.core 0).status = .running ∧ GroupTurn sG 0 ∧
    (srGate (.sup 0 0) 0x7FF).isSome = true ∧ (srGate .mgmt 0x7FF).isSome = true ∧ computeOnly (.rdth dfA) = true ∧ MgmtTurn sM ∧ sM.mgmt.thread.causeActive = false :=
  ⟨rfl, rfl, rfl, rfl, by decide +kernel, by decide +kernel, rfl, by decide +kernel, by unfold GroupTurn; decide +kernel, by decide +kernel,
    by decide +kernel, rfl, rfl, rfl⟩

/-- Each kind of access at the address that a pair of registers holds: odd (pair 8), beyond the 60-bit space (pair 14), ordinary
(pair 6). -/
def dfAt (r : BitVec 8) : DF := df 22 (.reg r) (.reg 20) (.reg 0)
def accessesAt (r : BitVec 8) : List Instr :=
  [.ld (dfAt r) { size := .s4 }, .st (dfAt r) { size := .s4 }, .atom (dfAt r) {}, .cas (dfAt r) {}, .red (dfAt r) {},
   .red (dfAt r) { opc := .fadd, sz := .z16, sc := true }, .waitv (dfAt r) {}]
/-- An access of thread 0 whose operands are named, of which a condition holds. -/
def meets (s : State) (i : Instr) (ok : AccForm → Bool) : Bool :=
  match accForm s U i with
  | some x => decide (opCheck s U x.uses = none) && ok x
  | none => false
def cleanAddr (s : State) (x : AccForm) : Bool := (s.addrPoison U x.f).all (fun p => !p.1)
theorem witness_accessTraps_address : (∀ i ∈ accessesAt 8, meets sU i (fun x => decide ((sU.addrOf U x.f).toNat % x.n ≠ 0)) = true) ∧
    (∀ i ∈ accessesAt 14, meets sU i (fun x => decide ((sU.addrOf U x.f).toNat % x.n = 0 ∧ 2 ^ 60 ≤ (sU.addrOf U x.f).toNat)) = true) := by
  decide +kernel
/-- The range at 0x20000 is the destination of a copy; the address or the data of an access there is poisoned. -/
def poisoned (r : Nat) (s : State) : State := s.modThread U (fun th => { th with poison := [(r, true)] })
def sLocked : State := withCore (fun k => { k with locks := [⟨false, 7, true, .mem 0x20000 0x20010⟩] })
def at6 (s : State) (i : Instr) (locked : Bool) (ok : AccForm → Bool) : Bool :=
  meets s i (fun x => decide ((s.addrOf U x.f).toNat = 0x20000) && (s.lockHit U (s.addrOf U x.f) x.n x.writes == locked) && ok x)
theorem witness_accessTraps_poison : ∀ i ∈ accessesAt 6,
    at6 (poisoned 6 sU) i false (fun x => (poisonField ((poisoned 6 sU).addrPoison U x.f)).isSome) = true ∧
    at6 (poisoned 6 sLocked) i true (fun x => (poisonField ((poisoned 6 sLocked).addrPoison U x.f)).isSome) = true := by decide +kernel
/-- An ordinary place, locked, and not locked with poisoned data (register 0, and register 22 of a store). -/
theorem witness_accessTraps_place : (∀ i ∈ accessesAt 6,
      at6 sLocked i true (fun x => cleanAddr sLocked x && (sLocked.place U x.need 0x20000).1 == .at (.dev 0x20000) 0) = true) ∧
    (∀ i ∈ (accessesAt 6).drop 2, at6 (poisoned 0 sU) i false (fun x => cleanAddr (poisoned 0 sU) x &&
      ((poisoned 0 sU).place U x.need 0x20000).1 == .at (.dev 0x20000) 0 && (poisonField x.data).isSome) = true) ∧
    at6 (poisoned 22 sU) (.st (dfAt 6) { size := .s4 }) false (fun x => cleanAddr (poisoned 22 sU) x &&
      ((poisoned 22 sU).place U x.need 0x20000).1 == .at (.dev 0x20000) 0 && (poisonField x.data).isSome) = true := by decide +kernel
/-- An address that no table maps, its range registered or not. -/
def sNoPage (locked : Bool) : State :=
  (if locked then withCore (fun k => { k with locks := [⟨false, 7, true, .mem (2 ^ 40) (2 ^ 40 + 16)⟩] }) else sU).modThread U
    (fun th => { th with regs := [(7, 0x100)] })
theorem witness_accessTraps_fault : ∀ locked : Bool, ∀ i ∈ accessesAt 6, meets (sNoPage locked) i (fun x =>
    decide (((sNoPage locked).addrOf U x.f).toNat = 2 ^ 40) && cleanAddr (sNoPage locked) x && (poisonField x.data).isNone &&
    ((sNoPage locked).lockHit U ((sNoPage locked).addrOf U x.f) x.n x.writes == locked) &&
    (match ((sNoPage locked).place U x.need (2 ^ 40)).1 with
      | .fault _ => true
      | _ => false)) = true := by decide +kernel

/-- LDT and STT of handle 7: of a header whose check fails, of another level, of `x` itself. -/
def sSp (x : Tile) : State := sT.modCore 0 (fun k => { k with wg := some { wgT with tiles := [(7, x)] } })
def tileBad : Tile := { tileOf .sp 1 1 0 with hdr := bput (hdrOf 1 4 4) 40 1 1 }
/-- Two bytes at row 1, column 1; four bytes there; row 5. -/
def dfRow5 : DF := df 20 (.reg 2) (.reg 1) (.reg 8)
theorem witness_accessTraps_scratchpad_tile : ∀ writes : Bool,
    (∀ s ∈ [sU, sSp tileBad, sSp (tileOf .om 1 1 0)], opCheck s U (spUses dfSp.fields spHalf writes) = none ∧
      (∀ p ∈ spMarks s U dfSp.fields spHalf writes, p.1 = false) ∧ (s.op32 U dfSp.fields.a).toNat = 7) ∧
    (sU.core 0).tile? 7 = none ∧ ((sSp tileBad).core 0).tile? 7 = some tileBad ∧ tileBad.ok = false ∧ tileBad.lv = .sp ∧
    ((sSp (tileOf .om 1 1 0)).core 0).tile? 7 = some (tileOf .om 1 1 0) ∧ SpHeaderOk (tileOf .om 1 1 0) writes := by
  unfold SpHeaderOk; decide +kernel
theorem witness_accessTraps_scratchpad_position : ∀ writes : Bool,
    let x := tileOf .sp 1 1 0
    let g := geoOf x.hdr
    opCheck sT U (spUses dfSp.fields { size := .s4 } writes) = none ∧ opCheck sT U (spUses dfRow5.fields spHalf writes) = none ∧
    (∀ p ∈ spMarks sT U dfSp.fields { size := .s4 } writes ++ spMarks sT U dfRow5.fields spHalf writes, p.1 = false) ∧
    SpHeaderOk x writes ∧ ¬SpAligned g 1 4 ∧ 1 < g.rows ∧ 1 < g.stored ∧ rowOff g.w 1 + 4 ≤ g.rb ∧
    SpAligned g 1 2 ∧ g.rows ≤ (sT.op32 U dfRow5.fields.b).toNat := by
  unfold SpHeaderOk SpAligned; decide +kernel
/-- The tile's bank is the destination of a task; and the same access with a poisoned row number (register 8). -/
def sSpLocked : State := sT.modCore 0 (fun k => { k with locks := [⟨true, 7, true, .banks 0 1⟩] })
theorem witness_accessTraps_scratchpad_lock : ∀ writes : Bool,
    let x := tileOf .sp 1 1 0
    let g := geoOf x.hdr
    opCheck sSpLocked U (spUses dfSp.fields spHalf writes) = none ∧ (∀ p ∈ spMarks sSpLocked U dfSp.fields spHalf writes, p.1 = false) ∧
    (∃ q ∈ spGranules g x (spAccess sSpLocked U dfSp.fields spHalf), q / 1024 < x.base + x.span ∧
      ((sSpLocked.core 0).bankLock (q / 1024) (q / 1024 + 1)).2 = true) ∧
    opCheck (poisoned 8 sT) U (spUses dfSp.fields spHalf writes) = none ∧
    (poisonField (spMarks (poisoned 8 sT) U dfSp.fields spHalf writes)).isSome = true ∧
    (∀ q ∈ spGranules g x (spAccess (poisoned 8 sT) U dfSp.fields spHalf),
      (((poisoned 8 sT).core 0).bankLock (q / 1024) (q / 1024 + 1)) = (false, false)) ∧ rowOff g.w 1 + 2 ≤ g.rb := by decide +kernel

/-- Each transfer by a relative offset (register `b`) or to the address of a pair (`a`). -/
def transfersAt (a b : BitVec 8) : List Instr :=
  [.br (df 0 (.reg 1) (.reg b) (.reg 0)) true, .jmp (df 0 (.reg 0) (.reg b) (.reg 0)), .call (df 20 (.reg 0) (.reg b) (.reg 0)),
   .jmpr (df 0 (.reg a) (.reg 20) (.reg 0)), .callInd (df 20 (.reg a) (.reg 20) (.reg 0)), .ret (df 0 (.reg a) (.reg 0) (.reg 0))]
def goesTo (s : State) (i : Instr) (ok : Nat → Bool) : Bool :=
  match transferOf s U i with
  | some (f, x) => decide (opCheck s U (x.uses ++ x.dst f) = none) && ok x.target.toNat
  | none => false
/-- By 5 or to 1; by −2^31 from 0 or beyond the 60-bit space; by 7 − 7 or to 0x20000 with a poisoned register. -/
theorem witness_accessTraps_transfer : (∀ i ∈ transfersAt 8 1, goesTo sU i (fun t => t % 2 == 1) = true) ∧
    (∀ i ∈ transfersAt 14 3, goesTo sU i (fun t => t % 2 == 0 && decide (2 ^ 60 ≤ t)) = true) ∧
    (∀ i ∈ (transfersAt 6 10).take 3, goesTo (poisoned 10 sU) i (fun t => t % 2 == 0 && decide (t < 2 ^ 60)) = true ∧
      (poisonField (transferMarks (poisoned 10 sU) U i)).isSome = true) ∧
    (∀ i ∈ (transfersAt 6 10).drop 3, goesTo (poisoned 6 sU) i (fun t => t % 2 == 0 && decide (t < 2 ^ 60)) = true ∧
      (poisonField (transferMarks (poisoned 6 sU) U i)).isSome = true) := by decide +kernel
/-- BR.nz of register 20, which is zero, by a poisoned offset. -/
theorem witness_accessTraps_branch : ((poisoned 10 sU).op32 U (.reg 20) = 0 ↔ true = true) ∧
    opCheck (poisoned 10 sU) U [(.reg 20, .w32), (.reg 10, .w32)] = none ∧
    (poisonField (transferMarks (poisoned 10 sU) U (.br (df 0 (.reg 20) (.reg 10) (.reg 0)) true))).isSome = true := by decide +kernel
/-- A register beyond the thread's 32 in each kind of instruction; register 40, and the pair of register 3. -/
theorem witness_accessTraps_registers : (∃ r, intWord sU U (.add (df 20 (.reg 0) (.reg 40) (.reg 0)) {}) = some r ∧
      opCheck sU U (r.uses ++ r.f.dst .w32) = some (.regRange, 40)) ∧
    (∃ r, intPair sU U (.addc (df 3 (.reg 0) (.reg 0) (.reg 0))) = some r ∧ opCheck sU U (r.uses ++ r.f.dst .pair) = some (.regPair, 3)) ∧
    (∃ x, accForm sU U (.ld (dfAt 40) { size := .s4 }) = some x ∧ (opCheck sU U x.uses).isSome = true) ∧
    (∃ x, transferOf sU U (.ret (df 0 (.reg 3) (.reg 0) (.reg 0))) = some x ∧ (opCheck sU U (x.2.uses ++ x.2.dst x.1)).isSome = true) ∧
    0 < sU.regCount U ∧ sU.regCount U ≤ (40 : BitVec 8).toNat ∧ (3 : BitVec 8).toNat % 2 = 1 ∧ (3 : BitVec 8).toNat + 2 ≤ sU.regCount U :=
  ⟨⟨_, rfl, by decide +kernel⟩, ⟨_, rfl, by decide +kernel⟩, ⟨_, rfl, by decide +kernel⟩, ⟨_, rfl, by decide +kernel⟩,
    by decide +kernel, by decide +kernel, by decide, by decide +kernel⟩

/-! ## The step, the encoding, the invariant -/

/-- `sFetch` chooses the management core, whose fetch gives an ADD; with words that name no instruction it gives none; a state whose
agenda is not empty, and whose last instruction stalled, takes the event. -/
def sBad : State := State.reset.placeCode .mgmt 0x100 [0x3F, 0xFF, 0xFF, 0xFF, 0xFF, 0xFF, 0xFF, 0xFF]
theorem witness_stepRunsDecoded : (∃ s1, sFetch.choose = .agent .mgmt s1 ∧ ∃ i s2, (s1.startAgent .mgmt).fetch .mgmt = (.instr i, s2)) ∧
    (∃ s1, sBad.choose = .agent .mgmt s1 ∧ ∃ w s2, (s1.startAgent .mgmt).fetch .mgmt = (.undecodable w, s2)) ∧
    (∃ e s1, ({ sFetch with agenda := [.issueSelect 0], stalled := true } : State).choose = .event e s1) :=
  ⟨⟨_, rfl, _, _, rfl⟩, ⟨_, rfl, _, _, rfl⟩, ⟨_, _, rfl⟩⟩
theorem witness_stepRunsDecoded_parcels : ∃ s1 s2 s3 s4 first ps more i rest,
    sFetch.fetchPlace .mgmt (sFetch.pc .mgmt).toNat = (.at (.rom 0x100) 0, s1) ∧
    s1.readParcel .mgmt (.rom 0x100) 0 = (first, false, s2) ∧
    s2.fetchPlaces .mgmt ((sFetch.pc .mgmt).toNat + 2) (parcelCount (BitVec.ofNat 16 (bytesNat first)) - 1) = (ps, none, none, s3) ∧
    s3.readParcels .mgmt ps = (more, false, s4) ∧ decode (first ++ more) = .ok (i, rest) := ⟨_, _, _, _, _, _, _, _, _, rfl, rfl, rfl, rfl, rfl⟩

theorem witness_roundTrip : (Instr.add (df 20 (.reg 1) (.reg 2) (.reg 0)) { ew := .q4, sat := true }).wellFormed = true ∧
    Encoded (.add (df 20 (.reg 1) (.reg 2) (.reg 0)) { ew := .q4, sat := true }) :=
  ⟨by decide, by unfold Encoded; decide⟩
theorem witness_stepKeepsMemoryForm : MemoriesWf sU ∧ (∃ s', step sFetch = .next s') ∧ MemoriesWf sFetch :=
  ⟨by unfold MemoriesWf; decide +kernel, ⟨_, rfl⟩, by unfold MemoriesWf; decide +kernel⟩

end Sys2Proof.Tests
end

