-- ==== Sys2Proof/Tests/WitnessGroup.lean ====
section
/-! SUPPORT. Witnesses for what all 64 lanes of a supervisor group do: each lane's conditions are tried in the state that the lanes
before it leave. -/

set_option Elab.async false
set_option maxRecDepth 100000

namespace Sys2Proof.Tests
open Sys2Proof.Machine Sys2Proof.Claims

/-- One run over the lanes that tries a condition at each shows it of every lane in the state after those before it. -/
theorem lanes_all {ok : Hart → State → Prop} [∀ h s, Decidable (ok h s)] {eff : Hart → State → State} {c : Nat} {s : State} :
    ∀ n, ((List.range n).foldl (fun (p : Bool × State) l => (p.1 && decide (ok (.sup c l) p.2), eff (.sup c l) p.2)) (true, s)).1 = true →
      ∀ l, l < n → ok (.sup c l) (lanesState eff c s l) := by
  intro n e
  have after : ∀ m, ((List.range m).foldl (fun (p : Bool × State) l => (p.1 && decide (ok (.sup c l) p.2), eff (.sup c l) p.2))
      (true, s)).2 = lanesState eff c s m := by
    intro m
    unfold lanesState
    induction m with
    | zero => rfl
    | succ m ih => simp only [List.range_succ, List.foldl_append, List.foldl_cons, List.foldl_nil, ih]
  induction n with
  | zero => intro l h; omega
  | succ n ih =>
    simp only [List.range_succ, List.foldl_append, List.foldl_cons, List.foldl_nil, Bool.and_eq_true, after] at e
    intro l h
    rcases Nat.lt_succ_iff_lt_or_eq.mp h with h | rfl
    · exact ih e.1 l h
    · exact of_decide_eq_true e.2

/-- Every register of a lane of `sG` is zero: `op r20 ← 0, 0, 0`. -/
def dfZ : DF := df 20 (.reg 0) (.reg 2) (.reg 4)

theorem witness_groupComputes_pair : ∀ l, l < 64 → ∃ r,
    intPair (lanesState (pairEff (.li dfZ {})) 0 sG l) (.sup 0 l) (.li dfZ {}) = some r ∧
    Named (lanesState (pairEff (.li dfZ {})) 0 sG l) (.sup 0 l) (r.uses ++ r.f.dst .pair) :=
  fun l h => ⟨_, rfl, lanes_all (eff := pairEff (.li dfZ {})) (c := 0) (s := sG)
    (ok := fun h s => opCheck s h (([(.reg 2, .w32)] : List OpUse) ++ dfZ.fields.dst .pair) = none) 64 (by decide +kernel) l h⟩

def ldZ : Instr := .ld dfZ { size := .s4 }
theorem witness_groupComputes_load : ∀ l, l < 64 → LoadOk ldZ (.sup 0 l) (lanesState (loadEff ldZ) 0 sG l) := by
  intro l h
  have e := lanes_all (eff := loadEff ldZ) (c := 0) (s := sG)
    (ok := fun h s => (opCheck s h (ldUses dfZ.fields { size := .s4 }) = none ∧ (s.addrOf h dfZ.fields).toNat % 4 = 0 ∧
      (s.addrOf h dfZ.fields).toNat < 2 ^ 60 ∧ s.lockHit h (s.addrOf h dfZ.fields) 4 false = false ∧
      (∀ p ∈ s.addrPoison h dfZ.fields, p.1 = false) ∧ (s.place h .load (s.addrOf h dfZ.fields).toNat).1 = .at (.dev 0) 0) ∧
      (let s1 := (s.place h .load (s.addrOf h dfZ.fields).toNat).2
       s1.requestWaits h (.dev 0) = false ∧ s1.loadWaits h (.dev 0) 4 = false)) 64 (by decide +kernel) l h
  exact ⟨_, _, .dev 0, 0, _, rfl, e.1.1, ⟨e.1.2.1, e.1.2.2.1, e.1.2.2.2.1, e.1.2.2.2.2.1⟩, placed e.1.2.2.2.2.2,
    by unfold Readable; simp [isPeer], e.2.1, e.2.2⟩

def stZ : MemMod := { size := .s4 }
theorem witness_groupComputes_store : ∀ l, l < 64 → StoreOk dfZ.fields stZ (.sup 0 l) (lanesState (storeEff dfZ.fields stZ) 0 sG l) := by
  intro l h
  have e := lanes_all (eff := storeEff dfZ.fields stZ) (c := 0) (s := sG)
    (ok := fun h s => (opCheck s h (addrUses dfZ.fields ++ [(.reg 20, .w32)]) = none ∧ (s.addrOf h dfZ.fields).toNat % 4 = 0 ∧
      (s.addrOf h dfZ.fields).toNat < 2 ^ 60 ∧ s.lockHit h (s.addrOf h dfZ.fields) 4 true = false ∧
      (∀ p ∈ s.addrPoison h dfZ.fields, p.1 = false) ∧ (s.place h .store (s.addrOf h dfZ.fields).toNat).1 = .at (.dev 0) 0) ∧
      s.opPoison h (.reg 20) .w32 = false ∧ (s.place h .store (s.addrOf h dfZ.fields).toNat).2.queueFull h = false)
    64 (by decide +kernel) l h
  exact ⟨e.1.1, ⟨e.1.2.1, e.1.2.2.1, e.1.2.2.2.1, e.1.2.2.2.2.1⟩, fun p => absurd (e.2.1.symm.trans p) (by decide),
    .dev 0, 0, _, placed e.1.2.2.2.2.2, by simp, e.2.2⟩

def atomZ : Instr := .atom dfZ {}
theorem witness_groupComputes_rmw : ∀ l, l < 64 → RmwOk atomZ (.sup 0 l) (lanesState (rmwEff atomZ) 0 sG l) := by
  intro l h
  have e := lanes_all (eff := rmwEff atomZ) (c := 0) (s := sG)
    (ok := fun h s => (opCheck s h (addrUses dfZ.fields ++ [(.reg 4, .w32)] ++ dfZ.fields.dst .w32) = none ∧
      (s.addrOf h dfZ.fields).toNat % 4 = 0 ∧ (s.addrOf h dfZ.fields).toNat < 2 ^ 60 ∧
      s.lockHit h (s.addrOf h dfZ.fields) 4 true = false ∧ (∀ p ∈ s.addrPoison h dfZ.fields, p.1 = false) ∧
      (s.place h .atomic (s.addrOf h dfZ.fields).toNat).1 = .at (.dev 0) 0) ∧ s.opPoison h (.reg 4) .w32 = false ∧
      (let s1 := (s.place h .atomic (s.addrOf h dfZ.fields).toNat).2
       s1.atomReady h (.dev 0) (relScope (s1.thread h) none) = true ∧ s1.atomicWaits h (.dev 0) 4 = false ∧
         s1.requestWaits h (.dev 0) = false)) 64 (by decide +kernel) l h
  exact ⟨_, .dev 0, 0, _, rfl, e.1.1, ⟨e.1.2.1, e.1.2.2.1, e.1.2.2.2.1, e.1.2.2.2.2.1⟩, e.2.1, rfl, placed e.1.2.2.2.2.2,
    e.2.2.1, e.2.2.2.1, e.2.2.2.2⟩

theorem witness_groupComputes_pref : ∀ l, l < 64 →
    Named (lanesState (fun h s => prefNoted s h dfZ.fields 4) 0 sG l) (.sup 0 l) (addrUses dfZ.fields) ∧
    Clean ((lanesState (fun h s => prefNoted s h dfZ.fields 4) 0 sG l).addrPoison (.sup 0 l) dfZ.fields) ∧
    PrefFree (lanesState (fun h s => prefNoted s h dfZ.fields 4) 0 sG l) (.sup 0 l) dfZ.fields 4 := by
  intro l h
  have e := lanes_all (eff := fun h s => prefNoted s h dfZ.fields 4) (c := 0) (s := sG)
    (ok := fun h s => opCheck s h (addrUses dfZ.fields) = none ∧ (∀ p ∈ s.addrPoison h dfZ.fields, p.1 = false) ∧
      s.requestFree h = true ∧ s.io.links = []) 64 (by decide +kernel) l h
  exact ⟨e.1, e.2.1, fun pa key _ => requestWaits_free e.2.2.1 e.2.2.2 pa⟩

/-- FENCE.acqrel.dev with no store on its way. -/
def fenceZ : SyncMod := { ord := .acqrel, scope := .dev }
theorem witness_groupComputes_fence : ∀ l, l < 64 →
    (lanesState (fun h s => fenced s h fenceZ) 0 sG l).orderHome (.sup 0 l) = true :=
  fun l h => lanes_all (eff := fun h s => fenced s h fenceZ) (c := 0) (s := sG) (ok := fun h s => s.orderHome h = true) 64 (by decide +kernel) l h

theorem witness_groupComputes_lanes : gate 0 .all (.sup 0) = none ∧ GroupTurn sG 0 ∧
    ∀ l, l < 64 → (fun (_ : Hart) (s : State) => Res.ok s) (.sup 0 l) (lanesState (fun _ s => s) 0 sG l) = .ok (lanesState (fun _ s => s) 0 sG l) :=
  ⟨rfl, by unfold GroupTurn; decide +kernel, fun _ _ => rfl⟩

/-! ## Barriers and tiles -/

/-- `BARA 0, 1`. -/
def dfBara : DF := df 0 (.reg 0) (.reg 2) (.imm 1)
theorem witness_groupComputes_bara : ∀ l, l < 64 → BaraOk dfBara.fields 0 (.sup 0 l) (lanesState (baraEff dfBara.fields 0) 0 sG l) :=
  fun l h => lanes_all (eff := baraEff dfBara.fields 0) (c := 0) (s := sG)
    (ok := fun h s => (opCheck s h [(.reg 2, .w32), (.imm 1, .w32)] = none ∧ s.opsPoison h [(.reg 2, .w32), (.imm 1, .w32)] = false) ∧
      (s.op32 h (.reg 2)).toNat < 24 ∧ s.barScope h (s.op32 h (.reg 2)).toNat 0 = false ∧
      1 ≤ (s.op32 h (.imm 1)).toNat ∧ (s.op32 h (.imm 1)).toNat ≤ 65535 ∧
      s.barCountBad h (s.op32 h (.reg 2)).toNat 0 (s.op32 h (.imm 1)).toNat = false ∧ s.barReady h (s.op32 h (.reg 2)).toNat = true)
    64 (by decide +kernel) l h

/-- An FP16 scratchpad tile under handle 0. -/
def tile0 : Tile := tileOf .sp 1 1 0
def sGT : State := { sG with cores := [(0, { coreA with wg := some { wgA with tiles := [(0, tile0)] } })] }

/-- THDR of handle 0. -/
def dfThdr : DF := df 20 (.reg 0) (.reg 0) (.reg 0)
theorem witness_groupComputes_thdr : ∀ l, l < 64 → ThdrOk dfThdr.fields (.sup 0 l) (lanesState (thdrEff 1 dfThdr.fields) 0 sGT l) := by
  intro l h
  have e := lanes_all (eff := thdrEff 1 dfThdr.fields) (c := 0) (s := sGT)
    (ok := fun h s => (opCheck s h (([(.reg 0, .w32)] : List OpUse) ++ dfThdr.fields.dst .w32) = none ∧ s.opsPoison h [(.reg 0, .w32)] = false) ∧
      (s.core (h.core?.getD 0)).tile? (s.op32 h (.reg 0)).toNat = some tile0 ∧
      (s.core (h.core?.getD 0)).handleInUse (s.op32 h (.reg 0)).toNat = false) 64 (by decide +kernel) l h
  exact ⟨tile0, e.1, e.2, by decide +kernel⟩

/-- A tile under each handle 0–63, and each lane's number in its register 2: each lane frees the tile of its number. -/
def tileN (l : Nat) : Tile := { hdr := 0, lv := .sp, xshape := false, xsparse := false, xscale := false, xfmt := false, span := 1, base := l }
def sGF : State :=
  { sG with cores := [(0, { coreA with
      wg := some { wgA with tiles := (List.range 64).map (fun l => (l, tileN l)) }
      threads := (List.range 64).map (fun l => (supKey l, { regs := [(2, BitVec.ofNat 32 l)] })) })] }
theorem witness_groupComputes_tfree : ∀ l, l < 64 → ∃ x,
    Sources (lanesState (tfreeEff dfZ.fields) 0 sGF l) (.sup 0 l) [(dfZ.fields.b, .w32)] [] ∧
    FreeTile (lanesState (tfreeEff dfZ.fields) 0 sGF l) 0
      ((lanesState (tfreeEff dfZ.fields) 0 sGF l).op32 (.sup 0 l) dfZ.fields.b).toNat x := by
  intro l h
  have e := lanes_all (eff := tfreeEff dfZ.fields) (c := 0) (s := sGF)
    (ok := fun h s => (opCheck s h [(.reg 2, .w32)] = none ∧ s.opsPoison h [(.reg 2, .w32)] = false) ∧
      (s.core 0).tile? (s.op32 h (.reg 2)).toNat = some (tileN (s.op32 h (.reg 2)).toNat) ∧
      (s.core 0).handleInUse (s.op32 h (.reg 2)).toNat = false) 64 (by decide +kernel) l h
  exact ⟨_, e.1, e.2⟩

/-- LDT and STT of two bytes at row 0, column 0 of handle 0. -/
def dfSp0 : DF := df 20 (.reg 0) (.reg 0) (.reg 0)
def three0 : List OpUse := [(.reg 0, .w32), (.reg 0, .w32), (.reg 0, .w32)]
theorem witness_groupComputes_ldt : ∀ l, l < 64 → LdtOk dfSp0.fields spHalf (.sup 0 l) (lanesState (ldtEff dfSp0.fields spHalf) 0 sGT l) := by
  intro l h
  have e := lanes_all (eff := ldtEff dfSp0.fields spHalf) (c := 0) (s := sGT)
    (ok := fun h s => (opCheck s h (three0 ++ dfSp0.fields.dst .w32) = none ∧ s.opsPoison h three0 = false) ∧
      ((s.coreOf h).tile? (spAccess s h dfSp0.fields spHalf).h = some tile0 ∧
        ∀ q ∈ spFaults (geoOf tile0.hdr) (spAccess s h dfSp0.fields spHalf).column (spAccess s h dfSp0.fields spHalf).h
          (spAccess s h dfSp0.fields spHalf).row (spAccess s h dfSp0.fields spHalf).col (spAccess s h dfSp0.fields spHalf).size, q.1 = false) ∧
      ∀ q ∈ spGranules (geoOf tile0.hdr) tile0 (spAccess s h dfSp0.fields spHalf), ((s.coreOf h).bankLock (q / 1024) (q / 1024 + 1)).2 = false)
    64 (by decide +kernel) l h
  exact ⟨tile0, e.1, ⟨by decide +kernel, rfl, e.2.1.1, by decide +kernel, e.2.1.2⟩, rfl, e.2.2⟩

theorem witness_groupComputes_stt : ∀ l, l < 64 → ∃ x,
    SttOk dfSp0.fields spHalf x (.sup 0 l) (lanesState (sttEff dfSp0.fields spHalf) 0 sGT l) := by
  intro l h
  have e := lanes_all (eff := sttEff dfSp0.fields spHalf) (c := 0) (s := sGT)
    (ok := fun h s => opCheck s h (three0 ++ [(.reg 20, .w32)]) = none ∧
      s.opsPoison h three0 = false ∧ s.opPoison h (.reg 20) .w32 = false ∧
      ((s.coreOf h).tile? (sttAccess s h dfSp0.fields spHalf).h = some tile0 ∧
        ∀ q ∈ spFaults (geoOf tile0.hdr) (sttAccess s h dfSp0.fields spHalf).column (sttAccess s h dfSp0.fields spHalf).h
          (sttAccess s h dfSp0.fields spHalf).row (sttAccess s h dfSp0.fields spHalf).col (sttAccess s h dfSp0.fields spHalf).size, q.1 = false) ∧
      (∀ q ∈ spGranules (geoOf tile0.hdr) tile0 (sttAccess s h dfSp0.fields spHalf),
        (s.coreOf h).bankLock (q / 1024) (q / 1024 + 1) = (false, false)) ∧ s.queueFull h = false)
    64 (by decide +kernel) l h
  exact ⟨tile0, e.1, e.2.1, fun p => absurd (e.2.2.1.symm.trans p) (by decide),
    ⟨by decide +kernel, rfl, e.2.2.2.1.1, by decide +kernel, e.2.2.2.1.2⟩, by decide +kernel, e.2.2.2.2.1, e.2.2.2.2.2⟩

/-! ## Transfers and the last lane's copy -/

/-- CALL to the group's own address. -/
def dfCall : DF := df 20 (.reg 0) (.reg 0) (.reg 0)
theorem witness_groupComputes_transfer : TargetOk (sG.core 0).supPc ∧
    ∀ l, l < 64 → TransferOk (.call dfCall) (sG.core 0).supPc (.sup 0 l) (lanesState (linkEff (.call dfCall)) 0 sG l) :=
  ⟨by unfold TargetOk; decide +kernel, fun l h => by
    have e := lanes_all (eff := linkEff (.call dfCall)) (c := 0) (s := sG)
      (ok := fun h s => opCheck s h (([(.reg 0, .w32)] : List OpUse) ++ dfCall.fields.dst .pair) = none ∧
        s.opsPoison h [(.reg 0, .w32)] = false ∧ s.pc h + (s.op32 h (.reg 0)).signExtend 64 = (sG.core 0).supPc) 64 (by decide +kernel) l h
    exact ⟨_, _, rfl, e.1, e.2.1, e.2.2⟩⟩

/-- Only lane 63 is left; it copies 64 bytes from 0x20000 to 0x1000. -/
def sLast : State :=
  { sG with cores := [(0, { coreA with
      lanesDone := List.range 63, threads := [(supKey 63, { regs := [(4, 0x1000), (6, 0x20000), (10, 64)] })] })] }
def dfLast : DF := df 20 (.reg 4) (.reg 6) (.reg 10)
theorem witness_groupComputes_copy : sLast.cur = .sup 0 ∧ (sLast.core 0).lanesLeft = [63] ∧
    (∀ l' ∈ (sLast.core 0).lanesDone, (sLast.thread (.sup 0 l')).run = .ready) ∧
    Sources sLast (.sup 0 63) [(.reg 4, .pair), (.reg 6, .pair), (.reg 10, .w32)] (dfLast.fields.dst .w32) ∧
    (sLast.op32 (.sup 0 63) (.reg 10)).getLsbD 30 = false ∧ 0 < (sLast.op32 (.sup 0 63) (.reg 10)).toNat % 2 ^ 24 ∧
    (let a := sLast.opPair (.sup 0 63) (.reg 4)
     let b := sLast.opPair (.sup 0 63) (.reg 6)
     a.toNat < 2 ^ 60 ∧ (a + BitVec.ofNat 64 63).toNat < 2 ^ 60 ∧ b.toNat < 2 ^ 60 ∧ (b + BitVec.ofNat 64 63).toNat < 2 ^ 60 ∧
     OpRoom sLast 0 (supKey 63) wgA (.bytes a b 64) (memLock false b.toNat 64 ++ memLock true a.toNat 64).length) :=
  ⟨by decide +kernel, by decide +kernel, by decide +kernel, by unfold Sources Named; decide +kernel, by decide +kernel, by decide +kernel,
    by unfold OpRoom; decide +kernel⟩

end Sys2Proof.Tests
end

section
/-! PROOFS of 00_scope: what a store leaves of memory on its way to its home slice. First which operations leave memory, then what a
write at the home slices makes of it, then the two instructions of the statement. -/

set_option Elab.async false

namespace Sys2Proof.Machine
open Sys2Proof.Laws Sys2Proof.Claims

/-! ## What a step leaves of memory and of what a write home reads -/

/-- `u` has the key material, the error records, the place of the slot areas and every hart's thread of `s`. -/
structure State.SameSetting (s u : State) : Prop where
  keys : u.keys = s.keys
  errors : u.errors = s.errors
  slotb : u.io.slotb = s.io.slotb
  thread : ∀ h, u.thread h = s.thread h

/-- `u` has device memory too as `s` has it, with its marks and the material of each granule. -/
structure State.Quiet (s u : State) : Prop extends State.SameSetting s u where
  mem : u.mem = s.mem
  memPoison : u.memPoison = s.memPoison
  memKey : u.memKey = s.memKey

theorem State.SameSetting.trans {s t u : State} (a : s.SameSetting t) (b : t.SameSetting u) : s.SameSetting u :=
  ⟨b.keys.trans a.keys, b.errors.trans a.errors, b.slotb.trans a.slotb, fun h => (b.thread h).trans (a.thread h)⟩

theorem State.Quiet.refl (s : State) : s.Quiet s := ⟨⟨rfl, rfl, rfl, fun _ => rfl⟩, rfl, rfl, rfl⟩

theorem State.Quiet.trans {s t u : State} (a : s.Quiet t) (b : t.Quiet u) : s.Quiet u :=
  ⟨a.toSameSetting.trans b.toSameSetting, b.mem.trans a.mem, b.memPoison.trans a.memPoison, b.memKey.trans a.memKey⟩

/-- A fold of steps keeps memory where each step does. -/
theorem State.Quiet.foldl {α : Type} {f : State → α → State} (hf : ∀ (s : State) (a : α), s.Quiet (f s a)) (l : List α) (s : State) :
    s.Quiet (l.foldl f s) := by
  induction l generalizing s with
  | nil => exact .refl s
  | cons a l ih => exact (hf s a).trans (ih _)

/-! What a write home asks of the state has the same answer in the same setting. -/

theorem State.SameSetting.keyTag {s u : State} (q : s.SameSetting u) (k : Nat) : u.keyTag k = s.keyTag k := by
  simp only [State.keyTag, q.keys]

theorem State.SameSetting.subFailed {s u : State} (q : s.SameSetting u) (a : Nat) : u.subFailed a = s.subFailed a := by
  simp only [State.subFailed, q.errors]

theorem State.SameSetting.slotGranule? {s u : State} (q : s.SameSetting u) (g : Nat) : u.slotGranule? g = s.slotGranule? g := by
  simp only [State.slotGranule?, q.slotb]

theorem State.SameSetting.reaching {s u : State} (q : s.SameSetting u) (g : Nat) (bs : List (Nat × Byte × Byte)) (o : Origin) :
    u.reaching g bs o = s.reaching g bs o := by
  simp only [State.reaching, q.slotGranule?]

/-! ## The operations that leave memory -/

/-- The harts' threads lie in the cores and the management core. -/
theorem State.thread_of_cores {s u : State} (hc : u.cores = s.cores) (hm : u.mgmt = s.mgmt) (h : Hart) : u.thread h = s.thread h := by
  cases h <;> simp [State.thread, State.core, hc, hm]

theorem State.quiet_modIo (s : State) (f : Io → Io) (hf : (f s.io).slotb = s.io.slotb) : s.Quiet (s.modIo f) :=
  ⟨⟨rfl, rfl, hf, State.thread_of_cores rfl rfl⟩, rfl, rfl, rfl⟩

theorem State.quiet_modSched (s : State) (f : Sched → Sched) : s.Quiet (s.modSched f) :=
  ⟨⟨rfl, rfl, rfl, State.thread_of_cores rfl rfl⟩, rfl, rfl, rfl⟩

theorem State.quiet_modSlot (s : State) (k : Nat) (f : Slot → Slot) : s.Quiet (s.modSlot k f) := by
  unfold State.modSlot State.setSlot
  exact s.quiet_modSched _

theorem State.quiet_emit (s : State) (o : Out) : s.Quiet (s.emit o) :=
  ⟨⟨rfl, rfl, rfl, State.thread_of_cores rfl rfl⟩, rfl, rfl, rfl⟩

theorem State.quiet_freePair (s : State) : s.Quiet s.freePair.2 :=
  ⟨⟨rfl, rfl, rfl, State.thread_of_cores rfl rfl⟩, rfl, rfl, rfl⟩

theorem State.quiet_pruneHolds (s : State) : s.Quiet s.pruneHolds :=
  ⟨⟨rfl, rfl, rfl, State.thread_of_cores rfl rfl⟩, rfl, rfl, rfl⟩

theorem State.quiet_placeWrite (s : State) (g : Nat) (o : Origin) : s.Quiet (s.placeWrite g o) :=
  ⟨⟨rfl, rfl, rfl, State.thread_of_cores rfl rfl⟩, rfl, rfl, rfl⟩

/-- A core may change in all but its threads. -/
theorem State.quiet_modCore (s : State) (c : Nat) (f : Core → Core) (hf : (f (s.core c)).threads = (s.core c).threads) :
    s.Quiet (s.modCore c f) := by
  have same (c' t : Nat) : ((s.modCore c f).core c').thread t = (s.core c').thread t := by
    rw [core_modCore]
    split
    · next e => subst e; simp only [Core.thread, hf]
    · rfl
  refine ⟨⟨rfl, rfl, rfl, fun h => ?_⟩, rfl, rfl, rfl⟩
  cases h with
  | user c' t => exact same c' t
  | sup c' l => exact same c' (supKey l)
  | mgmt => rfl

theorem State.quiet_modMgmt (s : State) (f : Mgmt → Mgmt) (hf : (f s.mgmt).thread = s.mgmt.thread) : s.Quiet (s.modMgmt f) :=
  ⟨⟨rfl, rfl, rfl, fun h => by cases h with
    | user c t => rfl
    | sup c l => rfl
    | mgmt => exact hf⟩, rfl, rfl, rfl⟩

theorem State.quiet_setOrder (s : State) (h : Hart) (o : List StoreEnt) : s.Quiet (s.setOrder h o) := by
  unfold State.setOrder
  split
  · exact s.quiet_modCore _ _ rfl
  · exact s.quiet_modCore _ _ rfl
  · exact s.quiet_modMgmt _ rfl

theorem State.quiet_settleDrains (s : State) : s.Quiet s.settleDrains := by
  unfold State.settleDrains
  exact s.quiet_modIo _ rfl

/-- Requests of the capacity tier go out and leave memory. -/
theorem State.quiet_cxlWrites (s : State) (bs : List (Nat × Byte × Byte)) (p : Bool) : s.Quiet (s.cxlWrites bs p) :=
  .foldl (fun s _ => s.quiet_emit _) _ s

theorem State.quiet_postRequest (s : State) (c : Nat) (r : Nat × Nat) (w : Bool) (m : List Nat) : s.Quiet (s.postRequest c r w m) := by
  unfold State.postRequest
  dsimp only
  split
  · exact ⟨⟨rfl, rfl, rfl, State.thread_of_cores rfl rfl⟩, rfl, rfl, rfl⟩
  · exact s.quiet_emit _

theorem State.quiet_flushStores (s : State) (c : Nat) : s.Quiet (s.flushStores c) := by
  unfold State.flushStores
  dsimp only
  split
  · exact .refl s
  · exact (s.quiet_modCore c _ rfl).trans
      (.foldl (fun s r => (s.quiet_postRequest c r true _).trans (State.quiet_cxlWrites _ _ _)) _ _)

theorem State.quiet_flushOf (s : State) (h : Hart) : s.Quiet (s.flushOf h) := by
  unfold State.flushOf
  split
  · exact s.quiet_flushStores _
  · exact .refl s

theorem State.quiet_homeGranule (s : State) (key g : Nat) : s.Quiet (s.homeGranule key g).2.2 := by
  have free : s.Quiet s.freeBytes16.2 := s.quiet_freePair.trans (State.quiet_freePair _)
  unfold State.homeGranule
  split
  · exact free
  · split
    · exact .refl s
    · exact free

/-! ## What the scheduler observes of a write leaves memory -/

theorem State.quiet_observeVerdict (s : State) (g : Nat) (bs : List (Nat × Byte × Byte)) (new : List Byte) :
    s.Quiet (s.observeVerdict g bs new) := by
  unfold State.observeVerdict
  split
  · split
    · exact s.quiet_modSlot _ _
    · exact .refl s
  · exact .refl s

theorem State.quiet_observeClaim (s : State) (g : Nat) (old new : List Byte) (o : Origin) :
    s.Quiet (s.observeClaim g old new o) := by
  unfold State.observeClaim
  dsimp only
  split
  · split
    · exact .refl s
    · split
      · split
        · exact (s.quiet_modSlot _ _).trans (State.quiet_modCore _ _ _ rfl)
        · exact .refl s
      · exact s.quiet_modSched _
      · exact .refl s
  · exact .refl s

theorem State.quiet_observeIridx (s : State) (g : Nat) (bs : List (Nat × Byte × Byte)) : s.Quiet (s.observeIridx g bs) := by
  unfold State.observeIridx
  dsimp only
  split
  · exact s.quiet_modIo _ rfl
  · exact .refl s

/-! ## The bytes of an entry -/

/-- A byte that no write names stays. -/
theorem applyBytes_of_not_written {bs : List (Nat × Byte × Byte)} {a : Nat} (old : Byte) (h : ∀ w ∈ bs, w.1 ≠ a) :
    applyBytes bs a old = old := by
  induction bs generalizing old with
  | nil => rfl
  | cons w bs ih =>
    simp only [List.mem_cons, forall_eq_or_imp] at h
    rw [applyBytes, List.foldl_cons, if_neg h.1]
    exact ih old h.2

/-- A byte that some write names in full does not depend on what it was. -/
theorem applyBytes_of_full {bs : List (Nat × Byte × Byte)} {a : Nat} (x y : Byte) (h : ∃ w ∈ bs, w.1 = a ∧ w.2.2 = 0xFF) :
    applyBytes bs a x = applyBytes bs a y := by
  induction bs generalizing x y with
  | nil => simp at h
  | cons w bs ih =>
    simp only [applyBytes, List.foldl_cons]
    obtain ⟨v, hv, ha, hf⟩ := h
    rcases List.mem_cons.mp hv with rfl | hv
    · have full (z : Byte) : maskPut z v.2.1 v.2.2 = v.2.1 := by
        calc maskPut z v.2.1 v.2.2 = (z &&& 0#8) ||| (v.2.1 &&& BitVec.allOnes 8) := by rw [maskPut, hf]; rfl
          _ = v.2.1 := by rw [BitVec.and_zero, BitVec.and_allOnes, BitVec.zero_or]
      rw [if_pos ha, if_pos ha, full, full]
    · exact ih _ _ ⟨v, hv, ha, hf⟩

theorem touchesGranule_iff {bs : List (Nat × Byte × Byte)} {g : Nat} : touchesGranule bs g = true ↔ ∃ w ∈ bs, w.1 / 16 = g := by
  simp [touchesGranule]

theorem dedup_append (l : List Nat) (x : Nat) : dedup (l ++ [x]) = if x ∈ dedup l then dedup l else dedup l ++ [x] := by
  simp [dedup, List.foldl_append]

theorem mem_dedup {l : List Nat} {x : Nat} : x ∈ dedup l ↔ x ∈ l := by
  induction l using List.reverseRecOn with
  | nil => rfl
  | append_singleton l y ih =>
    rw [dedup_append, List.mem_append, ← ih, List.mem_singleton]
    split
    · next hy => exact ⟨.inl, fun h => h.elim id (fun e => e ▸ hy)⟩
    · rw [List.mem_append, List.mem_singleton]

theorem nodup_dedup (l : List Nat) : (dedup l).Nodup := by
  induction l using List.reverseRecOn with
  | nil => exact List.nodup_nil
  | append_singleton l y ih =>
    rw [dedup_append]
    split
    · exact ih
    · next hy => exact List.nodup_append.mpr ⟨ih, List.nodup_singleton y, fun a ha b hb e => hy (List.mem_singleton.mp hb ▸ e ▸ ha)⟩

theorem mem_entGranules {bs : List (Nat × Byte × Byte)} {g : Nat} : g ∈ entGranules bs ↔ touchesGranule bs g = true := by
  rw [entGranules, mem_dedup, touchesGranule_iff, List.mem_map]

theorem nodup_entGranules (bs : List (Nat × Byte × Byte)) : (entGranules bs).Nodup := nodup_dedup _

/-! ## What of a write reaches a slot area (R4) -/

/-- Outside the slot areas all of a write reaches its granule. -/
theorem State.reaching_outside {s : State} {g : Nat} (bs : List (Nat × Byte × Byte)) (o : Origin) (h : s.slotGranule? g = none) :
    s.reaching g bs o = bs := by
  simp [State.reaching, h]

/-- What reaches a granule names only bytes that the write names. -/
theorem State.written_of_mem_reaching {s : State} {g : Nat} {bs : List (Nat × Byte × Byte)} {o : Origin} {w : Nat × Byte × Byte}
    (h : w ∈ s.reaching g bs o) : ∃ v ∈ bs, v.1 = w.1 := by
  unfold State.reaching at h
  split at h
  · simp only [List.mem_filterMap, List.mem_filter] at h
    obtain ⟨v, ⟨hv, -⟩, hw⟩ := h
    split at hw
    · cases hw
    · cases hw; exact ⟨v, hv, rfl⟩
  · exact ⟨w, h, rfl⟩

/-- No write but the scheduler's own reaches a read-only or reserved byte of a slot area. -/
theorem State.reaching_readOnly {s : State} {a k : Nat} {bs : List (Nat × Byte × Byte)} {o : Origin} (ho : o.sched = false)
    (hk : s.slotGranule? (a / 16) = some k) (hm : slotMask (16 * (k % 8) + a % 16) = 0) :
    ∀ w ∈ s.reaching (a / 16) bs o, w.1 ≠ a := by
  intro w hw e
  simp only [State.reaching, ho, hk, Bool.false_eq_true, if_false, List.mem_filterMap, List.mem_filter] at hw
  obtain ⟨v, -, hv⟩ := hw
  split at hv
  · cases hv
  · next hne =>
    cases hv
    exact hne (by rw [show v.1 = a from e, hm]; simp)

/-! ## A write of one granule at its home slice (R194, R225) -/

/-- `s` with the sixteen bytes of a granule, its mark and its material replaced. -/
def State.granuleStored (s : State) (key g : Nat) (new : List Byte) (mark : Bool) : State :=
  { s with mem := pokes s.mem (16 * g) new, memPoison := mset false s.memPoison g mark, memKey := mset 0 s.memKey g (s.keyTag key) }

theorem State.sameSetting_granuleStored (s : State) (key g : Nat) (new : List Byte) (mark : Bool) :
    s.SameSetting (s.granuleStored key g new mark) :=
  ⟨rfl, rfl, rfl, State.thread_of_cores rfl rfl⟩

theorem State.Quiet.granuleStored {s t : State} (q : s.Quiet t) (key g : Nat) (new : List Byte) (mark : Bool) :
    (s.granuleStored key g new mark).Quiet (t.granuleStored key g new mark) := by
  refine ⟨⟨q.keys, q.errors, q.slotb, fun h => ?_⟩, ?_, ?_, ?_⟩
  · rw [(t.sameSetting_granuleStored key g new mark).thread, q.thread, (s.sameSetting_granuleStored key g new mark).thread]
  · simp only [State.granuleStored, q.mem]
  · simp only [State.granuleStored, q.memPoison]
  · simp only [State.granuleStored, q.memKey, q.keyTag]

/-- The sixteen bytes of granule `g` that some writes make of sixteen others. -/
def granuleAfter (bs : List (Nat × Byte × Byte)) (g : Nat) (old : List Byte) : List Byte :=
  (List.range 16).map (fun i => applyBytes bs (16 * g + i) (old.getD i 0))

@[simp] theorem granuleAfter_length (bs : List (Nat × Byte × Byte)) (g : Nat) (old : List Byte) : (granuleAfter bs g old).length = 16 := by
  simp [granuleAfter]

theorem granuleAfter_getD {bs : List (Nat × Byte × Byte)} {g i : Nat} {old : List Byte} (hi : i < 16) :
    (granuleAfter bs g old).getD i 0 = applyBytes bs (16 * g + i) (old.getD i 0) := by
  simp [granuleAfter, List.getD, hi]

/-- A write of a granule either leaves memory, which it does at a peer, on a failed sub-channel and where none of it reaches the granule,
or replaces the granule by what the write makes of it: of the bytes there, under the granule's own material. -/
theorem State.homeWriteGranule_cases (s : State) (key g : Nat) (bs : List (Nat × Byte × Byte)) (p : Bool) (o : Origin) :
    (s.Quiet (s.homeWriteGranule key g bs p o) ∧
      (isPeer (16 * g) = false → s.subFailed (16 * g) = false → touchesGranule (s.reaching g bs o) g = false)) ∨
    ∃ old mark, (s.granuleStored key g (granuleAfter (s.reaching g bs o) g old) mark).Quiet (s.homeWriteGranule key g bs p o) ∧
      (mget 0 s.memKey g = s.keyTag key → coversGranule (s.reaching g bs o) g = true ∨ old = peeks s.mem (16 * g) 16) := by
  unfold State.homeWriteGranule
  split
  · next hp =>
    left
    refine ⟨?_, fun hn => by rw [hp] at hn; cases hn⟩
    split
    · exact s.quiet_emit _
    · exact .refl s
  · next hp =>
    split
    · next hf =>
      left
      refine ⟨.refl s, fun _ hs => ?_⟩
      simpa [hs] using hf
    · right
      dsimp only
      have stored (t : State) (old : List Byte) (mark : Bool) (q : s.Quiet t) :
          (s.granuleStored key g (granuleAfter (s.reaching g bs o) g old) mark).Quiet
            (((((t.placeWrite g o).granuleStored key g (granuleAfter (s.reaching g bs o) g old) mark).observeVerdict g (s.reaching g bs o)
              (granuleAfter (s.reaching g bs o) g old)).observeClaim g old (granuleAfter (s.reaching g bs o) g old) o).observeIridx g
                (s.reaching g bs o)) :=
        ((((q.trans (t.quiet_placeWrite g o)).granuleStored key g _ mark).trans (State.quiet_observeVerdict _ _ _ _)).trans
          (State.quiet_observeClaim _ _ _ _ _)).trans (State.quiet_observeIridx _ _ _)
      split
      · next hc => exact ⟨_, _, stored s _ _ (.refl s), fun _ => .inl hc⟩
      · refine ⟨_, _, stored _ _ _ (s.quiet_homeGranule key g), fun hk => .inr ?_⟩
        simp [State.homeGranule, hp, hk]

theorem State.homeWriteGranule_sameSetting (s : State) (key g : Nat) (bs : List (Nat × Byte × Byte)) (p : Bool) (o : Origin) :
    s.SameSetting (s.homeWriteGranule key g bs p o) := by
  rcases s.homeWriteGranule_cases key g bs p o with ⟨q, -⟩ | ⟨old, mark, q, -⟩
  · exact q.toSameSetting
  · exact (s.sameSetting_granuleStored key g _ mark).trans q.toSameSetting

/-- The mark and the material of another granule stay. -/
theorem State.homeWriteGranule_tables (s : State) {key g g' : Nat} (bs : List (Nat × Byte × Byte)) (p : Bool) (o : Origin) (hg : g' ≠ g) :
    mget false (s.homeWriteGranule key g bs p o).memPoison g' = mget false s.memPoison g' ∧
    mget 0 (s.homeWriteGranule key g bs p o).memKey g' = mget 0 s.memKey g' := by
  rcases s.homeWriteGranule_cases key g bs p o with ⟨q, -⟩ | ⟨old, mark, q, -⟩
  · rw [q.memPoison, q.memKey]; exact ⟨rfl, rfl⟩
  · rw [q.memPoison, q.memKey, State.granuleStored, mget_mset, mget_mset, if_neg hg, if_neg hg]; exact ⟨rfl, rfl⟩

/-- A byte that a write under a key slot changes as the write says: no peer's, on a working sub-channel, and of a granule written under
the slot's present material. -/
structure State.Writable (s : State) (key a : Nat) : Prop where
  own : isPeer a = false
  works : s.subFailed a = false
  material : mget 0 s.memKey (a / 16) = s.keyTag key

/-- A byte lies at a peer, and on a failed sub-channel, where its granule does. -/
theorem isPeer_granule (a : Nat) : isPeer (16 * (a / 16)) = isPeer a := by
  unfold isPeer
  rw [decide_eq_decide]
  omega

theorem State.subFailed_granule (s : State) (a : Nat) : s.subFailed (16 * (a / 16)) = s.subFailed a := by
  have fast : isFast (16 * (a / 16)) = isFast a := by
    unfold isFast
    rw [decide_eq_decide]
    omega
  have sub : subChannel (16 * (a / 16)) = subChannel a := by
    unfold subChannel
    omega
  rw [State.subFailed, fast, sub, State.subFailed]

/-- Each byte of the granule becomes what the writes that reach it make of it. -/
theorem State.homeWriteGranule_byte (s : State) {key a : Nat} (bs : List (Nat × Byte × Byte)) (p : Bool) (o : Origin)
    (w : s.Writable key a) :
    peek (s.homeWriteGranule key (a / 16) bs p o).mem a = applyBytes (s.reaching (a / 16) bs o) a (peek s.mem a) := by
  have parts : 16 * (a / 16) + a % 16 = a := Nat.div_add_mod a 16
  have lt : a % 16 < 16 := Nat.mod_lt _ (by decide)
  rcases s.homeWriteGranule_cases key (a / 16) bs p o with ⟨q, out⟩ | ⟨old, mark, q, kept⟩
  · have untouched : touchesGranule (s.reaching (a / 16) bs o) (a / 16) = false :=
      out ((isPeer_granule a).trans w.own) ((s.subFailed_granule a).trans w.works)
    rw [q.mem, applyBytes_of_not_written]
    intro v hv e
    have : touchesGranule (s.reaching (a / 16) bs o) (a / 16) = true := touchesGranule_iff.mpr ⟨v, hv, by rw [e]⟩
    rw [untouched] at this
    cases this
  · have stored : peek (s.homeWriteGranule key (a / 16) bs p o).mem a =
        applyBytes (s.reaching (a / 16) bs o) a (old.getD (a % 16) 0) := by
      have read := peek_pokes (granuleAfter (s.reaching (a / 16) bs o) (a / 16) old) s.mem (16 * (a / 16)) (a % 16) (by simpa using lt)
      rwa [granuleAfter_getD lt, parts, ← show _ = pokes s.mem _ _ from q.mem] at read
    rw [stored]
    rcases kept w.material with full | same
    · have all := List.all_eq_true.mp full (a % 16) (List.mem_range.mpr lt)
      rw [parts] at all
      exact applyBytes_of_full _ _ (by simpa using all)
    · rw [same, peeks_getD _ _ _ _ lt, parts]

/-! ## A write of several granules at their home slices -/

theorem State.SameSetting.foldl {α : Type} {f : State → α → State} (hf : ∀ (s : State) (a : α), s.SameSetting (f s a)) (l : List α)
    (s : State) : s.SameSetting (l.foldl f s) := by
  induction l generalizing s with
  | nil => exact ⟨rfl, rfl, rfl, fun _ => rfl⟩
  | cons a l ih => exact (hf s a).trans (ih _)

theorem State.putHome_sameSetting (s : State) (key : Nat) (bs : List (Nat × Byte × Byte)) (p : Bool) (o : Origin) :
    s.SameSetting (s.putHome key bs p o) :=
  .foldl (fun s g => s.homeWriteGranule_sameSetting key g bs p o) _ s

/-- The mark of a granule that a write does not touch stays. -/
theorem State.putHome_mark (s : State) (key g : Nat) (bs : List (Nat × Byte × Byte)) (p : Bool) (o : Origin)
    (h : touchesGranule bs g = false) : mget false (s.putHome key bs p o).memPoison g = mget false s.memPoison g := by
  have fold (gs : List Nat) (s : State) (hg : g ∉ gs) :
      mget false (gs.foldl (fun s g => s.homeWriteGranule key g bs p o) s).memPoison g = mget false s.memPoison g := by
    induction gs generalizing s with
    | nil => rfl
    | cons g' gs ih =>
      rw [List.mem_cons, not_or] at hg
      rw [List.foldl_cons, ih _ hg.2, (s.homeWriteGranule_tables bs p o hg.1).1]
  exact fold _ s (fun m => by rw [mem_entGranules.mp m] at h; cases h)

/-- The write of one granule leaves a byte of another as writable as it was. -/
theorem State.Writable.homeWriteGranule {s : State} {key a g : Nat} (w : s.Writable key a) (bs : List (Nat × Byte × Byte)) (p : Bool)
    (o : Origin) (hg : a / 16 ≠ g) : (s.homeWriteGranule key g bs p o).Writable key a :=
  have q := s.homeWriteGranule_sameSetting key g bs p o
  ⟨w.own, (q.subFailed a).trans w.works, by rw [(s.homeWriteGranule_tables bs p o hg).2, q.keyTag, w.material]⟩

/-- Of granules written one after the other, each once, a byte is written with its own. -/
theorem State.homeWriteGranules_byte (key a : Nat) (bs : List (Nat × Byte × Byte)) (p : Bool) (o : Origin) (gs : List Nat)
    (hn : gs.Nodup) (hm : a / 16 ∈ gs) (s : State) (w : s.Writable key a) :
    peek (gs.foldl (fun s g => s.homeWriteGranule key g bs p o) s).mem a = applyBytes (s.reaching (a / 16) bs o) a (peek s.mem a) := by
  induction gs generalizing s with
  | nil => cases hm
  | cons g gs ih =>
    rw [List.nodup_cons] at hn
    rw [List.foldl_cons]
    by_cases hg : a / 16 = g
    · subst hg
      rw [State.putHome_fold_frame key a bs p o gs _ hn.1, s.homeWriteGranule_byte bs p o w]
    · have rest : a / 16 ∈ gs := (List.mem_cons.mp hm).resolve_left hg
      rw [ih hn.2 rest _ (w.homeWriteGranule bs p o hg), (s.homeWriteGranule_sameSetting key g bs p o).reaching,
        s.homeWriteGranule_frame key g a bs p o hg]

/-- Each writable byte of device memory becomes what the writes that reach it make of it. -/
theorem State.putHome_byte (s : State) {key a : Nat} (bs : List (Nat × Byte × Byte)) (p : Bool) (o : Origin) (w : s.Writable key a) :
    peek (s.putHome key bs p o).mem a = applyBytes (s.reaching (a / 16) bs o) a (peek s.mem a) := by
  by_cases hm : a / 16 ∈ entGranules bs
  · exact State.homeWriteGranules_byte key a bs p o _ (nodup_entGranules bs) hm s w
  · rw [s.putHome_frame key a bs p o hm, applyBytes_of_not_written]
    intro v hv e
    obtain ⟨x, hx, hxv⟩ := State.written_of_mem_reaching hv
    exact hm (mem_entGranules.mpr (touchesGranule_iff.mpr ⟨x, hx, by rw [hxv, e]⟩))

/-! ## A store of the core order goes home -/

/-- An entry that may go home shares no granule of its space with an earlier one (R195). -/
theorem mayGoHome_disjoint {o : List StoreEnt} {i j : Nat} {e b : StoreEnt} (hm : mayGoHome o i = true) (he : o[i]? = some e)
    (hj : j < i) (hb : o[j]? = some b) (hs : b.space = e.space) {g : Nat} (ht : touchesGranule b.bytes g = true) :
    touchesGranule e.bytes g = false := by
  have earlier : b ∈ o.take i := List.mem_of_getElem? (by rw [List.getElem?_take_of_lt hj, hb])
  simp only [mayGoHome, he, Bool.and_eq_true, List.all_eq_true] at hm
  have clear := hm.1 b earlier
  simp only [hs, beq_self_eq_true, Bool.true_and, Bool.not_eq_true', List.any_eq_false] at clear
  simpa using clear g (mem_entGranules.mpr ht)

/-- The first entry of a core order that equals one that may go home is that one, unless it writes nothing. -/
theorem findIdx?_mayGoHome {o : List StoreEnt} {i : Nat} {e : StoreEnt} (he : o[i]? = some e) (hm : mayGoHome o i = true) :
    ∃ j, o.findIdx? (· == e) = some j ∧ o[j]? = some e ∧ (j = i ∨ e.bytes = []) := by
  obtain ⟨hi, hie⟩ := List.getElem?_eq_some_iff.mp he
  have found : (o.findIdx? (· == e)).isSome = true := by
    rw [List.findIdx?_isSome]
    exact List.any_eq_true.mpr ⟨e, List.mem_of_getElem? he, beq_self_eq_true e⟩
  obtain ⟨j, hj⟩ := Option.isSome_iff_exists.mp found
  obtain ⟨hjl, hje, first⟩ := List.findIdx?_eq_some_iff_getElem.mp hj
  have hje : o[j]? = some e := by rw [List.getElem?_eq_getElem hjl, eq_of_beq hje]
  refine ⟨j, hj, hje, ?_⟩
  rcases lt_trichotomy j i with lt | rfl | gt
  · right
    cases hb : e.bytes with
    | nil => rfl
    | cons w bs =>
      have touch : touchesGranule e.bytes (w.1 / 16) = true := touchesGranule_iff.mpr ⟨w, by simp [hb], rfl⟩
      rw [mayGoHome_disjoint hm he lt hje rfl touch] at touch
      cases touch
  · exact .inl rfl
  · exact absurd (beq_iff_eq.mpr hie) (first i gt)

/-- What an entry of global memory does that goes home, or that writes nothing: of memory, what its bytes at their home slices do. -/
theorem State.goHomeNow_putHome (s : State) {h : Hart} {i : Nat} {e : StoreEnt} (he : (s.order h)[i]? = some e) (hg : e.space = .global)
    (hm : mayGoHome (s.order h) i = true ∨ e.bytes = []) :
    ∃ t, s.Quiet t ∧ (t.putHome e.key e.bytes e.poison (e.origin h)).Quiet (s.goHomeNow h i) := by
  unfold State.goHomeNow
  rw [he]
  dsimp only
  split
  · rw [hg]
    dsimp only
    have out : s.Quiet ((s.flushOf h).setOrder h ((s.order h).eraseIdx i)) := (s.quiet_flushOf h).trans (State.quiet_setOrder _ _ _)
    refine ⟨_, ?_, State.quiet_pruneHolds _⟩
    split
    · exact out.trans (State.quiet_cxlWrites _ _ _)
    · exact out
  · next hn =>
    refine ⟨s, .refl s, ?_⟩
    rw [hm.resolve_left hn]
    exact .refl s

/-- STORE_DRAIN of an entry that may go home, with no load over it and no stack that retrains: its bytes take effect at their home slices,
and nothing else of memory changes. -/
theorem exec_storeDrain_home {s : State} {h : Hart} {i : Nat} {e : StoreEnt} (he : (s.order h)[i]? = some e) (hg : e.space = .global)
    (hm : mayGoHome (s.order h) i = true) (hr : s.retrains e = false)
    (hh : s.meetsHold { who := h.observer, bytes := addrsOf [e] } = false) :
    ∃ t u, exec (.storeDrain h (.home i)) s = .next u ∧ s.Quiet t ∧ (t.putHome e.key e.bytes e.poison (e.origin h)).Quiet u := by
  obtain ⟨j, hj, hje, hor⟩ := findIdx?_mayGoHome he hm
  have home : s.goHome h i = s.goHomeNow h j := by
    simp only [State.goHome, he, hm, if_true, s.settle_none [{ who := h.observer, bytes := addrsOf [e] }] (by simpa using hh), hj]
  obtain ⟨t, q, q'⟩ := s.goHomeNow_putHome (h := h) hje hg (hor.imp_left (fun (e : j = i) => e ▸ hm))
  refine ⟨t, (s.goHome h i).settleDrains, ?_, q, ?_⟩
  · show execStoreDrain h (.home i) s = _
    simp [execStoreDrain, he, hr]
  · rw [home]
    exact q'.trans (State.quiet_settleDrains _)

/-! ## The place of an access -/

/-- A translation takes free values and fills the structures that hold translations, and leaves memory. -/
theorem State.quiet_xlate (s : State) (owner : TlbOwner) (ctx : Nat) (user : Bool) (need : AccNeed) (va : Nat) :
    s.Quiet (s.xlate owner ctx user need va).2.2 := by
  have drawn (b : Bool) : s.Quiet (if b then (0, s) else s.freePair).2 := by
    cases b
    · exact s.quiet_freePair
    · exact .refl s
  unfold State.xlate
  dsimp only
  split
  · split <;> exact drawn _
  · exact drawn _
  · split
    · exact drawn _
    · split
      · exact drawn _
      · dsimp only
        exact (drawn _).trans (State.quiet_modIo _ _ rfl)

theorem State.quiet_translate (s : State) (owner : TlbOwner) (ctx : Nat) (user : Bool) (need : AccNeed) (va : Nat) :
    s.Quiet (s.translate owner ctx user need va).2 := s.quiet_xlate owner ctx user need va

theorem State.quiet_place (s : State) (h : Hart) (need : AccNeed) (va : Nat) : s.Quiet (s.place h need va).2 := by
  cases h with
  | user c t =>
    have q := s.quiet_translate (.core c) (s.core c).ctxid.toNat true need va
    simp only [State.place]
    split
    · exact .refl s
    · split <;> next e => rw [e] at q; exact q
  | sup c l =>
    have q := s.quiet_translate (.core c) (s.core c).ctxid.toNat false need va
    simp only [State.place]
    split
    · exact .refl s
    · split <;> next e => rw [e] at q; exact q
  | mgmt => exact .refl s

/-- An access that meets no condition of Table 10-2 has the place that its address resolves to. -/
theorem State.checkAccess_at {s s1 : State} {h : Hart} {need : AccNeed} {addr : BitVec 64} {size key : Nat} {ps : List (Bool × Nat)}
    {p : Place} (hal : addr.toNat % size = 0) (hr : addr.toNat < 2 ^ 60) (hps : Clean ps)
    (hpl : s.place h need addr.toNat = (.at p key, s1)) : s.checkAccess h need addr size false false ps = (.at p key, s1) := by
  have range : outOfRange addr = false := by simpa [outOfRange] using hr
  have clean : poisonField ps = none := by
    rw [poisonField, List.find?_eq_none.mpr (fun x hx => by rw [hps x hx]; decide), Option.map_none]
  simp [State.checkAccess, hal, range, clean, hpl]

/-! ## A hart's thread after a change -/

theorem State.setThread_thread (s : State) (h : Hart) (th : Thread) : (s.setThread h th).thread h = th := by
  cases h with
  | user c t => simp [State.setThread, State.thread]
  | sup c l => simp [State.setThread, State.thread]
  | mgmt => rfl

@[simp] theorem State.modThread_thread (s : State) (h : Hart) (f : Thread → Thread) : (s.modThread h f).thread h = f (s.thread h) :=
  s.setThread_thread h _

/-! ## A store enters its thread's queue (R198, R229) -/

/-- A store to any place but control space performs by entering its thread's queue, where there is room. -/
theorem State.perform_store {s : State} {h : Hart} {p : Place} (key : Nat) (hp : ∀ off, p ≠ .ctl off) (hq : s.queueFull h = false)
    {a : Access} (ha : a.kind = .store) :
    s.perform h a p key = .done (s.enqueue h p key (natBytes a.size a.data.toNat) a.dpoison a.release) id := by
  cases p with
  | ctl off => exact absurd rfl (hp off)
  | _ => simp [State.perform, ha, hq]

/-- ST that passes its checks enters its thread's queue and goes on. -/
theorem exec_st_queued {s s1 : State} {h : Hart} {f : DF} {m : MemMod} {p : Place} {key : Nat} (ht : Turn s h)
    (hn : Named s h (addrUses f.fields ++ [(.reg f.fields.d, dataW (sizeBytes m.size))])) (ha : AddrOk s h f.fields (sizeBytes m.size) true)
    (hd : s.opPoison h (.reg f.fields.d) (dataW (sizeBytes m.size)) = true → m.psn = true)
    (hpl : s.place h .store (s.addrOf h f.fields).toNat = (.at p key, s1)) (hp : ∀ off, p ≠ .ctl off) (hq : s1.queueFull h = false) :
    exec (.st f m) s = .next (done h (.st f m) s (queued s s1 h f.fields m p key)) := by
  obtain ⟨hal, hr, hl, hc⟩ := ha
  have clean : (s.addrPoison h f.fields).any (·.1) = false :=
    List.any_eq_false.mpr (fun x hx => by rw [hc x hx]; decide)
  have fields : Clean (s.addrPoison h f.fields ++ [(s.opPoison h (.reg f.fields.d) (dataW (sizeBytes m.size)) && !m.psn, 3)]) := by
    intro x hx
    rcases List.mem_append.mp hx with hx | hx
    · exact hc x hx
    · rw [List.mem_singleton.mp hx]
      cases e : s.opPoison h (.reg f.fields.d) (dataW (sizeBytes m.size)) with
      | false => rfl
      | true => simp [hd e]
  have lane : laneSt f.fields m h s = .ok (queued s s1 h f.fields m p key) := by
    simp only [laneSt, guardOps, show opCheck s h _ = none from hn, State.issueAccess, AccKind.need, hl, clean,
      State.checkAccess_at hal hr fields hpl, State.perform_store key hp hq]
    rfl
  exact (issue_single s h (.st f m) (laneSt f.fields m) ht).trans (by rw [lane]; rfl)

/-- The thread of a store that has entered the queue: an entry more, at the next instruction. -/
theorem done_queued_thread (s s1 : State) (h : Hart) (i : Instr) (f : Fields) (m : MemMod) (p : Place) (key : Nat) :
    ∃ e, (done h i s (queued s s1 h f m p key)).thread h = { s1.thread h with
      storeQ := (s1.thread h).storeQ ++ [e], stores := (s1.thread h).stores + 1, pc := nextPc s h i, age := 0 } :=
  ⟨_, by simp only [done, queued, State.enqueue, State.modThread_thread]; rfl⟩

/-- A store that enters the queue leaves the bytes of memory and their marks. -/
theorem done_queued_mem (s s1 : State) (h : Hart) (i : Instr) (f : Fields) (m : MemMod) (p : Place) (key : Nat) :
    (done h i s (queued s s1 h f m p key)).mem = s1.mem ∧ (done h i s (queued s s1 h f m p key)).memPoison = s1.memPoison := by
  simp [done, queued, State.enqueue]

end Sys2Proof.Machine

namespace Sys2Proof.Claims
open Sys2Proof.Machine

/-- Settles O48: a store enters its queue with memory as it was; its drain writes each granule it touches once, from the bytes there and
what of it reaches a slot area. -/
theorem storeFrames : Obligations.StoreFrames := by
  unfold Obligations.StoreFrames
  refine ⟨fun s s1 h f m p key ht => ?_, fun s h i e he hg hm hr hh => ?_⟩
  · intro n d hn ha hd hpl hp hq
    have q : s.Quiet s1 := by simpa [hpl] using s.quiet_place h .store (s.addrOf h f.fields).toNat
    obtain ⟨mem, mark⟩ := done_queued_mem s s1 h (.st f m) f.fields m p key
    obtain ⟨e, th⟩ := done_queued_thread s s1 h (.st f m) f.fields m p key
    refine ⟨_, exec_st_queued ht hn ha hd hpl hp hq, fun a => by rw [mem, q.mem], mark.trans q.memPoison, ?_⟩
    simp [th, q.thread]
  · obtain ⟨t, u, hu, q, w⟩ := exec_storeDrain_home he hg hm hr hh
    have writable {a : Nat} (hp : isPeer a = false) (hs : s.subFailed a = false) (hk : mget 0 s.memKey (a / 16) = s.keyTag e.key) :
        t.Writable e.key a := ⟨hp, (q.subFailed a).trans hs, by rw [q.memKey, q.keyTag, hk]⟩
    refine ⟨u, hu, fun g hg => ⟨?_, ?_⟩, fun a _ hp hs hk hn => ?_, fun a k hp hs hk hslot hmask => ?_, fun h' => ?_⟩
    · refine peeks_congr _ _ _ _ (fun i hi => ?_)
      have out : (16 * g + i) / 16 ∉ entGranules e.bytes := by
        rw [show (16 * g + i) / 16 = g by omega, mem_entGranules, hg]
        decide
      rw [w.mem, t.putHome_frame _ _ _ _ _ out, q.mem]
    · rw [w.memPoison, t.putHome_mark _ _ _ _ _ hg, q.memPoison]
    · rw [w.mem, t.putHome_byte _ _ _ (writable hp hs hk), State.reaching_outside _ _ ((q.slotGranule? _).trans hn), q.mem]
    · rw [w.mem, t.putHome_byte _ _ _ (writable hp hs hk), q.mem]
      exact applyBytes_of_not_written _ (State.reaching_readOnly rfl ((q.slotGranule? _).trans hslot) hmask)
    · rw [w.thread, (t.putHome_sameSetting _ _ _ _).thread, q.thread]

end Sys2Proof.Claims
end

section
/-! PROOFS of 01_device, loads: what a load does at each kind of place, and its instruction in every form. -/

set_option Elab.async false

namespace Sys2Proof.Machine
open Sys2Proof.Laws Sys2Proof.Claims

/-! ## A load at its place (R199, R224, R228, R263, R369) -/

/-- A load at a place whose bytes it reads returns what the memory model says, once its core has a request free (R10) and no store
that it lies beneath must wait (log 107). -/
theorem State.perform_load_readable {s : State} {h : Hart} {p : Place} (key : Nat) {a : Access} {sx sc : Bool}
    (ha : a.kind = .load sx sc) (hr : Readable s p) (hw : s.requestWaits h p = false) (hl : s.loadWaits h p a.size = false) :
    let r := (loadNoted s h p sc).loadBytes h p key a.size a.acquire
    s.perform h a p key = .done r.2.2 (loadResult a sx sc r.1 r.2.1) := by
  cases p with
  | ctl off => exact hr.elim
  | dev pa =>
    have near : (isPeer pa && (s.peerWindow? pa).isSome) = false := by simpa [Readable] using hr
    simp [State.perform, ha, hw, hl, near, loadNoted]
  | _ => simp [State.perform, ha, loadNoted]

/-- A load of control space returns the register, and orders what follows (R202, R369). -/
theorem State.perform_load_ctl (s : State) (h : Hart) (off key : Nat) {a : Access} {sx sc : Bool} (ha : a.kind = .load sx sc) :
    let r := s.ioRead off a.size
    s.perform h a (.ctl off) key =
      .done (r.2.modThread h (fun th => { th with mv := r.2.learnAt h (.ctl off) a.acquire th.mv }))
        (loadResult a sx sc (natBytes a.size r.1.toNat) false) := by
  simp only [State.perform, ha]

/-- A load through an open window goes to the peer module (R263). -/
theorem State.perform_load_peer {s : State} {h : Hart} {pa w : Nat} (key : Nat) {a : Access} {sx sc : Bool} (ha : a.kind = .load sx sc)
    (hp : isPeer pa = true) (hw : s.peerWindow? pa = some w) (hr : s.requestWaits h (.dev pa) = false)
    (hl : s.loadWaits h (.dev pa) a.size = false) : s.perform h a (.dev pa) key = .sent (s.sendPeerLoad h a pa sc) := by
  simp [State.perform, ha, hp, hw, hr, hl]

/-! ## A load that goes to a peer -/

/-- The MemRd requests of a read change nothing of the I/O dies. -/
@[simp] theorem State.cxlReads_io (s : State) (pa n : Nat) : (s.cxlReads pa n).io = s.io := by
  unfold State.cxlReads
  split
  · generalize List.range ((pa + n - 1) / 64 - pa / 64 + 1) = l
    induction l generalizing s with
    | nil => rfl
    | cons a l ih => rw [List.foldl_cons, ih]; rfl
  · rfl

@[simp] theorem State.postRequest_io (s : State) (c : Nat) (r : Nat × Nat) (w : Bool) (m : List Nat) :
    (s.postRequest c r w m).io = s.io := by
  unfold State.postRequest; dsimp only; split <;> rfl

@[simp] theorem State.sendRead_io (s : State) (c : Nat) (r : Nat × Nat) : (s.sendRead c r).io = s.io := by
  unfold State.sendRead; dsimp only; split <;> simp

@[simp] theorem State.readOne_io (s : State) (pa : Nat) : (s.readOne pa).io = s.io := by
  unfold State.readOne; split <;> simp

@[simp] theorem State.noteLoad_io (s : State) (h : Hart) (pa : Nat) (sc : Bool) : (s.noteLoad h pa sc).io = s.io := by
  unfold State.noteLoad
  split
  · exact s.readOne_io pa
  · split
    · exact s.sendRead_io _ _
    · rfl

/-- The thread of a load that has gone to a peer waits for the answer. -/
theorem State.peerHeld_sendPeerLoad (s : State) (h : Hart) (a : Access) (pa : Nat) (sc : Bool) :
    (s.sendPeerLoad h a pa sc).peerHeld h = true := by
  simp [State.peerHeld, State.sendPeerLoad, State.modIo]

/-- A load of the management core goes out at once, at the bus address of its granule (R263). -/
theorem State.sendPeerLoad_mgmt_out {s : State} {pa w : Nat} (a : Access) (sc : Bool) (hp : isPeer pa = true)
    (hw : s.peerWindow? pa = some w) :
    (s.sendPeerLoad .mgmt a pa sc).out = s.out ++ [.peerRead (w / 32) (s.peerBus w (16 * (pa / 16))) 16] := by
  have window (f : Io → Io) (hn : (f s.io).ntb = s.io.ntb) (hl : (f s.io).links = s.io.links) (hm : (f s.io).pmode = s.io.pmode) :
      (s.modIo f).peerWindow? pa = some w := by
    rw [← hw]
    simp [State.peerWindow?, State.linkRole, State.linkUp, State.modIo, hn, hl, hm]
  simp only [State.sendPeerLoad, State.noteLoad, Hart.core?, State.readOne, hp, if_true]
  rw [window _ rfl rfl rfl]
  rfl

/-! ## The instruction -/

/-- Every form of LD is issued as the load that it stands for. -/
theorem exec_of_ldForm {i : Instr} {f : Fields} {m : MemMod} (s : State) (hi : ldForm i = some (f, m)) :
    exec i s = issue 0 .all i (laneLd f m) s := by
  unfold ldForm at hi
  split at hi
  all_goals cases hi
  all_goals rfl

/-- A load that meets no condition ends as it performs: done, with its result, or sent to a peer. -/
theorem State.issueAccess_load {s s1 : State} {h : Hart} {a : Access} {sx sc addrP : Bool} {ps : List (Bool × Nat)} {p : Place} {key : Nat}
    (ha : a.kind = .load sx sc) (hl : s.lockHit h a.addr a.size false = false)
    (hc : s.checkAccess h .load a.addr a.size false addrP ps = (.at p key, s1)) :
    (∀ t g, s1.perform h a p key = .done t g → s.issueAccess h a addrP ps = .ok (t.modThread h g)) ∧
    (∀ t, s1.perform h a p key = .sent t → s.issueAccess h a addrP ps = .ok t) := by
  constructor
  · intro t g hp
    simp [State.issueAccess, ha, AccKind.need, hl, hc, hp]
  · intro t hp
    simp [State.issueAccess, ha, AccKind.need, hl, hc, hp]

/-- LD whose fields raise no trap issues its access. -/
theorem laneLd_issues {s : State} {h : Hart} {f : Fields} {m : MemMod} (hn : Named s h (ldUses f m)) (hc : Clean (s.addrPoison h f)) :
    laneLd f m h s = s.issueAccess h (loadAccess s h f m) false (s.addrPoison h f) := by
  have unmarked : (s.addrPoison h f).any (·.1) = false := List.any_eq_false.mpr (fun x hx => by rw [hc x hx]; decide)
  have named : opCheck s h (addrUses f ++ f.dst (if m.sc then .w32 else dataW (sizeBytes m.size))) = none := hn
  simp only [laneLd, guardOps, named, unmarked]
  rfl

/-- An instruction of LD that passes its checks ends as its access does. -/
theorem exec_ld_of_perform {s s1 : State} {h : Hart} {i : Instr} {f : Fields} {m : MemMod} {p : Place} {key : Nat}
    (ht : Turn s h) (hi : ldForm i = some (f, m)) (hn : Named s h (ldUses f m)) (ha : AddrOk s h f (sizeBytes m.size) false)
    (hpl : s.place h .load (s.addrOf h f).toNat = (.at p key, s1)) :
    (∀ t g, s1.perform h (loadAccess s h f m) p key = .done t g → exec i s = .next (done h i s (t.modThread h g))) ∧
    (∀ t, s1.perform h (loadAccess s h f m) p key = .sent t → exec i s = .next (done h i s t)) := by
  obtain ⟨aligned, range, lock, clean⟩ := ha
  have ends {t : State} (hl : s.issueAccess h (loadAccess s h f m) false (s.addrPoison h f) = .ok t) :
      exec i s = .next (done h i s t) := by
    rw [exec_of_ldForm s hi, issue_single s h i _ ht, laneLd_issues hn clean, hl]
    rfl
  obtain ⟨performed, sent⟩ := State.issueAccess_load (a := loadAccess s h f m) rfl lock (State.checkAccess_at aligned range clean hpl)
  exact ⟨fun t g hp => ends (performed t g hp), fun t hp => ends (sent t hp)⟩

end Sys2Proof.Machine

namespace Sys2Proof.Claims
open Sys2Proof.Machine Sys2Proof.Laws

/-- Settles O5: a load passes its checks and is then performed at its place: read there, in control space, or sent to the peer. -/
theorem loadCompletes : Obligations.LoadCompletes := by
  unfold Obligations.LoadCompletes
  refine ⟨fun s s1 h i f m p key ht hi hn ha hpl hr hw hl => ?_, fun s s1 h i f m key ht hi hn ha =>
    ⟨fun off hpl => ?_, fun pa w hpl hp hw hq hl => ?_⟩⟩
  · exact (exec_ld_of_perform ht hi hn ha hpl).1 _ _ (State.perform_load_readable key rfl hr hw hl)
  · exact (exec_ld_of_perform ht hi hn ha hpl).1 _ _ (s1.perform_load_ctl h off key rfl)
  · have sent := (exec_ld_of_perform ht hi hn ha hpl).2 _ (State.perform_load_peer key rfl hp hw hq hl)
    refine ⟨sent, fun u hu => ?_⟩
    rw [sent] at hu
    cases hu
    refine ⟨?_, fun e => ?_⟩
    · simpa [done, State.peerHeld] using s1.peerHeld_sendPeerLoad h (loadAccess s h f m) pa m.sc
    · subst e
      simpa [done] using State.sendPeerLoad_mgmt_out (loadAccess s .mgmt f m) m.sc hp hw

end Sys2Proof.Claims
end

section
/-! PROOFS of 01_device, records: a field of a record laid out in bits reads back what was put there, and so does the error log. -/

set_option Elab.async false

namespace Sys2Proof.Machine

/-! ## Fields of records (R2, R4) -/

/-- A bit of a record with one field replaced: the field's own, or the record's. -/
theorem getLsbD_bput {n : Nat} (r : BitVec n) (lo w v i : Nat) :
    (bput r lo w v).getLsbD i = if lo ≤ i ∧ i < lo + w then decide (i < n) && v.testBit (i - lo) else r.getLsbD i := by
  have ones (k : Nat) : (2 ^ w - 1).testBit k = decide (k < w) := Nat.testBit_two_pow_sub_one w k
  simp only [bput, BitVec.getLsbD_or, BitVec.getLsbD_and, BitVec.getLsbD_not, BitVec.getLsbD_shiftLeft, BitVec.getLsbD_ofNat,
    ones, Nat.testBit_mod_two_pow]
  by_cases hn : i < n
  · have hk : i - lo < n := by omega
    by_cases hl : lo ≤ i
    · have : (i - lo < w) ↔ i < lo + w := by omega
      by_cases hw : i < lo + w <;> simp [hn, hk, hl, hw, this, Nat.not_lt.mpr hl]
    · simp [hn, hl, Nat.not_le.mp hl]
  · simp [hn, BitVec.getLsbD_of_ge r i (by omega)]

/-- A bit of a field. -/
theorem testBit_bget {n : Nat} (r : BitVec n) (lo w k : Nat) : (bget r lo w).testBit k = (decide (k < w) && r.getLsbD (lo + k)) := by
  rw [bget, BitVec.testBit_toNat, BitVec.getLsbD_extractLsb']

/-- A field reads back what was put in it. -/
theorem bget_bput_same {n : Nat} (r : BitVec n) {lo w : Nat} (v : Nat) (h : lo + w ≤ n) : bget (bput r lo w v) lo w = v % 2 ^ w := by
  refine Nat.eq_of_testBit_eq (fun k => ?_)
  rw [testBit_bget, getLsbD_bput, Nat.testBit_mod_two_pow]
  by_cases hk : k < w
  · have : lo + k < n := by omega
    simp [hk, this]
  · simp [hk]

/-- A field is as it was after one apart from it is put. -/
theorem bget_bput_apart {n : Nat} (r : BitVec n) {lo w lo' w' : Nat} (v : Nat) (h : lo' + w' ≤ lo ∨ lo + w ≤ lo') :
    bget (bput r lo w v) lo' w' = bget r lo' w' := by
  refine Nat.eq_of_testBit_eq (fun k => ?_)
  rw [testBit_bget, testBit_bget, getLsbD_bput]
  by_cases hk : k < w'
  · rw [if_neg (by omega)]
  · simp [hk]

/-! ## Records of the error log (Table 22-3) -/

/-- EV of a record. -/
theorem LogRec.bits_ev (r : LogRec) (seq : Nat) : bget (r.bits seq) 216 8 = r.ev % 2 ^ 8 := by
  simp (disch := decide) only [LogRec.bits, bputs, bget_bput_apart, bget_bput_same]

/-- CODE of a record. -/
theorem LogRec.bits_code (r : LogRec) (seq : Nat) : bget (r.bits seq) 208 8 = r.code.toNat := by
  simp (disch := decide) only [LogRec.bits, bputs, bget_bput_apart, bget_bput_same]
  exact Nat.mod_eq_of_lt r.code.isLt

/-- The record that is logged stands at the place of the log's end, which advances. -/
theorem State.logRaw_log (s : State) (r : LogRec) :
    mget 0 (s.logRaw r).errors.log (s.errors.elp.toNat % 256) = r.bits s.errors.elp.toNat := by
  simp [State.logRaw, State.modErrors]

@[simp] theorem State.logRaw_elp (s : State) (r : LogRec) : (s.logRaw r).errors.elp = s.errors.elp + 1 := rfl

end Sys2Proof.Machine
end

section
/-! PROOFS of 01_device, links and the host face: what training and losing a link leave, then the notifications and requests of the host. -/

set_option Elab.async false

namespace Sys2Proof.Machine
open Sys2Proof.Laws Sys2Proof.Claims

/-! ## A path that is lost (R357) -/

/-- `u` has the memory, the error records, the links and the windows of `s`. -/
structure State.SamePaths (s u : State) : Prop where
  mem : u.mem = s.mem
  errors : u.errors = s.errors
  links : u.io.links = s.io.links
  ntb : u.io.ntb = s.io.ntb

theorem State.SamePaths.trans {s t u : State} (a : s.SamePaths t) (b : t.SamePaths u) : s.SamePaths u :=
  ⟨b.mem.trans a.mem, b.errors.trans a.errors, b.links.trans a.links, b.ntb.trans a.ntb⟩

/-- Reads over a lost path end for their threads, and promotions from behind it are marked; nothing else changes. -/
theorem State.samePaths_pathLost (s : State) : s.SamePaths s.pathLost := by
  have ends (l : List PeerReq) (f : State → PeerReq → State) (hf : ∀ (s : State) r, s.SamePaths (f s r)) (s : State) :
      s.SamePaths (l.foldl f s) := by
    induction l generalizing s with
    | nil => exact ⟨rfl, rfl, rfl, rfl⟩
    | cons r l ih => exact (hf s r).trans (ih _)
  have marked : s.SamePaths s.markLost := ⟨rfl, rfl, rfl, rfl⟩
  unfold State.pathLost
  refine marked.trans (State.SamePaths.trans (t := s.markLost.modIo _) ⟨rfl, rfl, rfl, rfl⟩ (ends _ _ (fun s r => ?_) _))
  dsimp only
  split
  · exact ⟨by simp, by simp [State.freeBytes16, State.freePair], by simp [State.freeBytes16, State.freePair],
      by simp [State.freeBytes16, State.freePair]⟩
  · exact ⟨rfl, rfl, rfl, rfl⟩

/-- Messages that fail with a link change neither paths nor the error log. -/
theorem State.samePaths_failMessages (s : State) (md : Nat) : s.SamePaths (s.failMessages md) := ⟨rfl, rfl, rfl, rfl⟩

/-- LINK_DOWN is one record, with its code, and leaves all but the error log. -/
theorem State.logLinkDown_spec (s : State) (port : Nat) :
    (s.logLinkDown port).mem = s.mem ∧ (s.logLinkDown port).io = s.io ∧ (s.logLinkDown port).errors.elp = s.errors.elp + 1 ∧
    bget (mget 0 (s.logLinkDown port).errors.log (s.errors.elp.toNat % 256) : BitVec 256) 208 8 = Cause.linkDown.code.toNat := by
  have tested (e : Errors) (l : Loc) (n : Nat) : (e.startTest l n).elp = e.elp ∧ (e.startTest l n).log = e.log := by
    unfold Errors.startTest
    split <;> exact ⟨rfl, rfl⟩
  obtain ⟨r, hr, he⟩ : ∃ r : LogRec, r.code = Cause.linkDown.code ∧
      s.logLinkDown port = (s.logRaw r).modErrors (·.startTest (linkLoc port) s.errors.elp.toNat) := ⟨_, rfl, rfl⟩
  rw [he]
  refine ⟨rfl, rfl, (tested _ _ _).1, ?_⟩
  rw [show ((s.logRaw r).modErrors (·.startTest (linkLoc port) s.errors.elp.toNat)).errors.log = (s.logRaw r).errors.log from
    (tested _ _ _).2, s.logRaw_log, LogRec.bits_code, hr]

/-! ## Links (R15, R344, R357, R359) -/

/-- A link that carries CXL.mem trains at 64 GT/s at most (Table 1-6). -/
theorem trainedRate_cxl {partner r : Nat} (h : trainedRate partner true = some r) : r ≤ 640 := by
  have listed := List.mem_of_getLast? h
  simp only [List.mem_filter, Bool.not_true, Bool.false_or, Bool.and_eq_true, decide_eq_true_eq] at listed
  exact listed.2.2

/-- The modules that a link has reached once it has trained: a peer link's new one among them (R359). -/
def State.reachedBy (s : State) (port : Nat) (md : BitVec 8) : List (BitVec 8) :=
  let old := ((mget none s.io.links port).map (·.reached)).getD []
  if s.linkRole port = .peer && !old.contains md then old ++ [md] else old

theorem State.mem_reachedBy_peer {s : State} {port : Nat} (md : BitVec 8) (h : s.linkRole port = .peer) : md ∈ s.reachedBy port md := by
  unfold State.reachedBy
  dsimp only
  split
  · simp
  · next known => simpa [h] using known

theorem State.mem_reachedBy_old {s : State} {port : Nat} {l : Link} (md : BitVec 8) (h : mget none s.io.links port = some l) :
    ∀ m ∈ l.reached, m ∈ s.reachedBy port md := by
  intro m hm
  simp only [State.reachedBy, h, Option.map_some, Option.getD_some]
  split
  · exact List.mem_append_left _ hm
  · exact hm

/-- A link whose port's mode gives it a role trains at the rate of both ends, and changes nothing else. -/
theorem exec_linkTrain_of_role {s : State} {port rate r : Nat} {cxl : Bool} (md : BitVec 8) (hr : s.linkRole port ≠ .none)
    (ht : trainedRate rate (cxl && s.linkRole port == .root) = some r) :
    ∃ u, exec (.linkTrain port rate cxl md) s = .next u ∧ u.mem = s.mem ∧ (∀ p, p ≠ port → mget none u.io.links p = mget none s.io.links p) ∧
      mget none u.io.links port =
        some ⟨true, r, cxl && s.linkRole port == .root, md, s.reachedBy port md, portOptions (s.linkRole port) r⟩ := by
  have run : exec (.linkTrain port rate cxl md) s = .next (s.modIo (fun io => { io with
      links := mset none io.links port
        (some ⟨true, r, cxl && s.linkRole port == .root, md, s.reachedBy port md, portOptions (s.linkRole port) r⟩) })) := by
    show execLinkTrain port rate cxl md s = _
    unfold execLinkTrain
    rw [ht]
    cases h : s.linkRole port with
    | none => exact absurd h hr
    | _ => simp only [State.reachedBy, h]
  refine ⟨_, run, rfl, fun p hne => ?_, ?_⟩
  · rw [State.modIo, mget_mset, if_neg hne]
  · rw [State.modIo, mget_mset, if_pos rfl]

/-- A link that is up goes down, and is logged once. -/
theorem exec_linkDown_link {s : State} {port : Nat} {l : Link} (hl : mget none s.io.links port = some l) (hu : l.up = true) :
    ∃ u, exec (.linkDown port none) s = .next u ∧ mget none u.io.links port = some { l with up := false } ∧ u.mem = s.mem ∧
      u.errors.elp = s.errors.elp + 1 ∧
      bget (mget 0 u.errors.log (s.errors.elp.toNat % 256) : BitVec 256) 208 8 = Cause.linkDown.code.toNat := by
  obtain ⟨mem, io, elp, code⟩ :=
    (s.modIo (fun io => { io with links := mset none io.links port (some { l with up := false }) })).logLinkDown_spec port
  have kept : ((s.modIo (fun io => { io with links := mset none io.links port (some { l with up := false }) })).logLinkDown port).SamePaths
      (s.loseLink port) := by
    simp only [State.loseLink, hl, hu, if_true]
    exact (State.samePaths_pathLost _).trans (State.samePaths_failMessages _ _)
  refine ⟨_, rfl, ?_, kept.mem.trans mem, by rw [kept.errors, elp]; rfl, by rw [kept.errors]; exact code⟩
  rw [kept.links, io]
  simp [State.modIo]

/-- A window that an event closes is closed, and where it was open it is logged once. -/
theorem exec_linkDown_window (s : State) {port w : Nat} (hp : port < 8) (hw : w < 32) :
    ∃ u, exec (.linkDown port (some w)) s = .next u ∧ (mget 0 u.io.ntb (32 * port + w) : BitVec 256).getLsbD 255 = false ∧
      u.mem = s.mem ∧ ((mget 0 s.io.ntb (32 * port + w) : BitVec 256).getLsbD 255 = false → u.errors = s.errors) ∧
      ((mget 0 s.io.ntb (32 * port + w) : BitVec 256).getLsbD 255 = true → u.errors.elp = s.errors.elp + 1 ∧
        bget (mget 0 u.errors.log (s.errors.elp.toNat % 256) : BitVec 256) 208 8 = Cause.linkDown.code.toNat) := by
  have closed (old : BitVec 256) : (bput (bput old 255 1 0) 124 104 0).getLsbD 255 = false := by
    rw [getLsbD_bput, getLsbD_bput, if_neg (by decide), if_pos (by decide)]
    rfl
  obtain ⟨t, kept, run⟩ : ∃ t, (s.modIo (fun io => { io with
        ntb := mset 0 io.ntb (32 * port + w) (bput (bput (mget 0 s.io.ntb (32 * port + w)) 255 1 0) 124 104 0) })).SamePaths t ∧
      exec (.linkDown port (some w)) s =
        .next (if (mget 0 s.io.ntb (32 * port + w) : BitVec 256).getLsbD 255 = true then t.logLinkDown port else t) := by
    refine ⟨_, State.samePaths_pathLost _, ?_⟩
    have of_port : (32 * port + w) / 32 = port := by omega
    show execLinkDown port (some w) s = _
    simp only [execLinkDown, State.writeWindow, hp, hw, closed, of_port]
    simp
  obtain ⟨mem, io, elp, code⟩ := t.logLinkDown_spec port
  have window : (mget 0 t.io.ntb (32 * port + w) : BitVec 256).getLsbD 255 = false := by
    rw [kept.ntb, State.modIo, mget_mset, if_pos rfl, closed]
  refine ⟨_, run, ?_⟩
  by_cases open_ : (mget 0 s.io.ntb (32 * port + w) : BitVec 256).getLsbD 255 = true
  · rw [if_pos open_]
    rw [kept.errors] at code
    exact ⟨by rw [io, window], mem.trans kept.mem, fun h => absurd (h.symm.trans open_) Bool.false_ne_true, fun _ =>
      ⟨by rw [elp, kept.errors]; rfl, code⟩⟩
  · rw [if_neg open_]
    exact ⟨window, kept.mem, fun _ => kept.errors, fun h => absurd h open_⟩

/-! ## Notifications of the host (R362) -/

/-- Asking who carries a function changes the console's carrier and the free values alone. -/
theorem State.virtioCarrier_state (s : State) (fn : Nat) :
    ∃ n b, (s.virtioCarrier fn).2 = { s with free := n, io := { s.io with consoleHanded := b } } := by
  unfold State.virtioCarrier
  split
  · exact ⟨s.free, s.io.consoleHanded, rfl⟩
  · split
    · exact ⟨s.free, s.io.consoleHanded, rfl⟩
    · exact ⟨s.free, s.io.consoleHanded, rfl⟩
    · by_cases h : s.io.consoleHanded = true
      · exact ⟨s.free, true, by rw [if_pos h]; rfl⟩
      · exact ⟨s.free + 1, Config.freeBit s.free, by rw [if_neg h]; rfl⟩

/-- A virtqueue after it is changed. -/
theorem State.virtq_modVirtq (s : State) {fn q : Nat} (f : VirtQueue → VirtQueue) (hf : fn < 2) (hq : q < 2) :
    (s.modVirtq fn q f).virtq fn q = f (s.virtq fn q) := by
  simp [State.modVirtq, State.virtq, State.modIo, hf, hq]

theorem State.modVirtq_frame (s : State) (fn q : Nat) (f : VirtQueue → VirtQueue) :
    (s.modVirtq fn q f).mem = s.mem ∧ (s.modVirtq fn q f).errors = s.errors ∧ (s.modVirtq fn q f).out = s.out ∧
    (s.modVirtq fn q f).free = s.free ∧ (s.modVirtq fn q f).io.links = s.io.links := by
  unfold State.modVirtq
  split <;> exact ⟨rfl, rfl, rfl, rfl, rfl⟩

/-- Taking a buffer counts it, and reads its entry and its descriptor from host memory. -/
theorem State.takeBuffer_spec (s : State) {fn q : Nat} (hf : fn < 2) (hq : q < 2) :
    (s.takeBuffer fn q).2.mem = s.mem ∧ (s.takeBuffer fn q).2.errors = s.errors ∧ (s.takeBuffer fn q).2.io.links = s.io.links ∧
    (s.takeBuffer fn q).2.virtq fn q = { s.virtq fn q with taken := (s.virtq fn q).taken + 1 } ∧
    ∃ reads, (∀ o ∈ reads, ∃ a n, o = Out.hostRead a n) ∧ (s.takeBuffer fn q).2.out = s.out ++ reads := by
  unfold State.takeBuffer
  dsimp only
  obtain ⟨mem, errors, out, -, links⟩ := State.modVirtq_frame (((s.freePair.2.emit _).emit _).emit _) fn q
    (fun q => { q with taken := q.taken + 1 })
  have three (t : State) (a b c : Out) : (((t.emit a).emit b).emit c).out = t.out ++ [a, b, c] := by simp [State.emit]
  refine ⟨mem.trans rfl, errors.trans rfl, links.trans rfl, State.virtq_modVirtq _ _ hf hq, _, ?_, out.trans (three s.freePair.2 _ _ _)⟩
  simp

/-- Using a buffer counts it, fills the used ring in host memory, and may tell the host by the queue's vector. -/
theorem State.useBuffer_spec (s : State) {fn q : Nat} (head len : Nat) (hf : fn < 2) (hq : q < 2) :
    (s.useBuffer fn q head len).mem = s.mem ∧ (s.useBuffer fn q head len).errors = s.errors ∧
    (s.useBuffer fn q head len).virtq fn q = { s.virtq fn q with filled := (s.virtq fn q).filled + 1 } ∧
    ∃ writes, (∀ o ∈ writes, ∃ a bs, o = Out.hostWrite a bs) ∧ ((s.useBuffer fn q head len).out = s.out ++ writes ∨
      (s.anyLink (·.msixSent) = true ∧ (s.useBuffer fn q head len).out = s.out ++ writes ++ [Out.hostMsix fn q])) := by
  obtain ⟨t, used, mem, errors, links, virtq, writes, hw, out⟩ : ∃ t : State, s.useBuffer fn q head len =
      (if Config.freeBit t.free then State.hostMsix { t with free := t.free + 1 } fn q else { t with free := t.free + 1 }) ∧
      t.mem = s.mem ∧ t.errors = s.errors ∧ t.io.links = s.io.links ∧
      t.virtq fn q = { s.virtq fn q with filled := (s.virtq fn q).filled + 1 } ∧
      ∃ writes, (∀ o ∈ writes, ∃ a bs, o = Out.hostWrite a bs) ∧ t.out = s.out ++ writes := by
    obtain ⟨mem, errors, out, -, links⟩ := State.modVirtq_frame ((s.emit _).emit _) fn q (fun q => { q with filled := q.filled + 1 })
    have two (a b : Out) : ((s.emit a).emit b).out = s.out ++ [a, b] := by simp [State.emit]
    refine ⟨_, rfl, mem.trans rfl, errors.trans rfl, links.trans rfl, State.virtq_modVirtq _ _ hf hq, _, ?_, out.trans (two _ _)⟩
    simp
  have any (p : PortOptions → Bool) : t.anyLink p = s.anyLink p := by simp only [State.anyLink, links]
  rw [used]
  split
  · unfold State.hostMsix
    split
    · next told => exact ⟨mem, errors, virtq, writes, hw, .inr ⟨(any _).symm.trans told, by simp [State.emit, out]⟩⟩
    · exact ⟨mem, errors, virtq, writes, hw, .inl out⟩
  · exact ⟨mem, errors, virtq, writes, hw, .inl out⟩

/-! ## Requests of the host (R363) -/

/-- Things that leave the device one after the other. -/
theorem State.foldl_emit {α : Type} (g : α → Out) (l : List α) (s : State) :
    l.foldl (fun s x => s.emit (g x)) s = { s with out := s.out ++ l.map g } := by
  induction l generalizing s with
  | nil => simp
  | cons a l ih => rw [List.foldl_cons, ih]; simp [State.emit]

/-- `n` free bytes: as many, and the free values alone move on. -/
theorem State.freeBytes_spec (s : State) (n : Nat) : (s.freeBytes n).1.length = n ∧ ∃ k, (s.freeBytes n).2 = { s with free := k } := by
  induction n generalizing s with
  | zero => exact ⟨rfl, s.free, rfl⟩
  | succ n ih =>
    obtain ⟨len, k, hk⟩ := ih s.freePair.2
    exact ⟨congrArg (· + 1) len, k, hk⟩

/-- What the host has set up reads the same whatever free values have been drawn. -/
theorem State.virtioReg_free (s : State) (n : Nat) (f : Config.VirtioField) : State.virtioReg { s with free := n } f = s.virtioReg f := by
  cases f <;> rfl

/-- A set-up register of the host face changes the face's own records alone, by what they were. -/
theorem State.setVirtioReg_frame (s : State) (n v : Nat) (f : Config.VirtioField) :
    let u := State.setVirtioReg { s with free := n } v f
    u.mem = s.mem ∧ u.errors = s.errors ∧ u.out = s.out ∧ u.io = (s.setVirtioReg v f).io := by
  have queue (fn q : Nat) (g : VirtQueue → VirtQueue) : let u := State.modVirtq { s with free := n } fn q g
      u.mem = s.mem ∧ u.errors = s.errors ∧ u.out = s.out ∧ u.io = (s.modVirtq fn q g).io := by
    unfold State.modVirtq
    split <;> exact ⟨rfl, rfl, rfl, rfl⟩
  cases f
  case status => unfold State.setVirtioReg; dsimp only; split <;> exact ⟨rfl, rfl, rfl, rfl⟩
  case queueSize =>
    unfold State.setVirtioReg
    dsimp only
    split
    · exact queue _ _ _
    · exact ⟨rfl, rfl, rfl, rfl⟩
  case queueEnable =>
    unfold State.setVirtioReg
    dsimp only
    split
    · exact queue _ _ _
    · exact ⟨rfl, rfl, rfl, rfl⟩
  case queueArea => exact queue _ _ _
  all_goals exact ⟨rfl, rfl, rfl, rfl⟩

/-- Bytes written one after the other read back. -/
theorem mget_foldl_zipIdx (data : List Byte) (m : List (Nat × Option Byte)) (a k : Nat) :
    (∀ j, j < a + k → mget none ((data.zipIdx k).foldl (fun m b => mset none m (a + b.2) (some b.1)) m) j = mget none m j) ∧
    ∀ i b, data[i]? = some b →
      mget none ((data.zipIdx k).foldl (fun m b => mset none m (a + b.2) (some b.1)) m) (a + (k + i)) = some b := by
  induction data generalizing m k with
  | nil => exact ⟨fun j _ => rfl, fun i b h => by simp at h⟩
  | cons x xs ih =>
    obtain ⟨before, written⟩ := ih (mset none m (a + k) (some x)) (k + 1)
    simp only [List.zipIdx_cons, List.foldl_cons]
    refine ⟨fun j hj => ?_, fun i b h => ?_⟩
    · rw [before j (by omega), mget_mset, if_neg (by omega)]
    · cases i with
      | zero =>
        rw [before _ (by omega), mget_mset, if_pos (by omega)]
        simpa using h
      | succ i =>
        rw [show a + (k + (i + 1)) = a + (k + 1 + i) by omega]
        exact written i b (by simpa using h)

/-! ## The events of the host face -/

/-- The host face reports an error on each of its links that is up and has AER, and does nothing else. -/
theorem State.hostAer_spec (s : State) (c : Bool) :
    (∃ reports, s.hostAer c = { s with out := s.out ++ reports }) ∧
    ∀ link l, link < 32 → mget none s.io.links link = some l → l.up = true → l.options.aer = true → .aer link c ∈ (s.hostAer c).out := by
  have all : s.hostAer c = _ := State.foldl_emit (fun l => Out.aer l c) _ s
  rw [all]
  refine ⟨⟨_, rfl⟩, fun link l hn hl hu ha => List.mem_append_right _ (List.mem_map.mpr ⟨link, ?_, rfl⟩)⟩
  simp [hn, hl, hu, ha]

/-- A buffer whose data are poisoned is taken and logged (R389). -/
theorem State.takeBuffer_poisoned (s : State) {fn q : Nat} (hf : fn < 2) (hq : q < 2) :
    let u := (s.takeBuffer fn q).2.logRaw { ev := 0x0B }
    u.mem = s.mem ∧ (u.virtq fn q).taken = (s.virtq fn q).taken + 1 ∧ u.errors.elp = s.errors.elp + 1 ∧
    bget (mget 0 u.errors.log (s.errors.elp.toNat % 256) : BitVec 256) 216 8 = 0x0B ∧
    ∃ reads, (∀ o ∈ reads, ∃ a n, o = Out.hostRead a n) ∧ u.out = s.out ++ reads := by
  obtain ⟨mem, errors, -, taken, reads, hr, out⟩ := s.takeBuffer_spec hf hq
  generalize s.takeBuffer fn q = w at *
  refine ⟨mem, congrArg VirtQueue.taken taken, ?_, ?_, reads, hr, out⟩
  · rw [State.logRaw_elp, errors]
  · rw [← errors, State.logRaw_log, LogRec.bits_ev]
    rfl

/-- Any other buffer is taken and used. -/
theorem State.takeBuffer_used (s : State) {fn q : Nat} (hf : fn < 2) (hq : q < 2) :
    let w := s.takeBuffer fn q
    let u := w.2.freePair.2.useBuffer fn q w.1 (w.2.freePair.1.toNat % 2 ^ 32)
    u.mem = s.mem ∧ u.errors = s.errors ∧ (u.virtq fn q).taken = (s.virtq fn q).taken + 1 ∧
    (u.virtq fn q).filled = (s.virtq fn q).filled + 1 ∧
    ∃ moves, (∀ o ∈ moves, (∃ a n, o = Out.hostRead a n) ∨ ∃ a bs, o = Out.hostWrite a bs) ∧
      (u.out = s.out ++ moves ∨ (s.anyLink (·.msixSent) = true ∧ u.out = s.out ++ moves ++ [Out.hostMsix fn q])) := by
  obtain ⟨mem, errors, links, taken, reads, hr, out⟩ := s.takeBuffer_spec hf hq
  generalize s.takeBuffer fn q = w at *
  obtain ⟨used_mem, used_errors, used, writes, hw, used_out⟩ :=
    State.useBuffer_spec w.2.freePair.2 w.1 (w.2.freePair.1.toNat % 2 ^ 32) hf hq
  have drawn : w.2.freePair.2.virtq fn q = w.2.virtq fn q := rfl
  have vectors : w.2.freePair.2.anyLink (·.msixSent) = s.anyLink (·.msixSent) := by
    simp only [State.anyLink, show w.2.freePair.2.io.links = w.2.io.links from rfl, links]
  rw [vectors, show w.2.freePair.2.out = w.2.out from rfl, out, List.append_assoc s.out reads writes] at used_out
  refine ⟨used_mem.trans mem, used_errors.trans errors, ?_, ?_, reads ++ writes, fun o ho => ?_, used_out⟩
  · rw [used, drawn, taken]
  · rw [used, drawn, taken]
  · exact (List.mem_append.mp ho).imp (hr o) (hw o)

/-- The state in which a carrier has been told of a queue, and the two free bits about its buffer are drawn. -/
def State.notified (s : State) (fn q : Nat) : State :=
  ((s.virtioCarrier fn).2.emit (.virtioNotified (s.virtioCarrier fn).1 fn q)).freeBit.2.freeBit.2

theorem State.notified_frame (s : State) (fn q : Nat) :
    (s.notified fn q).mem = s.mem ∧ (s.notified fn q).errors = s.errors ∧ (s.notified fn q).virtq fn q = s.virtq fn q ∧
    (s.notified fn q).anyLink (·.msixSent) = s.anyLink (·.msixSent) ∧
    (s.notified fn q).out = s.out ++ [Out.virtioNotified (s.virtioCarrier fn).1 fn q] := by
  obtain ⟨n, b, carried⟩ := s.virtioCarrier_state fn
  unfold State.notified
  rw [carried]
  exact ⟨rfl, rfl, rfl, rfl, rfl⟩

/-- VIRTIO_NOTIFY of a queue that is enabled, by the free bits: whether the ring holds a buffer, and whether its data are poisoned. -/
theorem exec_virtioNotify_enabled {s : State} {fn q : Nat} (hu : s.hostUp = true) (hf : fn < 2) (hq : q < 2)
    (he : (s.virtq fn q).enabled = true) :
    exec (.virtioNotify fn q) s = .next (
      let v := s.notified fn q
      let w := v.takeBuffer fn q
      if !Config.freeBit (s.virtioCarrier fn).2.free then { v with free := (s.virtioCarrier fn).2.free + 1 }
      else if Config.freeBit ((s.virtioCarrier fn).2.free + 1) then w.2.logRaw { ev := 0x0B }
      else w.2.freePair.2.useBuffer fn q w.1 (w.2.freePair.1.toNat % 2 ^ 32)) := by
  have ready : (s.hostUp && fn < 2 && q < 2 && (s.virtq fn q).enabled) = true := by simp [hu, hf, hq, he]
  show execVirtioNotify fn q s = _
  rw [execVirtioNotify, if_pos ready]
  rfl

/-- A request to an address that the device does not expose ends as Unsupported Request. -/
theorem exec_hostRequest_hidden {s : State} (r : HostAccess) (hu : s.hostUp = true) (hx : Config.freeBit s.free = false) :
    exec (.hostRequest r) s = .next (s.freeBit.2.emit .hostUnsupported) := by
  show execHostRequest r s = _
  cases r <;> simp [execHostRequest, hu, State.freeBit, hx]

/-- A read of what the device exposes returns a register, or the bytes that the host has written there and the device's own. -/
theorem exec_hostRequest_read {s : State} (a : BitVec 64) (len : Nat) (hu : s.hostUp = true) (hx : Config.freeBit s.free = true) :
    ∃ u, exec (.hostRequest (.read a len)) s = .next u ∧ u.mem = s.mem ∧ u.errors = s.errors ∧ u.io = s.io ∧
      (∀ f, Config.virtioAt a = some f → u.out = s.out ++ [Out.hostData (natBytes len (s.virtioReg f))]) ∧
      (Config.virtioAt a = none → ∃ bs, u.out = s.out ++ [Out.hostData bs] ∧ bs.length = len ∧
        ∀ i b, i < len → mget none s.io.hostRegs (a.toNat + i) = some b → bs[i]? = some b) := by
  cases hf : Config.virtioAt a with
  | some f =>
    have run : exec (.hostRequest (.read a len)) s = .next (s.freeBit.2.emit (.hostData (natBytes len (s.virtioReg f)))) := by
      show execHostRequest (.read a len) s = _
      simp [execHostRequest, hu, State.freeBit, hx, hf, State.virtioReg_free]
    exact ⟨_, run, rfl, rfl, rfl, fun f' e => by cases e; rfl, nofun⟩
  | none =>
    obtain ⟨length, k, drawn⟩ := s.freeBit.2.freeBytes_spec len
    generalize hb : s.freeBit.2.freeBytes len = bytes at *
    have run : exec (.hostRequest (.read a len)) s =
        .next (bytes.2.emit (.hostData (bytes.1.mapIdx (fun i b => (mget none bytes.2.io.hostRegs (a.toNat + i)).getD b)))) := by
      subst hb
      show execHostRequest (.read a len) s = _
      simp [execHostRequest, hu, State.freeBit, hx, hf]
    rw [drawn] at run
    refine ⟨_, run, rfl, rfl, rfl, nofun, fun _ => ⟨_, rfl, by simpa using length, fun i b hi written => ?_⟩⟩
    simp only [State.freeBit, List.getElem?_mapIdx, written]
    simp [length, hi]

/-- A write to what the device exposes sets a register up or is held; one of more than 256 bytes is reported through AER (R344). -/
theorem exec_hostRequest_write {s : State} (a : BitVec 64) (data : List Byte) (hu : s.hostUp = true) (hx : Config.freeBit s.free = true) :
    ∃ u, exec (.hostRequest (.write a data)) s = .next u ∧ u.mem = s.mem ∧ u.errors = s.errors ∧
      (256 < data.length → u.io = s.io ∧ ∀ link l, link < 32 → mget none s.io.links link = some l → l.up = true →
        l.options.aer = true → Out.aer link false ∈ u.out) ∧
      (data.length ≤ 256 → u.out = s.out ∧
        (∀ f, Config.virtioAt a = some f → u.io = (s.setVirtioReg (bytesNat data) f).io) ∧
        (Config.virtioAt a = none → ∀ i b, data[i]? = some b → mget none u.io.hostRegs (a.toNat + i) = some b)) := by
  have unfolded : exec (.hostRequest (.write a data)) s = execHostRequest (.write a data) s := rfl
  by_cases hn : 256 < data.length
  · obtain ⟨⟨reports, aer⟩, told⟩ := s.freeBit.2.hostAer_spec false
    have run : exec (.hostRequest (.write a data)) s = .next (s.freeBit.2.hostAer false) := by
      simp [unfolded, execHostRequest, hu, State.freeBit, hx, portOptions, hn]
    exact ⟨_, run, by rw [aer]; rfl, by rw [aer]; rfl, fun _ => ⟨by rw [aer]; rfl, told⟩, fun h => absurd hn (Nat.not_lt.mpr h)⟩
  · cases hf : Config.virtioAt a with
    | some f =>
      have run : exec (.hostRequest (.write a data)) s = .next (s.freeBit.2.setVirtioReg (bytesNat data) f) := by
        simp [unfolded, execHostRequest, hu, State.freeBit, hx, portOptions, hn, hf]
      obtain ⟨mem, errors, out, io⟩ := s.setVirtioReg_frame (s.free + 1) (bytesNat data) f
      exact ⟨_, run, mem, errors, fun h => absurd h hn, fun _ => ⟨out, fun f' e => by cases e; exact io, nofun⟩⟩
    | none =>
      have run : exec (.hostRequest (.write a data)) s = .next (s.freeBit.2.modIo (fun io => { io with
          hostRegs := data.zipIdx.foldl (fun m b => mset none m (a.toNat + b.2) (some b.1)) io.hostRegs })) := by
        simp [unfolded, execHostRequest, hu, State.freeBit, hx, portOptions, hn, hf]
      refine ⟨_, run, rfl, rfl, fun h => absurd h hn, fun _ => ⟨rfl, nofun, fun _ i b hb => ?_⟩⟩
      have written := (mget_foldl_zipIdx data s.io.hostRegs a.toNat 0).2 i b hb
      rwa [Nat.zero_add] at written

end Sys2Proof.Machine

namespace Sys2Proof.Claims
open Sys2Proof.Machine

/-- Settles O38: the links train and fall as Table 18-1 says, and the host face serves, reports or refuses what the host asks. -/
theorem linkEventsHappen : Obligations.LinkEventsHappen := by
  unfold Obligations.LinkEventsHappen
  refine ⟨fun s port rate r cxl md hr ht => ?_, fun s port l hl hu => exec_linkDown_link hl hu,
    fun s port w hp hw => exec_linkDown_window s hp hw, fun s fn q r hu => ⟨?_, ?_⟩,
    fun s fn q hu hf hq => ⟨?_, ?_, fun he => ?_, fun he => ?_⟩, fun s r hu => ?_⟩
  · obtain ⟨u, run, mem, others, trained⟩ := exec_linkTrain_of_role md hr ht
    refine ⟨u, _, run, trained, rfl, rfl, rfl, ?_, fun hc => ?_, rfl, State.mem_reachedBy_peer md, fun old ho =>
      State.mem_reachedBy_old md ho, others, mem⟩
    · simp
    · rw [show (cxl && s.linkRole port == .root) = true from hc] at ht
      exact trainedRate_cxl ht
  · show execVirtioNotify fn q s = _
    simp [execVirtioNotify, hu]
  · show execHostRequest r s = _
    simp [execHostRequest, hu]
  · rintro (rfl | hs)
    · rfl
    · show (s.virtioCarrier fn).1 = _
      unfold State.virtioCarrier
      rw [hs]
      split <;> rfl
  · rintro rfl hs
    show (s.virtioCarrier 0).1 = _
    simp [State.virtioCarrier, hs]
  · show execVirtioNotify fn q s = _
    simp [execVirtioNotify, he]
  · obtain ⟨mem, errors, queue, vectors, out⟩ := s.notified_frame fn q
    refine ⟨_, exec_virtioNotify_enabled hu hf hq he, ?_⟩
    show _ ∧ (Config.freeBit (s.virtioCarrier fn).2.free = false → _) ∧ (Config.freeBit (s.virtioCarrier fn).2.free = true → _)
    cases posted : Config.freeBit (s.virtioCarrier fn).2.free
    · exact ⟨mem, fun _ => ⟨errors, out⟩, nofun⟩
    · cases poisoned : Config.freeBit ((s.virtioCarrier fn).2.free + 1)
      · obtain ⟨u_mem, u_errors, taken, filled, moves, hm, u_out⟩ := (s.notified fn q).takeBuffer_used hf hq
        rw [out, vectors] at u_out
        exact ⟨u_mem.trans mem, nofun, fun _ => ⟨by rw [← queue]; exact taken, moves, hm, nofun, fun _ =>
          ⟨u_errors.trans errors, by rw [← queue]; exact filled, u_out⟩⟩⟩
      · obtain ⟨u_mem, taken, elp, ev, reads, hr, u_out⟩ := (s.notified fn q).takeBuffer_poisoned hf hq
        rw [out] at u_out
        rw [errors] at elp ev
        refine ⟨u_mem.trans mem, nofun, fun _ => ⟨by rw [← queue]; exact taken, reads, fun o ho => .inl (hr o ho), fun _ =>
          ⟨u_out, fun a bs h => ?_, elp, ev⟩, nofun⟩⟩
        obtain ⟨_, _, e⟩ := hr _ h
        cases e
  · cases hx : Config.freeBit s.free with
    | false => exact ⟨_, exec_hostRequest_hidden r hu hx, rfl, rfl, fun _ => ⟨rfl, rfl⟩, nofun⟩
    | true =>
      cases r with
      | read a len =>
        obtain ⟨u, run, mem, errors, io, register, bytes⟩ := exec_hostRequest_read a len hu hx
        refine ⟨u, run, mem, errors, nofun, fun _ => ⟨nofun, fun _ _ f e hf => ?_, fun _ _ e hf => ?_⟩⟩
        · cases e; exact ⟨io, register f hf⟩
        · cases e; exact ⟨io, bytes hf⟩
      | write a data =>
        obtain ⟨u, run, mem, errors, large, served⟩ := exec_hostRequest_write a data hu hx
        refine ⟨u, run, mem, errors, nofun, fun _ => ⟨fun _ _ e => ?_, nofun, nofun⟩⟩
        cases e
        exact ⟨large, served⟩

end Sys2Proof.Claims
end

section
/-! PROOFS of 01_device, what outlasts a write: the stage, the port modes, the context records and the status of each core stay as they are
while stores drain, units write memory, and threads park, wake and are stopped. -/

set_option Elab.async false

namespace Sys2Proof.Machine
open Sys2Proof.Laws

/-- The stage of the device with the positions still to be tested, whether the port modes are fixed, the context records, and of each core
its status and whether it has started. -/
structure Standing where
  stage : Stage
  retiredPos : List Nat
  modesFixed : Bool
  ctxs : List (Nat × BitVec 256)
  status : Nat → CoreStatus
  started : Nat → Bool

def State.standing (s : State) : Standing where
  stage := s.mgmt.stage
  retiredPos := s.mgmt.retiredPos
  modesFixed := s.io.modesFixed
  ctxs := s.io.ctxs
  status c := (s.core c).status
  started c := (s.core c).started

/-! ## The parts of the state -/

/-- A core may change in all but its status and its start. -/
theorem State.standing_modCore {s : State} {c : Nat} {f : Core → Core} (hs : (f (s.core c)).status = (s.core c).status)
    (ht : (f (s.core c)).started = (s.core c).started) : (s.modCore c f).standing = s.standing := by
  have status (c' : Nat) : ((s.modCore c f).core c').status = (s.core c').status := by
    rw [core_modCore]
    split
    · next e => rw [e, hs]
    · rfl
  have started (c' : Nat) : ((s.modCore c f).core c').started = (s.core c').started := by
    rw [core_modCore]
    split
    · next e => rw [e, ht]
    · rfl
  simp only [State.standing, status, started]
  rfl

theorem State.standing_modMgmt {s : State} {f : Mgmt → Mgmt} (hs : (f s.mgmt).stage = s.mgmt.stage)
    (hr : (f s.mgmt).retiredPos = s.mgmt.retiredPos) : (s.modMgmt f).standing = s.standing := by
  simp only [State.standing, State.modMgmt, hs, hr]
  rfl

theorem State.standing_modIo {s : State} {f : Io → Io} (hm : (f s.io).modesFixed = s.io.modesFixed) (hc : (f s.io).ctxs = s.io.ctxs) :
    (s.modIo f).standing = s.standing := by
  simp only [State.standing, State.modIo, hm, hc]
  rfl

@[simp] theorem State.standing_modSched (s : State) (f : Sched → Sched) : (s.modSched f).standing = s.standing := rfl
@[simp] theorem State.standing_modErrors (s : State) (f : Errors → Errors) : (s.modErrors f).standing = s.standing := rfl
@[simp] theorem State.standing_modSlot (s : State) (k : Nat) (f : Slot → Slot) : (s.modSlot k f).standing = s.standing := rfl
@[simp] theorem State.standing_emit (s : State) (o : Out) : (s.emit o).standing = s.standing := rfl
@[simp] theorem State.standing_freeBit (s : State) : s.freeBit.2.standing = s.standing := rfl
@[simp] theorem State.standing_logRaw (s : State) (r : LogRec) : (s.logRaw r).standing = s.standing := rfl
@[simp] theorem State.standing_pruneHolds (s : State) : s.pruneHolds.standing = s.standing := rfl
@[simp] theorem State.standing_placeWrite (s : State) (g : Nat) (o : Origin) : (s.placeWrite g o).standing = s.standing := rfl
@[simp] theorem State.standing_setSub (s : State) (u : Nat) (c : SubChannel) : (s.setSub u c).standing = s.standing := rfl

@[simp] theorem State.standing_modThread (s : State) (h : Hart) (f : Thread → Thread) : (s.modThread h f).standing = s.standing := by
  cases h with
  | user c t => exact State.standing_modCore rfl rfl
  | sup c l => exact State.standing_modCore rfl rfl
  | mgmt => exact State.standing_modMgmt (f := fun m => { m with thread := f m.thread }) rfl rfl

@[simp] theorem State.standing_setOrder (s : State) (h : Hart) (o : List StoreEnt) : (s.setOrder h o).standing = s.standing := by
  cases h with
  | user c t => exact State.standing_modCore rfl rfl
  | sup c l => exact State.standing_modCore rfl rfl
  | mgmt => exact State.standing_modMgmt rfl rfl

/-- A fold of steps leaves what each step leaves. -/
theorem State.standing_foldl {α : Type} {f : State → α → State} (hf : ∀ (s : State) a, (f s a).standing = s.standing) (l : List α)
    (s : State) : (l.foldl f s).standing = s.standing := by
  induction l generalizing s with
  | nil => rfl
  | cons a l ih => rw [List.foldl_cons, ih, hf]

/-! ## Requests -/

@[simp] theorem State.standing_cxlWrites (s : State) (bs : List (Nat × Byte × Byte)) (p : Bool) :
    (s.cxlWrites bs p).standing = s.standing :=
  State.standing_foldl (fun s _ => s.standing_emit _) _ s

@[simp] theorem State.standing_postRequest (s : State) (c : Nat) (r : Nat × Nat) (w : Bool) (m : List Nat) :
    (s.postRequest c r w m).standing = s.standing := by
  unfold State.postRequest
  dsimp only
  split <;> rfl

@[simp] theorem State.standing_flushOf (s : State) (h : Hart) : (s.flushOf h).standing = s.standing := by
  have sent (c : Nat) (bs : List (Nat × Byte × Bool)) (s : State) (r : Nat × Nat) : (s.sendWrite c r bs).standing = s.standing := by
    simp [State.sendWrite]
  unfold State.flushOf
  split
  · unfold State.flushStores
    dsimp only
    split
    · rfl
    · exact (State.standing_foldl (sent _ _) _ _).trans (State.standing_modCore rfl rfl)
  · rfl

@[simp] theorem State.standing_l2Fill (s : State) (pa n : Nat) : (s.l2Fill pa n).standing = s.standing := by
  refine State.standing_foldl (fun s g => ?_) _ s
  unfold State.l2Take
  dsimp only
  split
  · rfl
  · split <;> rfl

@[simp] theorem State.standing_l2Misses (s : State) (pa n : Nat) : (s.l2Misses pa n).2.standing = s.standing := by
  unfold State.l2Misses
  split <;> rfl

theorem State.standing_fetchBurst {s t : State} {r : Burst} (h : s.fetchBurst r = some t) : t.standing = s.standing := by
  unfold State.fetchBurst at h
  dsimp only at h
  split at h
  · cases h; simp
  · split at h
    · cases h
    · cases h; simp

/-- A request that waits is served without a change of what stands. -/
theorem State.standing_serveOne? {s t : State} {r : Burst} (h : s.serveOne? r = some t) : t.standing = s.standing := by
  have taken : ({ s with bursts := s.bursts.erase r } : State).standing = s.standing := rfl
  unfold State.serveOne? at h
  dsimp only at h
  split at h
  · cases h; rfl
  · split at h
    · cases h; rw [State.standing_l2Misses, taken]
    · split at h
      · cases h; rw [State.standing_setSub, State.standing_l2Misses, taken]
      · rw [State.standing_fetchBurst h, State.standing_l2Misses, taken]

theorem State.standing_serveBurst? {s t : State} {r : Burst} (h : s.serveBurst? r = some t) : t.standing = s.standing := by
  refine (State.standing_serveOne? h).trans (State.standing_foldl (fun s w => ?_) _ s)
  cases served : s.serveOne? w with
  | none => rfl
  | some v => exact State.standing_serveOne? served

@[simp] theorem State.standing_answerOldest (s : State) (r : Burst) : (s.answerOldest r).standing = s.standing := by
  unfold State.answerOldest
  split
  · next h => exact State.standing_serveBurst? h
  · cases h : (s.setSub (subChannel r.pa) (s.sub (subChannel r.pa)).retire).serveBurst? r with
    | none => rfl
    | some v => exact (State.standing_serveBurst? h).trans (s.standing_setSub _ _)

/-! ## Writes at home -/

@[simp] theorem State.standing_homeGranule (s : State) (key g : Nat) : (s.homeGranule key g).2.2.standing = s.standing := by
  unfold State.homeGranule
  split
  · rfl
  · split <;> rfl

@[simp] theorem State.standing_observeVerdict (s : State) (g : Nat) (bs : List (Nat × Byte × Byte)) (new : List Byte) :
    (s.observeVerdict g bs new).standing = s.standing := by
  unfold State.observeVerdict
  split
  · split <;> rfl
  · rfl

@[simp] theorem State.standing_observeClaim (s : State) (g : Nat) (old new : List Byte) (o : Origin) :
    (s.observeClaim g old new o).standing = s.standing := by
  unfold State.observeClaim
  dsimp only
  split
  · split
    · rfl
    · split
      · split
        · exact (State.standing_modCore rfl rfl).trans (s.standing_modSlot _ _)
        · rfl
      · rfl
      · rfl
  · rfl

@[simp] theorem State.standing_observeIridx (s : State) (g : Nat) (bs : List (Nat × Byte × Byte)) :
    (s.observeIridx g bs).standing = s.standing := by
  unfold State.observeIridx
  dsimp only
  split
  · exact State.standing_modIo rfl rfl
  · rfl

@[simp] theorem State.standing_homeWriteGranule (s : State) (key g : Nat) (bs : List (Nat × Byte × Byte)) (p : Bool) (o : Origin) :
    (s.homeWriteGranule key g bs p o).standing = s.standing := by
  have stored (t : State) (new : List Byte) (mark : Bool) : (t.granuleStored key g new mark).standing = t.standing := rfl
  unfold State.homeWriteGranule
  split
  · split <;> rfl
  · split
    · rfl
    · dsimp only
      rw [State.standing_observeIridx, State.standing_observeClaim, State.standing_observeVerdict]
      refine (stored _ _ _).trans ((State.standing_placeWrite _ _ _).trans ?_)
      split
      · rfl
      · exact s.standing_homeGranule key g

@[simp] theorem State.standing_putHome (s : State) (key : Nat) (bs : List (Nat × Byte × Byte)) (p : Bool) (o : Origin) :
    (s.putHome key bs p o).standing = s.standing :=
  State.standing_foldl (fun s g => s.standing_homeWriteGranule key g bs p o) _ s

/-! ## Stores that leave their queues -/

@[simp] theorem State.standing_goHomeNow (s : State) (h : Hart) (i : Nat) : (s.goHomeNow h i).standing = s.standing := by
  unfold State.goHomeNow
  split
  · rfl
  · split
    · dsimp only
      split
      · simp only [State.standing_pruneHolds, State.standing_putHome]
        split <;> simp
      · exact (State.standing_modMgmt rfl rfl).trans (by simp)
      · simp
    · rfl

@[simp] theorem State.standing_makeRoom (s : State) (h : Hart) : (s.makeRoom h).standing = s.standing := by
  unfold State.makeRoom
  split
  · rfl
  · split
    · simp
    · simp

@[simp] theorem State.standing_enterNow (s : State) (h : Hart) (e : StoreEnt) : (s.enterNow h e).standing = s.standing := by
  have room : (if e.space = .global then s.makeRoom h else s).standing = s.standing := by split <;> simp
  unfold State.enterNow
  split
  · exact State.standing_modCore rfl rfl
  · exact State.standing_modCore rfl rfl
  · unfold State.joinNow
    dsimp only
    split
    · exact (State.standing_modCore rfl rfl).trans room
    · exact (State.standing_modMgmt rfl rfl).trans room

@[simp] theorem State.standing_leaveNow (s : State) (h : Hart) : (s.leaveNow h).standing = s.standing := by
  unfold State.leaveNow
  split
  · rfl
  · simp

@[simp] theorem State.standing_homeFirst (s : State) (h : Hart) (p : StoreEnt → Bool) : (s.homeFirst h p).standing = s.standing := by
  unfold State.homeFirst
  split
  · rfl
  · split
    · simp
    · exact State.standing_foldl (fun s _ => s.standing_goHomeNow h 0) _ s

@[simp] theorem State.standing_settle (s : State) (ws : List Coming) : (s.settle ws).standing = s.standing := by
  have held (s : State) (p : ReadHold × Bool) : (s.settleHold p).standing = s.standing := by
    unfold State.settleHold
    dsimp only
    split
    · exact (State.standing_foldl (fun s _ => s.standing_homeFirst _ _) _ _).trans
        (State.standing_foldl (fun s _ => s.standing_leaveNow _) _ s)
    · exact State.standing_foldl (fun s _ => s.standing_leaveNow _) _ s
  unfold State.settle
  split
  · exact State.standing_foldl held _ s
  · rfl

@[simp] theorem State.standing_leaveAll (s : State) (h : Hart) : (s.leaveAll h).standing = s.standing := by
  refine State.standing_foldl (fun s _ => ?_) _ s
  unfold State.leaveFirst
  split <;> simp

/-- A unit's write of memory leaves what stands. -/
@[simp] theorem State.standing_pokeMem {w : Nat} (s : State) (pa n : Nat) (v : BitVec w) : (s.pokeMem pa n v).standing = s.standing := by
  unfold State.pokeMem
  split
  · simp [State.homeAccess, State.homeWrite]
  · rfl

/-! ## Threads that wake -/

theorem Core.foldl_modThread_standing (f : Thread → Thread) (l : List Nat) (k : Core) :
    (l.foldl (fun k l => k.modThread (supKey l) f) k).status = k.status ∧
    (l.foldl (fun k l => k.modThread (supKey l) f) k).started = k.started := by
  induction l generalizing k with
  | nil => exact ⟨rfl, rfl⟩
  | cons a l ih => exact ih _

@[simp] theorem State.standing_wake (s : State) (h : Hart) (f : Thread → Thread) : (s.wake h f).standing = s.standing := by
  have group (k : Core) : k.wakeGroup.status = k.status ∧ k.wakeGroup.started = k.started := by
    unfold Core.wakeGroup
    split
    · exact Core.foldl_modThread_standing _ _ k
    · exact ⟨rfl, rfl⟩
  unfold State.wake
  split
  · exact (State.standing_modCore (group _).1 (group _).2).trans (s.standing_modThread _ _)
  · exact s.standing_modThread _ _

@[simp] theorem State.standing_wakeOps (s : State) (c : Nat) : (s.wakeOps c).standing = s.standing := by
  refine State.standing_foldl (fun s p => ?_) _ s
  split
  · split <;> simp
  · rfl

/-- An item posted to a core's agent leaves the core's status. -/
@[simp] theorem State.standing_post (s : State) (c : Nat) (e : AgentEvent) : (s.modCore c (·.post e)).standing = s.standing := by
  have posted (k : Core) : (k.post e).status = k.status ∧ (k.post e).started = k.started := by
    have status := congrArg Core.status (wakeSup_rest k)
    have started := congrArg Core.started (wakeSup_rest k)
    unfold Core.post
    split
    · exact ⟨status, started⟩
    · exact ⟨rfl, rfl⟩
  exact State.standing_modCore (posted _).1 (posted _).2

end Sys2Proof.Machine
end

section
/-! PROOFS of 01_device, cores and control: what a kill, a retirement, a fresh start and the start of all
cores leave. -/

set_option Elab.async false

namespace Sys2Proof.Machine
open Sys2Proof.Laws

/-! ## What the standing of a device tells -/

theorem State.stage_of_standing {s : State} {d : Standing} (h : s.standing = d) : s.mgmt.stage = d.stage := congrArg Standing.stage h

theorem State.ctxs_of_standing {s u : State} (h : u.standing = s.standing) : u.io.ctxs = s.io.ctxs := congrArg Standing.ctxs h

theorem State.status_of_standing {s : State} {d : Standing} (h : s.standing = d) (c : Nat) : (s.core c).status = d.status c :=
  congrFun (congrArg Standing.status h) c

theorem State.started_of_standing {s : State} {d : Standing} (h : s.standing = d) (c : Nat) : (s.core c).started = d.started c :=
  congrFun (congrArg Standing.started h) c

/-! ## Grants and records -/

theorem mget_mem {α : Type} (d : α) (m : List (Nat × α)) (k : Nat) : mget d m k = d ∨ (k, mget d m k) ∈ m := by
  induction m with
  | nil => exact .inl rfl
  | cons p m ih =>
    obtain ⟨k', v⟩ := p
    rw [mget]
    split
    · next e => exact .inr (by simp [e])
    · exact ih.imp_right (List.mem_cons_of_mem _)

/-- A slot after one is changed. -/
theorem State.slot_modSlot (s : State) (k k' : Nat) (f : Slot → Slot) : (s.modSlot k f).slot k' = if k' = k then f (s.slot k) else s.slot k' := by
  simp [State.modSlot, State.setSlot, State.modSched, State.slot]

@[simp] theorem State.standing_unbindErrors (s : State) (k : Nat) : (s.unbindErrors k).standing = s.standing := by
  unfold State.unbindErrors
  dsimp only
  split
  · rfl
  · rw [State.standing_modSched, State.standing_modSlot]

@[simp] theorem State.standing_actOnRecord (s : State) (k : Nat) : (s.actOnRecord k).standing = s.standing := by
  unfold State.actOnRecord
  dsimp only
  split
  · rfl
  · split
    · split
      · rw [State.standing_modSlot]
      · rfl
    · split
      · rw [State.standing_modSlot, State.standing_unbindErrors]
      · rfl

@[simp] theorem State.standing_endGrant (s : State) (k : Nat) : (s.endGrant k).standing = s.standing := by
  unfold State.endGrant
  rw [State.standing_actOnRecord]
  exact State.standing_modIo rfl rfl

@[simp] theorem State.standing_recordBarred (s : State) (x : Nat) : (s.recordBarred x).standing = s.standing := by
  refine State.standing_foldl (fun s k => ?_) _ s
  dsimp only
  split
  · split
    · split
      · exact s.standing_pokeMem _ _ _
      · rfl
    · rfl
  · rfl

/-! ## A kill (R402) -/

@[simp] theorem State.standing_killQueue (s : State) (q : Nat) (code : BitVec 8) : (s.killQueue q code).standing = s.standing := by
  have ended (t : State) (d c n : Nat) : (QD.setError (QD.setStatus t d true 0) d c n).standing = t.standing := by
    simp [QD.setError, QD.setStatus]
  have advanced (b : Bool) (f : KeyStore → KeyStore) : (if b then s.modKeys f else s).standing = s.standing := by
    cases b <;> rfl
  unfold State.killQueue
  split
  · rfl
  · extract_lets running finished saving advance s1 seq s2 s3
    have closed : s3.standing = s.standing := by rw [State.standing_modSched, ended, advanced]
    clear_value running finished s3
    split
    · rfl
    · rcases running with _ | ⟨k, g⟩
      · exact closed
      · dsimp only
        split
        · rw [State.standing_endGrant, closed]
        · rw [State.standing_modSlot, closed]

/-- The standing of a device but for its context records. -/
def Standing.sansCtxs (d : Standing) : Standing := { d with ctxs := [] }

/-- The kill of context 0 is only logged (R401). -/
theorem State.killContext_zero (s : State) (code : BitVec 8) (v : BitVec 64) : s.killContext 0 code v = s.logRaw { ev := 0x04 } :=
  if_pos rfl

/-- Any other kill leaves what the barring of its context leaves, and names the context in CTXK. -/
theorem State.killContext_standing (s : State) {x : Nat} (code : BitVec 8) (v : BitVec 64) (hx : x ≠ 0) :
    (s.killContext x code v).standing = (s.bar x).standing ∧ (s.killContext x code v).mgmt.ctxkId = BitVec.ofNat 16 x := by
  unfold State.killContext
  rw [if_neg hx]
  refine ⟨?_, rfl⟩
  rw [State.standing_logRaw]
  refine (State.standing_modMgmt rfl rfl).trans ((State.standing_foldl (fun s q => s.standing_killQueue q code) _ _).trans
    ((State.standing_modIo rfl rfl).trans (State.standing_foldl (fun s c => ?_) _ _)))
  split
  · split
    · rw [State.standing_wakeOps]
      exact State.standing_modCore rfl rfl
    · rfl
  · rfl

/-- Barring a context changes its record alone, in which it is then barred. -/
theorem State.bar_standing (s : State) (x : Nat) :
    (s.bar x).standing.sansCtxs = s.standing.sansCtxs ∧ (x ≠ 0 → CtxF.barred ((s.bar x).ctxRec x) = true) := by
  unfold State.bar
  split
  · next h => exact ⟨rfl, fun _ => h⟩
  · have standing := ((s.setCtxRec x (bput (s.ctxRec x) 107 1 1)).emit (.barNotice (BitVec.ofNat 16 x))).standing_recordBarred x
    refine ⟨(congrArg Standing.sansCtxs standing).trans rfl, fun hx => ?_⟩
    have ctxs := State.ctxs_of_standing standing
    generalize hr : bput (s.ctxRec x) 107 1 1 = r at *
    have marked : r.getLsbD 107 = true := by
      rw [← hr, getLsbD_bput, if_pos (by decide)]
      decide
    rw [CtxF.barred, State.ctxRec, if_neg hx, ctxs]
    simp [State.setCtxRec, State.modIo, marked]

@[simp] theorem State.sansCtxs_killContext (s : State) (x : Nat) (code : BitVec 8) (v : BitVec 64) :
    (s.killContext x code v).standing.sansCtxs = s.standing.sansCtxs := by
  by_cases hx : x = 0
  · subst hx
    rw [State.killContext_zero, State.standing_logRaw]
  · rw [(s.killContext_standing code v hx).1, (s.bar_standing x).1]

/-! ## A core that is retired (R399) -/

/-- A retired core is retired; the rest of what stands stays, but for the contexts that are killed. -/
theorem State.retireCore_standing (s : State) (c : Nat) : (s.retireCore c).standing.sansCtxs =
    { s.standing.sansCtxs with status := fun c' => if c' = c then .retired else (s.core c').status } := by
  unfold State.retireCore
  split
  · next h =>
    have same : (fun c' => if c' = c then .retired else (s.core c').status) = fun c' => (s.core c').status := by
      funext c'
      split
      · next e => rw [e, h]
      · rfl
    rw [same]
    rfl
  · have killed (t : State) (code : BitVec 8) : (t.killResident c code).standing.sansCtxs = t.standing.sansCtxs := by
      unfold State.killResident
      split
      · exact t.sansCtxs_killContext _ _ _
      · rfl
    have logged (t : State) (r r' : LogRec) : ((t.logRaw r).logRaw r').standing.sansCtxs = t.standing.sansCtxs := rfl
    dsimp only [State.logClass3]
    rw [logged, killed]
    have started (c' : Nat) : ((s.haltCore c .retired).core c').started = (s.core c').started := by
      rw [State.haltCore, core_modCore]
      split
      · next e => subst e; cases (s.core c').wg <;> rfl
      · rfl
    have status (c' : Nat) : ((s.haltCore c .retired).core c').status = if c' = c then .retired else (s.core c').status := by
      rw [State.haltCore, core_modCore]
      split <;> rfl
    simp only [State.standing, Standing.sansCtxs, started, status]
    rfl

/-! ## A core that is released (R272, R402) -/

/-- What holds before a core is released, and is kept by each thing that its release does, holds after it. -/
theorem State.releaseCore_keeps {P : State → Prop} {s : State} (c : Nat) (start : P s)
    (freed : ∀ u : State, P u → P (((u.modCore c (fun k =>
      { k with wg := none, claims := k.claims.filter (960 ≤ ·) })).dropFetches (Hart.userOf c)).dropPeers (Hart.userOf c)))
    (ended : ∀ (u : State) k, P u → P (u.endGrant k))
    (held : ∀ (u : State) k g, P u → P (u.modSlot k (fun sl => { sl with grant := some g })))
    (over_ : ∀ u : State, P u → P (u.modMgmt (fun m => { m with ctxkGo := false }))) : P (s.releaseCore c) := by
  unfold State.releaseCore
  split
  · exact start
  · extract_lets s1 s2 s3 busy
    have left : P s2 := freed s start
    have granted : P s3 := by
      simp only [s3]
      split
      · split
        · exact ended _ _ left
        · exact held _ _ _ left
      · exact left
    split
    · exact over_ _ granted
    · exact granted

@[simp] theorem State.standing_releaseCore (s : State) (c : Nat) : (s.releaseCore c).standing = s.standing := by
  refine State.releaseCore_keeps (P := fun u => u.standing = s.standing) c rfl (fun u hu => ?_) (fun u k hu => ?_) (fun u k g hu => hu)
    (fun u hu => hu)
  · exact (State.standing_modIo rfl rfl).trans ((State.standing_modIo rfl rfl).trans ((State.standing_modCore rfl rfl).trans hu))
  · exact (u.standing_endGrant k).trans hu

/-- No bind record of the device is valid. -/
def State.noRecords (s : State) : Prop := ∀ k, BR.v (s.slot k).bindRec = false

/-- No store of a core's threads is queued. -/
def Core.storesLeft (k : Core) : Prop := ∀ t ∈ k.threads, t.2.storeQ = []

theorem State.noRecords.of_slots {s u : State} (h : s.noRecords) (e : u.sched.slots = s.sched.slots) : u.noRecords := by
  intro k
  rw [State.slot, e]
  exact h k

theorem State.noRecords.modSlot {s : State} (h : s.noRecords) (k : Nat) {f : Slot → Slot}
    (hf : ∀ sl, BR.v sl.bindRec = false → BR.v (f sl).bindRec = false) : (s.modSlot k f).noRecords := by
  intro k'
  rw [State.slot_modSlot]
  split
  · exact hf _ (h k)
  · exact h k'

/-- A slot that acts on its record makes none valid. -/
theorem State.noRecords.actOnRecord {s : State} (h : s.noRecords) (k : Nat) : (s.actOnRecord k).noRecords := by
  have unbound : (s.unbindErrors k).noRecords := by
    unfold State.unbindErrors
    dsimp only
    split
    · exact h
    · refine (h.modSlot k (f := fun sl => { sl with qerrHeld := [] }) ?_).of_slots rfl
      exact fun _ hv => hv
  unfold State.actOnRecord
  dsimp only
  split
  · exact h
  · split
    · split
      · refine h.modSlot k ?_
        exact fun _ hv => hv
      · exact h
    · split
      · refine unbound.modSlot k (fun sl _ => ?_)
        rw [BR.v, getLsbD_bput, if_pos (by decide)]
        rfl
      · exact h

theorem State.noRecords.dropRefusal {s : State} (h : s.noRecords) (k : Nat) : (s.dropRefusal k).noRecords := h

theorem State.noRecords.endGrant {s : State} (h : s.noRecords) (k : Nat) : (s.endGrant k).noRecords := by
  unfold State.endGrant
  refine ((h.modSlot k ?_).dropRefusal k).actOnRecord k
  exact fun _ hv => hv

theorem State.modSlot_frame (s : State) (k : Nat) (f : Slot → Slot) : (s.modSlot k f).mem = s.mem ∧ (s.modSlot k f).cores = s.cores :=
  ⟨rfl, rfl⟩

theorem State.unbindErrors_frame (s : State) (k : Nat) : (s.unbindErrors k).mem = s.mem ∧ (s.unbindErrors k).cores = s.cores := by
  unfold State.unbindErrors
  dsimp only
  split
  · exact ⟨rfl, rfl⟩
  · rw [State.modSched_mem, State.modSched_cores]
    exact s.modSlot_frame k _

theorem State.actOnRecord_frame (s : State) (k : Nat) : (s.actOnRecord k).mem = s.mem ∧ (s.actOnRecord k).cores = s.cores := by
  unfold State.actOnRecord
  dsimp only
  split
  · exact ⟨rfl, rfl⟩
  · split
    · split
      · exact s.modSlot_frame k _
      · exact ⟨rfl, rfl⟩
    · split
      · rw [((s.unbindErrors k).modSlot_frame k _).1, ((s.unbindErrors k).modSlot_frame k _).2]
        exact s.unbindErrors_frame k
      · exact ⟨rfl, rfl⟩

/-- A grant that ends leaves memory and the cores. -/
theorem State.endGrant_frame (s : State) (k : Nat) : (s.endGrant k).mem = s.mem ∧ (s.endGrant k).cores = s.cores := by
  unfold State.endGrant
  rw [(State.actOnRecord_frame _ k).1, (State.actOnRecord_frame _ k).2, State.dropRefusal, State.modIo_mem, State.modIo_cores]
  exact s.modSlot_frame k _

@[simp] theorem State.core_dropFetches (s : State) (p : Hart → Bool) (c : Nat) : (s.dropFetches p).core c = s.core c := rfl
@[simp] theorem State.core_dropPeers (s : State) (p : Hart → Bool) (c : Nat) : (s.dropPeers p).core c = s.core c := rfl
@[simp] theorem State.core_dropDrainsOf (s : State) (c c' : Nat) : (s.dropDrainsOf c).core c' = s.core c' := rfl

/-- A core that is released keeps its threads, and memory and the other cores' threads stay. -/
theorem State.releaseCore_frame (s : State) (c : Nat) :
    (s.releaseCore c).mem = s.mem ∧ (∀ c', ((s.releaseCore c).core c').threads = (s.core c').threads) ∧
    (s.noRecords → (s.releaseCore c).noRecords) := by
  refine State.releaseCore_keeps
    (P := fun u => u.mem = s.mem ∧ (∀ c', (u.core c').threads = (s.core c').threads) ∧ (s.noRecords → u.noRecords)) c
    ⟨rfl, fun _ => rfl, id⟩ (fun u hu => ?_) (fun u k hu => ?_) (fun u k g hu => ?_) (fun u hu => hu)
  · obtain ⟨mem, threads, records⟩ := hu
    refine ⟨mem, fun c' => ?_, records⟩
    rw [← threads c', State.core_dropPeers, State.core_dropFetches, core_modCore]
    split
    · next e => rw [e]
    · rfl
  · obtain ⟨mem, threads, records⟩ := hu
    obtain ⟨ended_mem, ended_cores⟩ := u.endGrant_frame k
    refine ⟨ended_mem.trans mem, fun c' => ?_, fun h => (records h).endGrant k⟩
    rw [State.core, ended_cores]
    exact threads c'
  · obtain ⟨mem, threads, records⟩ := hu
    refine ⟨mem, threads, fun h => (records h).modSlot k ?_⟩
    exact fun _ hv => hv

/-! ## A core that starts afresh (R400) -/

/-- Where no store of a core's threads is queued, ending the threads changes no store. -/
theorem State.endThreads_of_empty {s : State} {c : Nat} (h : (s.core c).storesLeft) : ∃ hs, s.endThreads c = { s with holds := hs } := by
  have empty (t : Nat) : ((s.core c).thread t).storeQ = [] := by
    rcases mget_mem ({} : Thread) (s.core c).threads t with e | m
    · rw [Core.thread, e]
    · exact h _ m
  have stays (l : List Nat) : l.foldl (fun s t => s.leaveAll (hartOf c t)) s = s := by
    induction l with
    | nil => rfl
    | cons t l ih =>
      have queue : (s.thread (hartOf c t)).storeQ = [] := by
        unfold hartOf
        split
        · exact empty t
        · exact empty _
      rw [List.foldl_cons, State.leaveAll, queue]
      exact ih
  exact ⟨_, by rw [State.endThreads, stays]⟩

/-- A core that starts afresh has no threads and is at its firmware's entry, with the stores that are on their way; the others are as the
release of its workgroup and the end of its threads leave them. -/
theorem State.freshCore_core (s : State) (c c' : Nat) : ∃ k n, (s.freshCore c).core c' =
    if c' = c then Core.carry k { startedCore with since := n } else ((s.releaseCore c).endThreads c).core c' := by
  refine ⟨((s.releaseCore c).endThreads c).core c, ((s.releaseCore c).endThreads c).instant, ?_⟩
  unfold State.freshCore
  generalize (s.releaseCore c).endThreads c = t
  dsimp only
  rw [State.core_dropDrainsOf, core_setCore]
  rfl

/-- The fresh start itself changes nothing of memory, the management core, the scheduler, the port modes and the contexts. -/
theorem State.freshCore_frame (s : State) (c : Nat) :
    (s.freshCore c).mem = ((s.releaseCore c).endThreads c).mem ∧ (s.freshCore c).mgmt = ((s.releaseCore c).endThreads c).mgmt ∧
    (s.freshCore c).sched = ((s.releaseCore c).endThreads c).sched ∧
    (s.freshCore c).io.modesFixed = ((s.releaseCore c).endThreads c).io.modesFixed ∧
    (s.freshCore c).io.ctxs = ((s.releaseCore c).endThreads c).io.ctxs := by
  unfold State.freshCore
  generalize (s.releaseCore c).endThreads c = t
  simp [State.dropDrainsOf, State.dropPeers, State.dropFetches]

theorem State.freshCore_standing (s : State) (c : Nat) : (s.freshCore c).standing = { s.standing with
    status := fun c' => if c' = c then .running else (s.core c').status
    started := fun c' => if c' = c then true else (s.core c').started } := by
  have kept : ((s.releaseCore c).endThreads c).standing = s.standing :=
    Eq.trans (State.standing_foldl (fun s t => s.standing_leaveAll (hartOf c t)) _ (s.releaseCore c)) (s.standing_releaseCore c)
  have status (c' : Nat) : ((s.freshCore c).core c').status = if c' = c then .running else (s.core c').status := by
    obtain ⟨k, n, e⟩ := s.freshCore_core c c'
    rw [e]
    split
    · rfl
    · exact State.status_of_standing kept c'
  have started (c' : Nat) : ((s.freshCore c).core c').started = if c' = c then true else (s.core c').started := by
    obtain ⟨k, n, e⟩ := s.freshCore_core c c'
    rw [e]
    split
    · rfl
    · exact State.started_of_standing kept c'
  obtain ⟨-, mgmt, -, modes, ctxs⟩ := s.freshCore_frame c
  generalize (s.releaseCore c).endThreads c = t at *
  simp only [State.standing, mgmt, modes, ctxs, status, started]
  simp only [State.standing, Standing.mk.injEq] at kept
  obtain ⟨stage, positions, fixed, records, -, -⟩ := kept
  rw [stage, positions, fixed, records]

/-- With no store queued in its threads, a core starts afresh with memory as it is. -/
theorem State.freshCore_mem {s : State} {c : Nat} (h : (s.core c).storesLeft) : (s.freshCore c).mem = s.mem := by
  obtain ⟨mem, threads, -⟩ := s.releaseCore_frame c
  have left : ((s.releaseCore c).core c).storesLeft := by
    rw [Core.storesLeft, threads c]
    exact h
  obtain ⟨hs, ended⟩ := State.endThreads_of_empty left
  rw [(s.freshCore_frame c).1, ended]
  exact mem

/-- No store of any core's threads is queued, and no bind record is valid. -/
structure State.Idle (s : State) : Prop where
  stores : ∀ c, (s.core c).storesLeft
  records : s.noRecords

/-- An idle device stays idle, with its memory, when a core starts afresh. -/
theorem State.Idle.freshCore {s : State} (h : s.Idle) (c : Nat) : (s.freshCore c).Idle ∧ (s.freshCore c).mem = s.mem := by
  obtain ⟨-, threads, records⟩ := s.releaseCore_frame c
  have left (c' : Nat) : ((s.releaseCore c).core c').storesLeft := by
    rw [Core.storesLeft, threads c']
    exact h.stores c'
  obtain ⟨hs, ended⟩ := State.endThreads_of_empty (left c)
  refine ⟨⟨fun c' => ?_, ?_⟩, State.freshCore_mem (h.stores c)⟩
  · obtain ⟨k, n, e⟩ := s.freshCore_core c c'
    rw [e, ended]
    split
    · intro t ht
      cases ht
    · exact left c'
  · obtain ⟨-, -, sched, -, -⟩ := s.freshCore_frame c
    rw [ended] at sched
    exact (records h.records).of_slots (congrArg Sched.slots sched)

/-! ## The stages (R421, R422, R399) -/

/-- What the Summer stage does to one core. -/
def State.startCore (s : State) (c : Nat) : State :=
  if (s.core c).status = .retired || ((s.core c).started && (s.core c).status = .running) then s else s.freshCore c

theorem State.startCores_eq (s : State) : s.startCores = allCores.foldl State.startCore s := rfl

/-- The standing in which the cores of a list that are not retired run. -/
def State.withStarted (s : State) (l : List Nat) : Standing := { s.standing with
  status := fun c => if c ∈ l ∧ (s.core c).status ≠ .retired then .running else (s.core c).status
  started := fun c => if c ∈ l ∧ (s.core c).status ≠ .retired then true else (s.core c).started }

theorem State.startCore_standing (s : State) (c : Nat) : (s.startCore c).standing = s.withStarted [c] := by
  unfold State.startCore State.withStarted
  split
  · next h =>
    simp only [Bool.or_eq_true, Bool.and_eq_true, decide_eq_true_eq] at h
    simp only [State.standing, Standing.mk.injEq, true_and]
    have runs {c' : Nat} (r : c' ∈ [c] ∧ (s.core c').status ≠ .retired) : (s.core c').started = true ∧ (s.core c').status = .running := by
      obtain ⟨m, r⟩ := r
      cases List.mem_singleton.mp m
      exact h.resolve_left r
    constructor
    · funext c'
      split
      · next r => exact (runs r).2
      · rfl
    · funext c'
      split
      · next r => exact (runs r).1
      · rfl
  · next h =>
    simp only [Bool.or_eq_true, not_or, decide_eq_true_eq] at h
    rw [State.freshCore_standing]
    simp only [Standing.mk.injEq, true_and]
    constructor <;> funext c' <;> by_cases e : c' = c <;> simp [e, h.1]

/-- Each core of a list that is not retired runs once they have started; the rest of what stands stays. -/
theorem State.foldl_startCore_standing (l : List Nat) (s : State) : (l.foldl State.startCore s).standing = s.withStarted l := by
  induction l generalizing s with
  | nil => simp [State.withStarted, State.standing]
  | cons c l ih =>
    have first := s.startCore_standing c
    have status := State.status_of_standing first
    have started := State.started_of_standing first
    rw [List.foldl_cons, ih, State.withStarted, first]
    simp only [State.withStarted, Standing.mk.injEq, true_and]
    constructor <;> funext c'
    · rw [status c']
      by_cases e : c' = c
      · subst e
        by_cases r : (s.core c').status = .retired <;> simp [State.withStarted, r]
      · simp [State.withStarted, e]
    · rw [status c', started c']
      by_cases e : c' = c
      · subst e
        by_cases r : (s.core c').status = .retired <;> simp [State.withStarted, r]
      · simp [State.withStarted, e]

theorem State.Idle.foldl_startCore {s : State} (h : s.Idle) (l : List Nat) :
    (l.foldl State.startCore s).Idle ∧ (l.foldl State.startCore s).mem = s.mem := by
  induction l generalizing s with
  | nil => exact ⟨h, rfl⟩
  | cons c l ih =>
    have one : (s.startCore c).Idle ∧ (s.startCore c).mem = s.mem := by
      unfold State.startCore
      split
      · exact ⟨h, rfl⟩
      · exact h.freshCore c
    obtain ⟨idle, mem⟩ := ih one.1
    exact ⟨idle, mem.trans one.2⟩

/-- With no valid record none takes effect. -/
theorem State.noRecords.takeRecords {s : State} (h : s.noRecords) : s.takeRecords = s := by
  have each (k : Nat) : (let t := s.takeRecord k; if t.slotPending k then t.stampSlot k else t) = s := by
    have taken : s.takeRecord k = s := by
      unfold State.takeRecord
      simp [h k]
    simp [taken, State.slotPending, h k]
  have all (l : List Nat) : l.foldl (fun s k => let t := s.takeRecord k; if t.slotPending k then t.stampSlot k else t) s = s := by
    induction l with
    | nil => rfl
    | cons k l ih => rw [List.foldl_cons, each, ih]
  exact all allSlots

@[simp] theorem State.standing_takeRecords (s : State) : s.takeRecords.standing = s.standing := by
  have posted (s : State) (k : Nat) (x : BitVec 16) : (s.deferQueueError k x).standing = s.standing := by
    unfold State.deferQueueError State.postQueueError
    split
    · rw [State.standing_modSlot]
    · rw [State.standing_post, State.standing_modSlot]
  have queued (s : State) (k : Nat) : (s.postQueueErrors k).standing = s.standing := by
    unfold State.postQueueErrors
    dsimp only
    rw [State.standing_foldl (fun s _ => posted s k _), State.standing_modSched]
  have taken (s : State) (k : Nat) : (s.takeRecord k).standing = s.standing := by
    unfold State.takeRecord
    dsimp only
    split
    · rfl
    · rw [State.standing_actOnRecord, queued]
      split
      · split
        · rw [State.standing_recordBarred, State.standing_modSched]
        · rw [State.standing_modSched]
      · rw [State.standing_modSched]
  refine State.standing_foldl (fun s k => ?_) _ s
  dsimp only
  split
  · rw [State.stampSlot, State.standing_modSched, State.standing_modSlot, taken]
  · exact taken s k

end Sys2Proof.Machine
end

section
/-! PROOFS of 01_device, control events: the test of retired positions, each event of the statement, and O44. -/

set_option Elab.async false

namespace Sys2Proof.Machine
open Sys2Proof.Laws

/-! ## The advance from Winter (R399, R421) -/

/-- An event without a place, of a kind that is classified at once, changes the log alone. -/
@[simp] theorem State.standing_logEvent (s : State) (code : BitVec 8) (v : BitVec 64) : (s.logEvent 0x01 code v).standing = s.standing := by
  have kept (t : State) : (t.actLasting { kind := 15, core := 0, index := 0 }).2 = t := rfl
  unfold State.logEvent State.logAt
  simp only [State.logClass3]
  split
  · split
    · rfl
    · rw [State.standing_modErrors, State.standing_logRaw]
      split
      · rw [kept, State.standing_logRaw]
      · rfl
  · rfl

/-- What the Spring stage does to one position found retired. -/
def State.retestCore (s : State) (c : Nat) : State :=
  if s.freeBit.1 then s.freeBit.2 else (s.freeBit.2.logEvent 0x01 Cause.selftestFail.code (BitVec.ofNat 64 c)).retireCore c

theorem State.retestCores_eq (s : State) :
    s.retestCores = s.mgmt.retiredPos.foldl State.retestCore (s.modMgmt (fun m => { m with retiredPos := [] })) := rfl

/-- The test of the positions in a list keeps the stage, the positions still to be tested and the port modes, and the status of every
other core. -/
theorem State.foldl_retestCore_standing (l : List Nat) (s : State) :
    (l.foldl State.retestCore s).mgmt.stage = s.mgmt.stage ∧ (l.foldl State.retestCore s).mgmt.retiredPos = s.mgmt.retiredPos ∧
    (l.foldl State.retestCore s).io.modesFixed = s.io.modesFixed ∧
    ∀ c, c ∉ l → ((l.foldl State.retestCore s).core c).status = (s.core c).status := by
  induction l generalizing s with
  | nil => exact ⟨rfl, rfl, rfl, fun _ _ => rfl⟩
  | cons c l ih =>
    have one : ∃ st : Nat → CoreStatus, (s.retestCore c).standing.sansCtxs = { s.standing.sansCtxs with status := st } ∧
        ∀ c', c' ≠ c → st c' = (s.core c').status := by
      unfold State.retestCore
      split
      · exact ⟨_, rfl, fun _ _ => rfl⟩
      · generalize hv : s.freeBit.2.logEvent 0x01 Cause.selftestFail.code (BitVec.ofNat 64 c) = v
        have same : v.standing = s.standing := by rw [← hv, State.standing_logEvent, State.standing_freeBit]
        refine ⟨_, (v.retireCore_standing c).trans (by rw [same]), fun c' hc => ?_⟩
        rw [if_neg hc]
        exact State.status_of_standing same c'
    obtain ⟨st, standing, others⟩ := one
    obtain ⟨stage, positions, modes, status⟩ := ih (s.retestCore c)
    rw [List.foldl_cons]
    refine ⟨stage.trans (congrArg Standing.stage standing), positions.trans (congrArg Standing.retiredPos standing),
      modes.trans (congrArg Standing.modesFixed standing), fun c' hc => ?_⟩
    obtain ⟨ne, rest⟩ := not_or.mp (mt List.mem_cons.mpr hc)
    exact (status c' rest).trans ((congrFun (congrArg Standing.status standing) c').trans (others c' ne))

/-- The message of the virtio-net function leaves what stands, and memory. -/
theorem State.hostMsix_frame (s : State) (fn vector : Nat) :
    (s.hostMsix fn vector).standing = s.standing ∧ (s.hostMsix fn vector).mem = s.mem := by
  unfold State.hostMsix
  split
  · exact ⟨rfl, rfl⟩
  · exact ⟨rfl, rfl⟩

/-! ## The events -/

theorem State.storesLeft_of_cores {s : State} (h : ∀ p ∈ s.cores, ∀ t ∈ p.2.threads, t.2.storeQ = []) (c : Nat) : (s.core c).storesLeft := by
  intro t ht
  rcases mget_mem ({} : Core) s.cores c with e | m
  · rw [State.core, e] at ht
    cases ht
  · exact h _ m t ht

/-- A stopped core is restarted as Table 22-8 leaves it. -/
theorem exec_coreRestart_stopped {s : State} {c : Nat} (h : (s.core c).status = .stopped) :
    ∃ u, exec (.coreRestart c) s = .next u ∧ (u.core c).status = .running ∧ (u.core c).started = true ∧
      (u.core c).supPc = supEntryPc ∧ (u.core c).threads = [] ∧ (u.core c).sp = [] ∧ (u.core c).tasks = [] ∧
      ((s.core c).storesLeft → u.mem = s.mem) := by
  have run : exec (.coreRestart c) s = .next (s.freshCore c) := by
    show execCoreRestart c s = _
    rw [execCoreRestart, State.restartCore, if_pos h]
  obtain ⟨k, n, fresh⟩ := s.freshCore_core c c
  rw [if_pos rfl] at fresh
  refine ⟨_, run, ?_⟩
  rw [fresh]
  exact ⟨rfl, rfl, rfl, rfl, rfl, rfl, State.freshCore_mem⟩

/-- A running core without a workgroup is retired, which is logged with its classification. -/
theorem exec_coreRetire_running {s : State} {c : Nat} (h : (s.core c).status = .running) (hw : (s.core c).wg = none) :
    ∃ u, exec (.coreRetire c) s = .next u ∧ (u.core c).status = .retired ∧ u.errors.elp = s.errors.elp + 2 ∧ u.mem = s.mem := by
  have run : exec (.coreRetire c) s = .next (s.retireCore c) := rfl
  have alone : ((s.haltCore c .retired).core c).wg = none := by
    simp [State.haltCore, hw]
  have retired : s.retireCore c = ((s.haltCore c .retired).logRaw
      { ev := 0x01, code := Cause.coreRetired.code, value := BitVec.ofNat 64 c }).logClass3 s.errors.elp.toNat
        { ev := 0x01, code := Cause.coreRetired.code, value := BitVec.ofNat 64 c } 0 := by
    rw [State.retireCore, if_neg (by rw [h]; decide)]
    simp only [State.killResident, alone]
    rfl
  have status := congrFun (congrArg Standing.status (s.retireCore_standing c)) c
  refine ⟨_, run, status.trans (if_pos rfl), ?_, ?_⟩
  · rw [retired, State.logClass3, State.logRaw_elp, State.logRaw_elp, BitVec.add_assoc]
    rfl
  · rw [retired]
    rfl

/-- A context other than 0 that is killed is barred, and CTXK names it. -/
theorem exec_contextKill_barred {s : State} {x : BitVec 16} {code : BitVec 8} (hg : s.mgmt.ctxkGo = false) (hc : assignedCode code = true)
    (hx : x ≠ 0) : ∃ u, exec (.contextKill x code) s = .next u ∧ CtxF.barred (u.ctxRec x.toNat) = true ∧ u.mgmt.ctxkId = x := by
  have run : exec (.contextKill x code) s = .next (s.killContext x.toNat code 0) := by
    show execContextKill x code s = _
    simp [execContextKill, hg, hc]
  have user : x.toNat ≠ 0 := fun e => hx (BitVec.eq_of_toNat_eq e)
  obtain ⟨standing, named⟩ := s.killContext_standing code 0 user
  have barred := (s.bar_standing x.toNat).2 user
  refine ⟨_, run, ?_, by simpa using named⟩
  rwa [State.ctxRec, State.ctxs_of_standing standing]

/-- From Winter: the port modes are fixed, and the positions found retired are tested. -/
theorem exec_stageAdvance_winter {s : State} (ha : s.mayAdvance = true) (hs : s.mgmt.stage = .winter) :
    ∃ u, exec .stageAdvance s = .next u ∧ u.mgmt.stage = .spring ∧ u.io.modesFixed = true ∧ u.mgmt.retiredPos = [] ∧
      (∀ c, c ∉ s.mgmt.retiredPos → (u.core c).status = (s.core c).status) ∧
      (s.mgmt.retiredPos = [] → u.mem = s.mem ∧ u.cores = s.cores ∧ u.errors = s.errors) := by
  generalize hv : ((s.modMgmt (fun m => { m with stage := .spring })).modIo (fun io => { io with modesFixed := true })).modMgmt
    (fun m => { m with retiredPos := [] }) = v
  have run : exec .stageAdvance s = .next (s.mgmt.retiredPos.foldl State.retestCore v) := by
    show execStageAdvance s = _
    subst hv
    simp [execStageAdvance, State.advanceStage, ha, hs, State.retestCores_eq]
  obtain ⟨stage, positions, modes, status⟩ := State.foldl_retestCore_standing s.mgmt.retiredPos v
  refine ⟨_, run, ?_⟩
  subst hv
  refine ⟨stage, modes, positions, status, fun none_retired => ?_⟩
  simp [none_retired]

/-- The advance from Spring. -/
theorem exec_stageAdvance_of_spring {s : State} (ha : s.mayAdvance = true) (hs : s.mgmt.stage = .spring) : exec .stageAdvance s =
    .next ((allCores.foldl State.startCore (s.modMgmt (fun m => { m with stage := .summer }))).takeRecords.hostMsix 1 2) := by
  show execStageAdvance s = _
  rw [execStageAdvance, State.advanceStage, if_pos ha, hs, ← State.startCores_eq]

/-- From Spring: every core that is not retired runs. -/
theorem exec_stageAdvance_spring {s : State} (ha : s.mayAdvance = true) (hs : s.mgmt.stage = .spring) :
    ∃ u, exec .stageAdvance s = .next u ∧ u.mgmt.stage = .summer ∧ (s.Idle → u.mem = s.mem) ∧
      ∀ c, c < 256 → (s.core c).status ≠ .retired → (u.core c).started = true ∧ (u.core c).status = .running := by
  refine ⟨_, exec_stageAdvance_of_spring ha hs, ?_⟩
  generalize hv : s.modMgmt (fun m => { m with stage := .summer }) = v
  have stands : ((allCores.foldl State.startCore v).takeRecords.hostMsix 1 2).standing = v.withStarted allCores := by
    rw [(State.hostMsix_frame _ 1 2).1, State.standing_takeRecords, State.foldl_startCore_standing]
  refine ⟨?_, fun idle => ?_, fun c hc alive => ?_⟩
  · rw [State.stage_of_standing stands, ← hv]
    rfl
  · have idle_v : v.Idle := by
      rw [← hv]
      exact ⟨idle.stores, idle.records⟩
    obtain ⟨started, same⟩ := idle_v.foldl_startCore allCores
    rw [(State.hostMsix_frame _ 1 2).2, started.records.takeRecords, same, ← hv, State.modMgmt_mem]
  · have runs : c ∈ allCores ∧ (v.core c).status ≠ .retired := by
      rw [← hv]
      exact ⟨List.mem_range.mpr hc, alive⟩
    rw [State.started_of_standing stands, State.status_of_standing stands]
    exact ⟨if_pos runs, if_pos runs⟩

/-- A core that is retired is among the positions that a device reset finds. -/
theorem State.mem_retiredNow {s : State} {c : Nat} (h : (s.core c).status = .retired) : c ∈ s.retiredNow := by
  rcases mget_mem ({} : Core) s.cores c with e | m
  · rw [State.core, e] at h
    cases h
  · refine List.mem_append_left _ (List.mem_map.mpr ⟨_, List.mem_filter.mpr ⟨m, ?_⟩, rfl⟩)
    exact beq_iff_eq.mpr h

/-- With the port free a message is stamped with the module's ID and taken. -/
theorem exec_msctlSend_free {s : State} (h : s.io.msBusy = false) :
    ∃ u, exec .msctlSend s = .next u ∧ u.io.msBusy = true ∧ ∃ m, u.io.messages = s.io.messages ++ [m] ∧
      bget m.bits 64 8 = s.io.modId.toNat ∧ m.fromMgmt = true ∧
      m.code = (if s.io.msendPoison.any (·.2) = true then some Cause.poisonUse.code else none) := by
  have run : exec .msctlSend s = .next s.sendMgmt := rfl
  refine ⟨_, run, ?_⟩
  rw [State.sendMgmt, if_neg (by simp [h])]
  refine ⟨rfl, _, rfl, ?_, rfl, rfl⟩
  simp (disch := decide) only [bputs, bget_bput_apart, bget_bput_same]
  exact Nat.mod_eq_of_lt s.io.modId.isLt

end Sys2Proof.Machine

namespace Sys2Proof.Claims
open Sys2Proof.Machine

/-- Settles O44: cores restart and retire, contexts are killed, the stages advance, and the device is reset, as the statement says. -/
theorem controlEventsHappen : Obligations.ControlEventsHappen := by
  unfold Obligations.ControlEventsHappen
  refine fun s => ⟨fun c h _ => exec_coreRestart_stopped h, fun c h hw => exec_coreRetire_running h hw, fun c h => ⟨?_, ?_⟩,
    fun x code => ⟨fun hg => ?_, fun hg hc hx => ?_, exec_contextKill_barred⟩, exec_stageAdvance_winter, fun ha hs => ?_, fun ha => ?_,
    ⟨_, rfl, rfl, rfl, rfl, fun c h => State.mem_retiredNow h, rfl, rfl, rfl, rfl⟩, exec_msctlSend_free⟩
  · show execCoreRetire c s = _
    rw [execCoreRetire, State.retireCore, if_pos h]
  · show execCoreRestart c s = _
    rw [execCoreRestart, State.restartCore, if_neg (by rw [h]; decide)]
  · show execContextKill x code s = _
    simp [execContextKill, hg]
  · have run : exec (.contextKill x code) s = .next (s.logRaw { ev := 0x04 }) := by
      show execContextKill x code s = _
      simp [execContextKill, hg, hc, hx, State.killContext_zero]
    exact ⟨_, run, rfl, rfl, rfl⟩
  · obtain ⟨u, run, stage, mem, cores⟩ := exec_stageAdvance_spring ha hs
    exact ⟨u, run, stage, fun stores records => mem ⟨State.storesLeft_of_cores stores, records⟩, cores⟩
  · show execStageAdvance s = _
    simp [execStageAdvance, State.advanceStage, ha]

end Sys2Proof.Claims
end

section
/-! PROOFS of 04_number_formats, tables: when two writes of a key come to the last of them in a table of any form, and two changes of a
thread to the last of them in any state. -/

set_option Elab.async false

namespace Sys2Proof.Machine
open Sys2Proof.Laws

/-! ## Tables that list no default at a key -/

theorem mem_of_mem_mins {α : Type} {p : Nat × α} {k : Nat} {v : α} {m : List (Nat × α)} (h : p ∈ mins m k v) : p = (k, v) ∨ p ∈ m := by
  induction m with
  | nil => exact .inl (List.mem_singleton.mp h)
  | cons q m ih =>
    simp only [mins] at h
    split at h
    · simpa using h
    · split at h
      · exact (List.mem_cons.mp h).imp id (List.mem_cons_of_mem q)
      · rcases List.mem_cons.mp h with rfl | h
        · exact .inr List.mem_cons_self
        · exact (ih h).imp id (List.mem_cons_of_mem q)

theorem mdel_eq_filter {α : Type} (m : List (Nat × α)) (k : Nat) : mdel m k = m.filter (fun p => p.1 ≠ k) := by
  induction m with
  | nil => rfl
  | cons q m ih => by_cases h : q.1 = k <;> simp [mdel, h, ih]

theorem mdel_of_unlisted {α : Type} {m : List (Nat × α)} {k : Nat} (h : ∀ p ∈ m, p.1 ≠ k) : mdel m k = m := by
  rw [mdel_eq_filter, List.filter_eq_self]
  simpa using h

theorem mdel_mins {α : Type} (m : List (Nat × α)) (k : Nat) (v : α) : mdel (mins m k v) k = mdel m k := by
  induction m with
  | nil => simp [mins, mdel]
  | cons q m ih =>
    simp only [mins]
    split
    · simp [mdel]
    · split
      · next h => simp [mdel, h]
      · next h => simp [mdel, h, ih]

theorem mins_mins {α : Type} (m : List (Nat × α)) (k : Nat) (u v : α) : mins (mins m k u) k v = mins m k v := by
  induction m with
  | nil => simp [mins]
  | cons q m ih =>
    by_cases lt : k < q.1
    · simp [mins, lt]
    · by_cases eq : q.1 = k
      · simp [mins, eq]
      · simp [mins, lt, eq, ih]

/-- Of two writes of a key the last counts, where the first writes no default over an entry. -/
theorem mset_mset {α : Type} [DecidableEq α] {d : α} {m : List (Nat × α)} {k : Nat} {u : α} (v : α)
    (h : u = d → ∀ p ∈ m, p.1 ≠ k) : mset d (mset d m k u) k v = mset d m k v := by
  by_cases hu : u = d
  · simp only [mset, hu, if_true, mdel_of_unlisted (h hu)]
  · simp only [mset, if_neg hu, mdel_mins, mins_mins]

/-- What the canonical form of a table says of one key: where the table reads as the default it has no entry. -/
def Sparse {α : Type} (d : α) (m : List (Nat × α)) (k : Nat) : Prop := mget d m k = d → ∀ p ∈ m, p.1 ≠ k

theorem sparse_mset_self {α : Type} [DecidableEq α] (d : α) (m : List (Nat × α)) (k : Nat) (v : α) : Sparse d (mset d m k v) k := by
  intro hv p hp
  rw [mget_mset, if_pos rfl] at hv
  rw [mset, if_pos hv, mdel_eq_filter] at hp
  simpa using (List.mem_filter.mp hp).2

theorem Sparse.mset {α : Type} [DecidableEq α] {d : α} {m : List (Nat × α)} {k : Nat} (h : Sparse d m k) (j : Nat) (v : α) :
    Sparse d (mset d m j v) k := by
  by_cases hj : k = j
  · exact hj ▸ sparse_mset_self d m k v
  · intro hg p hp
    rw [mget_mset, if_neg hj] at hg
    rw [Machine.mset] at hp
    split at hp
    · rw [mdel_eq_filter] at hp
      exact h hg p (List.mem_filter.mp hp).1
    · rcases mem_of_mem_mins hp with rfl | hp
      · exact Ne.symm hj
      · exact h hg p hp

/-! ## Two changes of a thread -/

/-- No table lists core `c` or its thread `t` where it reads as the default. -/
structure State.SparseAt (s : State) (c t : Nat) : Prop where
  core : Sparse {} s.cores c
  thread : Sparse {} (s.core c).threads t

theorem State.sparseAt_modThread (s : State) (c t : Nat) (f : Thread → Thread) : (s.modThread (.user c t) f).SparseAt c t := by
  refine ⟨sparse_mset_self _ _ _ _, ?_⟩
  simp only [State.modThread, State.setThread, core_modCore, if_true]
  exact sparse_mset_self _ _ _ _

/-- A core may change in all but its threads. -/
theorem State.SparseAt.modCore {s : State} {c t : Nat} (h : s.SparseAt c t) {c' : Nat} {f : Core → Core}
    (hf : (f (s.core c')).threads = (s.core c').threads) : (s.modCore c' f).SparseAt c t := by
  refine ⟨h.core.mset _ _, ?_⟩
  rw [core_modCore]
  split
  · next e => rw [hf, ← e]; exact h.thread
  · exact h.thread

theorem State.SparseAt.of_cores {s u : State} {c t : Nat} (h : s.SparseAt c t) (hc : u.cores = s.cores) : u.SparseAt c t :=
  ⟨hc ▸ h.core, by rw [State.core, hc]; exact h.thread⟩

theorem State.setCore_setCore {s : State} {c : Nat} {k : Core} (k' : Core) (h : k = {} → ∀ p ∈ s.cores, p.1 ≠ c) :
    (s.setCore c k).setCore c k' = s.setCore c k' := by
  simp only [State.setCore, mset_mset k' h]

theorem Core.setThread_setThread {k : Core} {t : Nat} (v : Thread) (h : Sparse {} k.threads t) :
    (k.setThread t (k.thread t)).setThread t v = k.setThread t v :=
  congrArg (fun m => { k with threads := m }) (mset_mset v h)

/-- A core that is the default with one of its threads written again is the default. -/
theorem Core.default_of_setThread {k : Core} {t : Nat} (h : Sparse {} k.threads t) (e : k.setThread t (k.thread t) = {}) : k = {} := by
  have unlisted : k.thread t = {} :=
    calc k.thread t = (k.setThread t (k.thread t)).thread t := by simp
      _ = {} := by rw [e]; rfl
  rwa [Core.setThread, unlisted, Machine.mset, if_pos rfl, mdel_of_unlisted (h unlisted)] at e

/-- A change that leaves a thread as it is goes unseen under the next. -/
theorem State.modThread_unchanged {s : State} {c t : Nat} (h : s.SparseAt c t) (f : Thread → Thread) :
    (s.modThread (.user c t) (fun th => th)).modThread (.user c t) f = s.modThread (.user c t) f := by
  have unlisted (e : (s.core c).setThread t ((s.core c).thread t) = {}) : ∀ p ∈ s.cores, p.1 ≠ c :=
    h.core (Core.default_of_setThread h.thread e)
  simp only [State.modThread, State.setThread, State.thread, core_modCore, if_true, thread_setThread]
  rw [State.modCore, core_modCore, if_pos rfl, Core.setThread_setThread _ h.thread]
  exact State.setCore_setCore _ unlisted

end Sys2Proof.Machine
end

section
/-! PROOFS of 04_number_formats, atomics at home: what the requests and the read of an atomic leave, that its write has no store to wait for,
and what its write leaves of the cores' tables. -/

set_option Elab.async false

namespace Sys2Proof.Machine
open Sys2Proof.Laws Sys2Proof.Claims

/-! ## Requests and reads leave the cores (R226, R259, R262) -/

/-- What no request and no read at a home slice changes: the cores, the management core, and the loads that lie beneath stores. -/
def State.coreSide (s : State) : List (Nat × Core) × Mgmt × List ReadHold := (s.cores, s.mgmt, s.holds)

@[simp] theorem State.coreSide_emit (s : State) (o : Out) : (s.emit o).coreSide = s.coreSide := rfl

theorem State.coreSide_foldl {α : Type} {f : State → α → State} (hf : ∀ (s : State) a, (f s a).coreSide = s.coreSide) (l : List α) (s : State) :
    (l.foldl f s).coreSide = s.coreSide := by
  induction l generalizing s with
  | nil => rfl
  | cons a l ih => rw [List.foldl_cons, ih, hf]

@[simp] theorem State.coreSide_cxlWrites (s : State) (bs : List (Nat × Byte × Byte)) (p : Bool) : (s.cxlWrites bs p).coreSide = s.coreSide :=
  State.coreSide_foldl (fun s _ => s.coreSide_emit _) _ s

@[simp] theorem State.coreSide_cxlReads (s : State) (pa n : Nat) : (s.cxlReads pa n).coreSide = s.coreSide := by
  unfold State.cxlReads
  split
  · exact State.coreSide_foldl (fun s _ => s.coreSide_emit _) _ s
  · rfl

@[simp] theorem State.coreSide_postRequest (s : State) (c : Nat) (r : Nat × Nat) (w : Bool) (m : List Nat) :
    (s.postRequest c r w m).coreSide = s.coreSide := by
  unfold State.postRequest
  dsimp only
  split <;> rfl

@[simp] theorem State.coreSide_noteAtomic (s : State) (h : Hart) (p : Place) : (s.noteAtomic h p).coreSide = s.coreSide := by
  unfold State.noteAtomic
  split
  · unfold State.sendRead
    dsimp only
    split <;> simp
  · exact s.coreSide_cxlReads _ _
  · rfl

@[simp] theorem State.coreSide_homeGranule (s : State) (key g : Nat) : (s.homeGranule key g).2.2.coreSide = s.coreSide := by
  unfold State.homeGranule
  split
  · rfl
  · split <;> rfl

@[simp] theorem State.coreSide_homeRead_dev (s : State) (h : Hart) (pa key n : Nat) : (s.homeRead h (.dev pa) key n).2.2.coreSide = s.coreSide :=
  s.coreSide_homeGranule key _

/-! ## An atomic's write has no store to wait for (R195; log 107) -/

/-- `u` has the pending stores of `s` and the loads that lie beneath them. -/
structure State.SamePending (s u : State) : Prop where
  holds : u.holds = s.holds
  queue : ∀ h, (u.thread h).storeQ = (s.thread h).storeQ
  order : ∀ h, u.order h = s.order h

theorem State.SamePending.trans {s t u : State} (a : s.SamePending t) (b : t.SamePending u) : s.SamePending u :=
  ⟨b.holds.trans a.holds, fun h => (b.queue h).trans (a.queue h), fun h => (b.order h).trans (a.order h)⟩

theorem State.samePending_of_coreSide {s u : State} (e : u.coreSide = s.coreSide) : s.SamePending u := by
  obtain ⟨cores, mgmt, holds⟩ : u.cores = s.cores ∧ u.mgmt = s.mgmt ∧ u.holds = s.holds := by simpa [State.coreSide] using e
  exact ⟨holds, fun h => by rw [State.thread_of_cores cores mgmt], fun h => by cases h <;> simp [State.order, State.core, cores, mgmt]⟩

theorem State.samePending_modThread (s : State) (c t : Nat) {f : Thread → Thread} (hf : ∀ th, (f th).storeQ = th.storeQ) :
    s.SamePending (s.modThread (.user c t) f) := by
  have queue (c' t' : Nat) : (((s.modThread (.user c t) f).core c').thread t').storeQ = ((s.core c').thread t').storeQ := by
    simp only [State.modThread, State.setThread, State.thread, core_modCore]
    split
    · next e =>
      subst e
      rw [thread_setThread]
      split
      · next e => rw [hf, e]
      · rfl
    · rfl
  have order (c' : Nat) : ((s.modThread (.user c t) f).core c').coreOrder = (s.core c').coreOrder := by
    simp only [State.modThread, State.setThread, core_modCore]
    split
    · next e => rw [e]; rfl
    · rfl
  refine ⟨rfl, fun h => ?_, fun h => ?_⟩
  · cases h with
    | user c' t' => exact queue c' t'
    | sup c' l => exact queue c' (supKey l)
    | mgmt => rfl
  · cases h with
    | user c' t' => exact order c'
    | sup c' l => exact order c'
    | mgmt => rfl

theorem State.SamePending.meetsHold {s u : State} (q : s.SamePending u) (w : Coming) : u.meetsHold w = s.meetsHold w := by
  simp only [State.meetsHold, State.joinMeets, State.homeMeets, State.heldQueue, State.heldOrder, q.holds, q.queue, q.order]

/-- A write that comes between no load and its stores as it joins a core order and reaches home does not as it reaches home alone. -/
theorem State.meetsHold_home {s : State} {y : Observer} {tid : Nat} {bs : List Nat}
    (h : s.meetsHold { who := y, tid, bytes := bs, joins := true } = false) : s.meetsHold { who := y, bytes := bs } = false := by
  simp only [State.meetsHold, List.any_eq_false, Bool.or_eq_true, not_or] at h ⊢
  exact fun r hr => ⟨by simp [State.joinMeets], (h r hr).2⟩

theorem natBytes_length (n v : Nat) : (natBytes n v).length = n := by
  induction n generalizing v with
  | zero => rfl
  | succ n ih => simp [natBytes, ih]

theorem addrBytes_addresses (a : Nat) (bs : List Byte) : (addrBytes a bs).map (·.1) = (List.range bs.length).map (a + ·) := by
  induction bs generalizing a with
  | nil => rfl
  | cons b bs ih =>
    rw [addrBytes, List.map_cons, ih, List.length_cons, List.range_succ_eq_map, List.map_cons, List.map_map]
    simp [Function.comp_def, Nat.add_assoc, Nat.add_comm 1]

/-- An atomic whose write comes between no load and the stores over it writes its granules at once. -/
theorem State.homeAccess_of_atomicWaits {s u : State} {h : Hart} {pa key : Nat} {bs : List Byte} {p : Bool} {o : Origin}
    (q : s.SamePending u) (hw : s.atomicWaits h (.dev pa) bs.length = false) (ho : o.who = h.observer) :
    u.homeAccess key (fullBytes pa bs) p o = (u.cxlWrites (fullBytes pa bs) p).putHome key (fullBytes pa bs) p o := by
  have addresses : (fullBytes pa bs).map (·.1) = (List.range bs.length).map (pa + ·) := by
    rw [fullBytes, List.map_map, ← addrBytes_addresses]
    rfl
  have clear : (u.cxlWrites (fullBytes pa bs) p).meetsHold { who := o.who, bytes := (fullBytes pa bs).map (·.1) } = false := by
    rw [(q.trans (State.samePending_of_coreSide (u.coreSide_cxlWrites _ _))).meetsHold, addresses, ho]
    exact State.meetsHold_home hw
  rw [State.homeAccess, State.homeWrite, State.settle_none _ _ (by simpa using clear)]

/-! ## A write at home leaves the tables of the cores sparse -/

theorem State.SparseAt.of_coreSide {s u : State} {c t : Nat} (h : s.SparseAt c t) (e : u.coreSide = s.coreSide) : u.SparseAt c t :=
  h.of_cores (congrArg Prod.fst e)

theorem State.SparseAt.observeVerdict {s : State} {c t : Nat} (h : s.SparseAt c t) (g : Nat) (bs : List (Nat × Byte × Byte))
    (new : List Byte) : (s.observeVerdict g bs new).SparseAt c t := by
  refine h.of_coreSide ?_
  unfold State.observeVerdict
  split
  · split <;> rfl
  · rfl

theorem State.SparseAt.observeClaim {s : State} {c t : Nat} (h : s.SparseAt c t) (g : Nat) (old new : List Byte) (o : Origin) :
    (s.observeClaim g old new o).SparseAt c t := by
  unfold State.observeClaim
  dsimp only
  split
  · split
    · exact h
    · split
      · split
        · refine State.SparseAt.modCore (h.of_coreSide ?_) ?_ <;> rfl
        · exact h
      · exact h.of_coreSide rfl
      · exact h
  · exact h

theorem State.SparseAt.observeIridx {s : State} {c t : Nat} (h : s.SparseAt c t) (g : Nat) (bs : List (Nat × Byte × Byte)) :
    (s.observeIridx g bs).SparseAt c t := by
  refine h.of_coreSide ?_
  unfold State.observeIridx
  dsimp only
  split <;> rfl

theorem State.SparseAt.homeWriteGranule {s : State} {c t : Nat} (h : s.SparseAt c t) (key g : Nat) (bs : List (Nat × Byte × Byte))
    (p : Bool) (o : Origin) : (s.homeWriteGranule key g bs p o).SparseAt c t := by
  unfold State.homeWriteGranule
  split
  · split
    · exact h.of_coreSide rfl
    · exact h
  · split
    · exact h
    · dsimp only
      refine .observeIridx (.observeClaim (.observeVerdict ?_ _ _ _) _ _ _ _) _ _
      split
      · exact h.of_coreSide rfl
      · exact h.of_coreSide (s.coreSide_homeGranule key g)

theorem State.SparseAt.putHome {s : State} {c t : Nat} (h : s.SparseAt c t) (key : Nat) (bs : List (Nat × Byte × Byte)) (p : Bool)
    (o : Origin) : (s.putHome key bs p o).SparseAt c t := by
  unfold State.putHome
  generalize entGranules bs = gs
  induction gs generalizing s with
  | nil => exact h
  | cons g gs ih => exact ih (h.homeWriteGranule key g bs p o)

end Sys2Proof.Machine
end

section
/-! PROOFS of 04_number_formats, atomics: ATOM, CAS and RED, issued, act at the home of their granule, and a RED.sc.fadd with its cell. -/

set_option Elab.async false

namespace Sys2Proof.Machine
open Sys2Proof.Laws Sys2Proof.Claims

/-! ## The checks of an access that writes -/

theorem clean_any {ps : List (Bool × Nat)} (h : Clean ps) : ps.any (·.1) = false :=
  List.any_eq_false.mpr (fun x hx => by rw [h x hx]; decide)

theorem clean_append {ps qs : List (Bool × Nat)} (hp : Clean ps) (hq : Clean qs) : Clean (ps ++ qs) :=
  fun x hx => (List.mem_append.mp hx).elim (hp x) (hq x)

theorem clean_singleton {b : Bool} (n : Nat) (h : b = false) : Clean [(b, n)] := fun x hx => by rw [List.mem_singleton.mp hx, h]

/-- An atomic access that meets no condition ends as it performs. -/
theorem State.issueAccess_atomic {s s1 : State} {h : Hart} {a : Access} {ps : List (Bool × Nat)} {p : Place} {key : Nat}
    (ha : a.kind.need = .atomic) (hl : s.lockHit h a.addr a.size true = false)
    (hc : s.checkAccess h .atomic a.addr a.size false false ps = (.at p key, s1)) {t : State} {g : Thread → Thread}
    (hp : s1.perform h a p key = .done t g) : s.issueAccess h a false ps = .ok (t.modThread h g) := by
  unfold State.issueAccess
  cases e : a.kind with
  | load sx sc | store | waitv => rw [e] at ha; cases ha
  | atom opc u | cas x | red opc u | redSc => simp [AccKind.need, hl, hc, hp]

/-! ## A read-modify-write at its place (R212, R245–R247) -/

/-- The state after the write of a read-modify-write, before its thread gets the old value. -/
def rmwWritten (s1 : State) (h : Hart) (r : Rmw) (p : Place) (key : Nat) : State :=
  let q := (s1.noteAtomic h p).homeRead h p key (szBytes r.m.sz)
  let s2 := q.2.2.modThread h (fun th => { th with mv := q.2.2.learnAt h p r.acquire th.mv })
  match r.new (bytesVal q.1) with
  | some v => s2.homeStore h p key (natBytes (szBytes r.m.sz) v.toNat) (!r.ordered && q.2.1) (r.release (s1.thread h))
  | none => s2

theorem rmwDone_eq (s1 : State) (h : Hart) (r : Rmw) (p : Place) (key : Nat) :
    let q := (s1.noteAtomic h p).homeRead h p key (szBytes r.m.sz)
    rmwDone s1 h r p key = (rmwWritten s1 h r p key).modThread h (fun th => r.put th (bytesVal q.1) q.2.1) := rfl

/-- The access of a read-modify-write as its instruction forms it. -/
def rmwAccess (r : Rmw) (s : State) (h : Hart) (kind : AccKind) : Access :=
  { kind, addr := s.addrOf h r.f, size := szBytes r.m.sz, data := s.opData h r.f.c (szBytes r.m.sz), dpoison := false
    acq := ordAcq r.m.ord, rel := ordRel r.m.ord, scope := r.m.scope, dst := r.f.dest }

/-- The same access as it is performed: a RED is relaxed. -/
def rmwPerformed (r : Rmw) (s : State) (h : Hart) (kind : AccKind) : Access :=
  { rmwAccess r s h kind with acq := r.ordered && ordAcq r.m.ord, rel := r.ordered && ordRel r.m.ord }

/-- Once what it must read has taken effect and its core has a request free, an access performed as a read-modify-write acts at the home
of its granule. -/
theorem State.performRmw_ready {s : State} {h : Hart} {r : Rmw} {a : Access} {p : Place} (key : Nat) (hn : a.size = szBytes r.m.sz)
    (hacq : a.acquire = r.acquire)
    (hrel : (if a.rel then some a.scope else none) = if r.ordered && ordRel r.m.ord then some r.m.scope else none)
    (hr : s.atomReady h p (relScope (s.thread h) (if r.ordered && ordRel r.m.ord then some r.m.scope else none)) = true)
    (hw : s.atomicWaits h p (szBytes r.m.sz) = false) (hq : s.requestWaits h p = false) :
    let q := (s.noteAtomic h p).homeRead h p key (szBytes r.m.sz)
    s.performRmw h a p key (!r.ordered) r.new r.put = .done (rmwWritten s h r p key) (fun th => r.put th (bytesVal q.1) q.2.1) := by
  have release : r.release (s.thread h) = if !r.ordered then none
      else relScope (s.thread h) (if r.ordered && ordRel r.m.ord then some r.m.scope else none) := by
    unfold Rmw.release
    cases r.ordered <;> rfl
  simp only [rmwWritten, release, ← hacq, ← hrel, ← hn] at hr hw ⊢
  exact if_pos (by rw [hr, hw, hq]; rfl)

/-! ## The instruction -/

/-- An instruction of class 101 that passes its checks acts where its access is performed as a read-modify-write. -/
theorem laneSync_rmw {s s1 : State} {h : Hart} {r : Rmw} {kind : AccKind} {extra : List (Bool × Nat)} {p : Place} {key : Nat}
    (hn : Named s h (addrUses r.f ++ [(r.f.c, dataW (szBytes r.m.sz))] ++ r.uses)) (ha : AddrOk s h r.f (szBytes r.m.sz) true)
    (hc : s.opPoison h r.f.c (dataW (szBytes r.m.sz)) = false) (hx : Clean extra)
    (hpl : s.place h .atomic (s.addrOf h r.f).toNat = (.at p key, s1))
    (hr : s1.atomReady h p (relScope (s1.thread h) (if r.ordered && ordRel r.m.ord then some r.m.scope else none)) = true)
    (hw : s1.atomicWaits h p (szBytes r.m.sz) = false) (hq : s1.requestWaits h p = false)
    (hk : kind.need = .atomic)
    (hf : s1.perform h (rmwAccess r s h kind) p key = s1.performRmw h (rmwPerformed r s h kind) p key (!r.ordered) r.new r.put) :
    laneSync r.f r.m kind r.uses extra h s = .ok (rmwDone s1 h r p key) := by
  obtain ⟨aligned, range, lock, clean⟩ := ha
  have fields := clean_append (clean_append clean (clean_singleton 2 hc)) hx
  have named : opCheck s h _ = none := hn
  simp only [laneSync, guardOps, named, clean_any clean]
  exact State.issueAccess_atomic (a := rmwAccess r s h kind) hk lock (State.checkAccess_at aligned range fields hpl)
    (hf.trans (State.performRmw_ready key rfl rfl rfl hr hw hq))

theorem exec_of_lane {i : Instr} {l : Hart → State → Res} {s t : State} {h : Hart} (ht : Turn s h) (he : exec i s = issue 0 .all i l s)
    (hl : l h s = .ok t) : exec i s = .next (done h i s t) := by
  rw [he, issue_single s h i l ht, hl]
  rfl

/-- ATOM, CAS and RED of OPC 0–5 that pass their checks act at the home of their granule and go on. -/
theorem exec_rmw {s s1 : State} {h : Hart} {i : Instr} {r : Rmw} {p : Place} {key : Nat} (ht : Turn s h) (hi : rmwForm s h i = some r)
    (hn : Named s h (addrUses r.f ++ [(r.f.c, dataW (szBytes r.m.sz))] ++ r.uses)) (ha : AddrOk s h r.f (szBytes r.m.sz) true)
    (hc : s.opPoison h r.f.c (dataW (szBytes r.m.sz)) = false) (hd : r.dPoison = false)
    (hpl : s.place h .atomic (s.addrOf h r.f).toNat = (.at p key, s1))
    (hr : s1.atomReady h p (relScope (s1.thread h) (if r.ordered && ordRel r.m.ord then some r.m.scope else none)) = true)
    (hw : s1.atomicWaits h p (szBytes r.m.sz) = false) (hq : s1.requestWaits h p = false) :
    exec i s = .next (done h i s (rmwDone s1 h r p key)) := by
  have noMore : Clean [] := fun _ hx => absurd hx List.not_mem_nil
  unfold rmwForm at hi
  split at hi
  · next f m =>
    cases hi
    exact exec_of_lane ht rfl (laneSync_rmw (kind := .atom m.opc m.u) hn ha hc noMore hpl hr hw hq rfl rfl)
  · next f m =>
    cases hi
    exact exec_of_lane ht rfl (laneSync_rmw (kind := .cas (s.opData h (.reg f.fields.d) (szBytes m.sz))) hn ha hc
      (clean_singleton 3 hd) hpl hr hw hq rfl rfl)
  · next f m =>
    split at hi
    · cases hi
    · next sc =>
      cases hi
      have lane : laneRed f.fields m h s = laneSync f.fields m (.red m.opc m.u) [] [] h s := by rw [laneRed, if_neg sc]
      exact exec_of_lane ht rfl (lane.trans (laneSync_rmw (kind := .red m.opc m.u) hn ha hc noMore hpl hr hw hq rfl rfl))
  · cases hi

/-! ## RED.sc.fadd (R98–R100, R247) -/

/-- RED.sc.fadd as a read-modify-write of its cell. -/
def cellRmw (f : Fields) (m : SyncMod) (x : Word) : Rmw where
  f
  m := { m with sz := .z16 }
  uses := []
  dPoison := false
  new old := some (cellAdd old x)
  put th _ _ := th
  ordered := false

/-- The access of a RED.sc.fadd. -/
def cellAccess (s : State) (h : Hart) (f : Fields) : Access :=
  { kind := .redSc, addr := s.addrOf h f, size := 16, data := (s.opFloat h .f32 f.c).setWidth 128, dpoison := false, acq := false
    rel := false, scope := .core, dst := ⟨0, true⟩ }

theorem State.perform_cell (s s1 : State) (h : Hart) (f : Fields) (m : SyncMod) (p : Place) (key : Nat) :
    let r := cellRmw f m (s.opFloat h .f32 f.c)
    s1.perform h (cellAccess s h f) p key = s1.performRmw h (cellAccess s h f) p key (!r.ordered) r.new r.put := by
  have addend : ((s.opFloat h .f32 f.c).setWidth 128).setWidth 32 = s.opFloat h .f32 f.c := by simp
  simp only [State.perform, cellAccess, addend]
  rfl

/-- A finite addend that passes its checks is added to the cell. -/
theorem laneRed_finite {s s1 : State} {h : Hart} {f : Fields} {m : SyncMod} {p : Place} {key : Nat} (hm : m.sc = true)
    (hn : Named s h (addrUses f ++ [(f.c, .w32)])) (ha : AddrOk s h f 16 true) (hc : s.opPoison h f.c .w32 = false)
    (hpl : s.place h .atomic (s.addrOf h f).toNat = (.at p key, s1))
    (hx : ∃ a b c, fF32.decode (s.opFloat h .f32 f.c).toNat = .fin a b c) (hr : s1.atomReady h p (relScope (s1.thread h) none) = true)
    (hw : s1.atomicWaits h p 16 = false) (hq : s1.requestWaits h p = false) :
    laneRed f m h s = .ok (rmwDone s1 h (cellRmw f m (s.opFloat h .f32 f.c)) p key) := by
  obtain ⟨aligned, range, lock, clean⟩ := ha
  obtain ⟨a, b, c, finite⟩ := hx
  have fields := clean_append clean (clean_singleton 2 hc)
  have named : opCheck s h _ = none := hn
  have performed := State.performRmw_ready (r := cellRmw f m (s.opFloat h .f32 f.c)) (a := cellAccess s h f) key rfl rfl rfl hr hw hq
  rw [← s.perform_cell s1 h f m p key] at performed
  rw [rmwDone_eq, ← State.issueAccess_atomic (a := cellAccess s h f) rfl lock (State.checkAccess_at aligned range fields hpl) performed]
  simp only [laneRed, hm, if_true, guardOps, named, clean_any clean, finite]
  rfl

/-- A NaN or an infinity that passes its checks raises IV, and nothing is added. -/
theorem laneRed_notFinite {s s1 : State} {h : Hart} {f : Fields} {m : SyncMod} {p : Place} {key : Nat} (hm : m.sc = true)
    (hn : Named s h (addrUses f ++ [(f.c, .w32)])) (ha : AddrOk s h f 16 true) (hc : s.opPoison h f.c .w32 = false)
    (hpl : s.place h .atomic (s.addrOf h f).toNat = (.at p key, s1))
    (hx : ∀ a b c, fF32.decode (s.opFloat h .f32 f.c).toNat ≠ .fin a b c) : laneRed f m h s = .ok (s1.raise h flIV) := by
  obtain ⟨aligned, range, lock, clean⟩ := ha
  have fields := clean_append clean (clean_singleton 2 hc)
  have named : opCheck s h _ = none := hn
  have checked := State.checkAccess_at aligned range fields hpl
  simp only [laneRed, hm, if_true, guardOps, named, clean_any clean, lock, checked]

/-! ## The thread of a RED stays as it is

The model writes back the thread of a RED unchanged, a write that the statement leaves out. In a table that is not in canonical form two
writes of a key may differ from one; here they do not, since the read at home has just written the thread's entry and the write at home
keeps it sparse. -/

theorem State.place_user_dev {s s1 : State} {c t : Nat} {need : AccNeed} {va key : Nat} {p : Place}
    (h : s.place (.user c t) need va = (.at p key, s1)) : ∃ pa, p = .dev pa := by
  unfold State.place at h
  dsimp only at h
  split at h
  · cases h
  · split at h
    · cases h; exact ⟨_, rfl⟩
    · cases h
    · cases h

/-- A read-modify-write of device memory leaves its core and its thread in the tables only where they are not the default. -/
theorem sparseAt_rmwWritten {s1 : State} {c t pa : Nat} (r : Rmw) (key : Nat)
    (hw : s1.atomicWaits (.user c t) (.dev pa) (szBytes r.m.sz) = false) :
    (rmwWritten s1 (.user c t) r (.dev pa) key).SparseAt c t := by
  let h : Hart := .user c t
  let q := ((s1.noteAtomic h (.dev pa)).homeRead h (.dev pa) key (szBytes r.m.sz)).2.2
  let u := q.modThread h (fun th => { th with mv := q.learnAt h (.dev pa) r.acquire th.mv })
  have sparse : u.SparseAt c t := q.sparseAt_modThread c t _
  have pending : s1.SamePending u :=
    (State.samePending_of_coreSide (by simp [q])).trans (q.samePending_modThread c t (fun _ => rfl))
  simp only [rmwWritten]
  split
  · next v _ =>
    rw [State.homeStore, State.homeAccess_of_atomicWaits pending (by rwa [natBytes_length]) rfl]
    exact (sparse.of_coreSide (u.coreSide_cxlWrites _ _)).putHome _ _ _ _
  · exact sparse

/-- A hart whose turn it is goes on alike whether its thread has been written as it was or not, where it is a user thread whose entries
are sparse. -/
theorem done_unchanged_thread {s t : State} {h : Hart} (i : Instr) (ht : Turn s h) (hs : ∀ c k, h = .user c k → t.SparseAt c k) :
    done h i s (t.modThread h (fun th => th)) = done h i s t := by
  cases h with
  | user c k => exact State.modThread_unchanged (hs c k rfl) _
  | sup c l => exact absurd rfl (ht.2 c l)
  | mgmt => rfl

/-- RED.sc.fadd of a finite value ends with what its read tells the thread and the sum in its cell. -/
theorem exec_red_finite {s s1 : State} {h : Hart} {f : DF} {m : SyncMod} {p : Place} {key : Nat} (ht : Turn s h) (hm : m.sc = true)
    (hn : Named s h (addrUses f.fields ++ [(f.fields.c, .w32)])) (ha : AddrOk s h f.fields 16 true)
    (hc : s.opPoison h f.fields.c .w32 = false) (hpl : s.place h .atomic (s.addrOf h f.fields).toNat = (.at p key, s1))
    (hx : ∃ a b c, fF32.decode (s.opFloat h .f32 f.fields.c).toNat = .fin a b c)
    (hr : s1.atomReady h p (relScope (s1.thread h) none) = true) (hw : s1.atomicWaits h p 16 = false)
    (hq : s1.requestWaits h p = false) :
    exec (.red f m) s = .next (done h (.red f m) s (rmwWritten s1 h (cellRmw f.fields m (s.opFloat h .f32 f.fields.c)) p key)) := by
  have sparse (c t : Nat) (e : h = .user c t) :
      (rmwWritten s1 h (cellRmw f.fields m (s.opFloat h .f32 f.fields.c)) p key).SparseAt c t := by
    subst e
    obtain ⟨pa, rfl⟩ := State.place_user_dev hpl
    exact sparseAt_rmwWritten _ _ hw
  rw [exec_of_lane ht rfl (laneRed_finite hm hn ha hc hpl hx hr hw hq), rmwDone_eq]
  exact congrArg _ (done_unchanged_thread _ ht sparse)

end Sys2Proof.Machine

namespace Sys2Proof.Claims
open Sys2Proof.Machine

/-- Settles O7: an atomic that passes its checks is performed at the home of its granule; a RED.sc.fadd is one whose new value is the sum in
its cell, or, where its addend is not finite, ends with IV alone. -/
theorem atomicCompletes : Obligations.AtomicCompletes := by
  unfold Obligations.AtomicCompletes
  refine ⟨fun s s1 h i r p key ht hi => exec_rmw ht hi, fun s s1 h f m p key ht hm hn ha hc hpl => ⟨fun hx hr hw hq => ?_, fun hx => ?_⟩⟩
  · exact exec_red_finite ht hm hn ha hc hpl hx hr hw hq
  · exact exec_of_lane ht rfl (laneRed_notFinite hm hn ha hc hpl hx)

end Sys2Proof.Claims
end

section
/-! PROOFS of 05_tiles, issue: the conditions of an instruction that hold none of, the turn of a user thread, what its end leaves of its
core, and the tile table after a write. -/

set_option Elab.async false

namespace Sys2Proof.Machine
open Sys2Proof.Laws Sys2Proof.Claims

/-! ## Conditions none of which holds (R45) -/

theorem guardOps_named {s : State} {h : Hart} {us : List OpUse} (hn : Named s h us) (k : Res) : guardOps s h us k = k := by
  rw [guardOps, show opCheck s h us = none from hn]

theorem firstTrap_none {cs : List (Bool × Cause × Pair)} (h : ∀ q ∈ cs, q.1 = false) (k : Res) : firstTrap cs k = k := by
  rw [firstTrap, List.find?_eq_none.mpr (fun q hq => by rw [h q hq]; decide)]

theorem lowestTrap_none {l : List (Bool × Cause × Pair)} (h : ∀ q ∈ l, q.1 = false) : lowestTrap l = none := by
  unfold lowestTrap
  induction l with
  | nil => rfl
  | cons q l ih =>
    rw [List.foldl_cons, h q List.mem_cons_self]
    exact ih (fun p hp => h p (List.mem_cons_of_mem q hp))

theorem poisonTrap_clean {ps : List (Bool × Nat)} (h : Clean ps) : (poisonTrap ps).1 = false := by
  rw [poisonTrap, poisonField, List.find?_eq_none.mpr (fun p hp => by rw [h p hp]; decide)]
  rfl

theorem clean_cons {b : Bool} {n : Nat} {ps : List (Bool × Nat)} (hb : b = false) (h : Clean ps) : Clean ((b, n) :: ps) :=
  clean_append (clean_singleton n hb) h

theorem clean_nil : Clean [] := fun _ hx => absurd hx List.not_mem_nil

/-- No condition holds of a list that ends with the poison of clean fields. -/
theorem lowestTrap_unmarked {l : List (Bool × Cause × Pair)} {ps : List (Bool × Nat)} (h : ∀ q ∈ l, q.1 = false) (hp : Clean ps) :
    lowestTrap (l ++ [poisonTrap ps]) = none :=
  lowestTrap_none (List.forall_mem_append.mpr ⟨h, fun q hq => by rw [List.mem_singleton.mp hq, poisonTrap_clean hp]⟩)

/-- A field that unpoisoned sources name is not poisoned. -/
theorem opPoison_of_opsPoison {s : State} {h : Hart} {us : List OpUse} (hp : s.opsPoison h us = false) {o : Opd} {w : OpW}
    (hu : (o, w) ∈ us) : s.opPoison h o w = false := by
  simpa using List.any_eq_false.mp hp (o, w) hu

/-- The three sources of an instruction, with the numbers of their fields, before more of them. -/
theorem clean_three {s : State} {h : Hart} {a b c : Opd} {wa wb wc : OpW} {ps : List (Bool × Nat)}
    (hp : s.opsPoison h [(a, wa), (b, wb), (c, wc)] = false) (more : Clean ps) :
    Clean ((s.opPoison h a wa, 0) :: (s.opPoison h b wb, 1) :: (s.opPoison h c wc, 2) :: ps) :=
  clean_cons (opPoison_of_opsPoison hp (by simp)) (clean_cons (opPoison_of_opsPoison hp (by simp))
    (clean_cons (opPoison_of_opsPoison hp (by simp)) more))

/-! ## The turn of a user thread -/

/-- An instruction of compute cores whose lane completes goes on. -/
theorem exec_user_done {s u : State} {c t : Nat} {i : Instr} {l : Hart → State → Res} (ht : UserTurn s c t)
    (he : exec i s = issue 0 .compute i l s) (hl : l (.user c t) s = .ok u) : exec i s = .next (done (.user c t) i s u) := by
  rw [he, issue_user s c t .compute i l ht (by decide), hl]
  rfl

/-- One whose lane parks is parked at it. -/
theorem exec_user_parked {s u : State} {c t : Nat} {i : Instr} {l : Hart → State → Res} {w : Wait} (ht : UserTurn s c t)
    (he : exec i s = issue 0 .compute i l s) (hl : l (.user c t) s = .park u w) : exec i s = .next (parkedAt (.user c t) i s u w) := by
  rw [he, issue_user s c t .compute i l ht (by decide), hl]
  rfl

/-- The core of a hart after its thread has changed. -/
theorem core_modThread {h : Hart} {c : Nat} (hc : h.core? = some c) (s : State) (f : Thread → Thread) :
    (s.modThread h f).core c = (s.core c).modThread h.key f := by
  cases h with
  | user c' t => cases hc; simp [State.modThread, State.setThread, Core.modThread, State.thread, Hart.key]
  | sup c' l => cases hc; simp [State.modThread, State.setThread, Core.modThread, State.thread, Hart.key]
  | mgmt => cases hc

theorem thread_eq {h : Hart} {c : Nat} (hc : h.core? = some c) (s : State) : s.thread h = (s.core c).thread h.key := by
  cases h with
  | user c' t => cases hc; rfl
  | sup c' l => cases hc; rfl
  | mgmt => cases hc

@[simp] theorem Core.thread_modThread (k : Core) (t : Nat) (f : Thread → Thread) : (k.modThread t f).thread t = f (k.thread t) := by
  simp [Core.modThread]

theorem Core.thread_of_threads {k k' : Core} (h : k'.threads = k.threads) (t : Nat) : k'.thread t = k.thread t := by
  simp only [Core.thread, h]

/-! ## The tile table after a write (R109) -/

theorem find?_mins {α : Type} (m : List (Nat × α)) (k : Nat) (v : α) : (mins m k v).find? (fun p => p.1 == k) = some (k, v) := by
  induction m with
  | nil => simp [mins]
  | cons p m ih =>
    simp only [mins]
    split
    · simp
    · split
      · simp
      · next hne => simp [hne, ih]

/-- A handle that named a tile names the one that replaces it. -/
theorem Core.tile?_setTile {k : Core} {n : Nat} {x : Tile} (hx : k.tile? n = some x) (t : Tile) :
    (k.setTile n (some t)).tile? n = some t := by
  unfold Core.tile? at hx ⊢
  cases hw : k.wg with
  | none => simp [hw] at hx
  | some w =>
    have hn : n < 256 := by
      by_contra hn
      simp [hw, hn] at hx
    simp [Core.setTile, hw, hn, find?_mins]

/-- The handles rest on the workgroup alone. -/
theorem Core.tile?_of_wg {k k' : Core} (h : k'.wg = k.wg) (n : Nat) : k'.tile? n = k.tile? n := by
  simp only [Core.tile?, h]

theorem Core.setSpan_wg (k : Core) (t : Tile) (st : GState) : (k.setSpan t st).wg = k.wg := by
  unfold Core.setSpan
  split
  · dsimp only
    split <;> rfl
  · rfl

theorem Core.setSpan_threads (k : Core) (t : Tile) (st : GState) : (k.setSpan t st).threads = k.threads := by
  unfold Core.setSpan
  split
  · dsimp only
    split <;> rfl
  · rfl

end Sys2Proof.Machine
end

section
/-! PROOFS of 05_tiles, tile table: TALLOC, TFREE, THDR and THSET. -/

set_option Elab.async false

namespace Sys2Proof.Machine
open Sys2Proof.Laws Sys2Proof.Claims

/-! ## TALLOC (R126) -/

/-- Granules that need not wait are loaded. -/
theorem State.withGranules_ready {s : State} {h : Hart} {p : Place} {n : Nat} (hw : s.granulesWait h p n = false) (key : Nat)
    (k : List Byte → Bool → State → Res) :
    let r := s.loadGranules h p key n
    s.withGranules h p key n k = k r.1 r.2.1 r.2.2 := by
  simp only [State.withGranules, hw]
  rfl

/-- A header and a handle that meet no condition make the tile. -/
theorem tallocWith_ok {s : State} {h : Hart} {m : Header} {hv : Word} {md : AllocMod} {base span : Nat}
    (ok : TallocOk s (h.core?.getD 0) m hv.toNat md base span) (addr : BitVec 64) (dst : Dest) :
    tallocWith s h addr m hv md dst false =
      .ok ((s.modCore (h.core?.getD 0) (fun k => (k.setTile hv.toNat (some (tallocTile m md base span))).clearStorage
        (tallocTile m md base span))).put32 h dst (BitVec.ofNat 32 base) false) := by
  obtain ⟨check, desc, sized, range, resident, free, place, drained⟩ := ok
  have small : ¬255 < hv.toNat := by omega
  have whole : (md.lv == .sp && md.span == 0 && (md.xfmt || md.xshape)) = false := by
    simpa using fun hl hs => by simpa using fun hw => sized ⟨hl, hs, hw⟩
  have clear : (md.lv == .sp && (s.core (h.core?.getD 0)).queuedInto base (base + span)) = false := by simpa using drained
  have here : (s.core (h.core?.getD 0)).wg.isNone = false := by simpa using resident
  simp only [tallocWith, check, desc, small, whole, here, free, place]
  exact if_neg (by rw [clear]; decide)

theorem laneTalloc_done {s s1 : State} {h : Hart} {f : Fields} {md : AllocMod} {p : Place} {key base span : Nat}
    (hn : Named s h (addrUses f ++ [(f.c, .w32)] ++ f.dst .w32)) (hc : Clean (s.addrPoison h f)) (hp : s.opPoison h f.c .w32 = false)
    (hg : s.checkGranules h (s.addrOf h f) 64 4 false (s.addrPoison h f) = (.at p key, s1)) (hw : s1.granulesWait h p 4 = false)
    (ok : TallocOk (s1.loadGranules h p key 4).2.2 (h.core?.getD 0) (BitVec.ofNat 512 (bytesNat (s1.loadGranules h p key 4).1))
      (s.op32 h f.c).toNat md base span) :
    let r := s1.loadGranules h p key 4
    let x := tallocTile (BitVec.ofNat 512 (bytesNat r.1)) md base span
    laneTalloc f md h s = .ok ((r.2.2.modCore (h.core?.getD 0) (fun k =>
      (k.setTile (s.op32 h f.c).toNat (some x)).clearStorage x)).put32 h f.dest (BitVec.ofNat 32 base) false) := by
  rw [laneTalloc, guardOps_named hn]
  simp only [clean_any hc, hg, hp, State.withGranules_ready hw]
  exact tallocWith_ok ok _ _

/-! ## TFREE, THDR, THSET (R127–R129) -/

/-- TFREE of a tile that nothing uses removes it; the threads parked on its granules trap. -/
theorem laneTfree_free {s : State} {h : Hart} {f : Fields} {x : Tile} (hs : Sources s h [(f.b, .w32)] [])
    (hx : FreeTile s (h.core?.getD 0) (s.op32 h f.b).toNat x) : laneTfree f h s = .ok (tfreeEff f h s) := by
  obtain ⟨named, clean⟩ := hs
  obtain ⟨tile, unused⟩ := hx
  have unmarked := poisonTrap_clean (clean_singleton 1 (opPoison_of_opsPoison clean List.mem_cons_self))
  rw [laneTfree, guardOps_named (us := [(f.b, .w32)]) named]
  simp only [unused, Core.noTile, tile]
  exact firstTrap_none (by simp [unmarked]) _

/-- THDR of a tile that nothing uses returns a word of its header, or its control word, which needs no check. -/
theorem laneThdr_free {s : State} {h : Hart} {f : Fields} {x : Tile} (hs : Sources s h [(f.b, .w32)] (f.dst .w32))
    (hx : FreeTile s (h.core?.getD 0) (s.op32 h f.b).toNat x) {ctl : Bool} (ok : ctl = true ∨ x.ok = true) (word : Tile → Word) :
    laneThdr f ctl word h s = .ok (s.put32 h f.dest (word x) false) := by
  obtain ⟨named, clean⟩ := hs
  obtain ⟨tile, unused⟩ := hx
  have unmarked := poisonTrap_clean (clean_singleton 1 (opPoison_of_opsPoison clean List.mem_cons_self))
  have usable : (!ctl && !x.ok) = false := by simpa using fun hc => ok.resolve_left (by simp [hc])
  rw [laneThdr, guardOps_named named]
  simp only [unused, tile]
  exact firstTrap_none (by simp [unmarked, usable]) _

/-- THSET of a tile that nothing uses ends as its body says. -/
theorem laneThset_free {s : State} {h : Hart} {f : Fields} {x : Tile} (hn : Named s h [(f.a, .w32), (f.b, .w32), (f.c, .w32)])
    (hx : FreeTile s (h.core?.getD 0) (s.op32 h f.a).toNat x)
    (body : Word → Word → Word → Nat → Tile → List (Bool × Nat) → State → Res) :
    laneThset f body h s = body (s.op32 h f.b) (s.op32 h f.c) (s.op32 h f.a) (h.core?.getD 0) x
      [(s.opPoison h f.a .w32, 0), (s.opPoison h f.b .w32, 1), (s.opPoison h f.c .w32, 2)] s := by
  obtain ⟨tile, unused⟩ := hx
  rw [laneThset, guardOps_named hn]
  simp only [unused, tile]
  rfl

/-- A core whose handle names a new tile; where the elements moved, the granules of the old one are Empty (Table 5-5). -/
def Core.retile (k : Core) (n : Nat) (old new : Tile) (moved : Bool) : Core :=
  if moved then (k.setTile n (some new)).setSpan old .empty else k.setTile n (some new)

theorem Core.retile_spec {k : Core} {n : Nat} {old : Tile} (hx : k.tile? n = some old) (new : Tile) (moved : Bool) :
    (k.retile n old new moved).tile? n = some new ∧ (k.retile n old new moved).threads = k.threads := by
  cases moved
  · exact ⟨Core.tile?_setTile hx new, rfl⟩
  · have table : (k.retile n old new true).wg = (k.setTile n (some new)).wg := Core.setSpan_wg (k.setTile n (some new)) old .empty
    exact ⟨(Core.tile?_of_wg table n).trans (Core.tile?_setTile hx new), Core.setSpan_threads (k.setTile n (some new)) old .empty⟩

/-- A word of the header changes under the mask. -/
theorem thsetWord_ok {s : State} {k : Nat} {v mask hv : Word} {x : Tile} {ps : List (Bool × Nat)} (c : Nat) (hp : Clean ps)
    (ok : x.ok = true) (hd : descOk (some x.lv) (hdrMasked x.hdr k v mask) x.wild = true)
    (hh : x.holds (hdrMasked x.hdr k v mask) x.wild = true) :
    thsetWord k v mask hv c x ps s = .ok (s.modCore c (·.retile hv.toNat x { x with hdr := Hd.rehash (hdrMasked x.hdr k v mask) }
      (shapeChanged x.hdr (hdrMasked x.hdr k v mask)))) := by
  have same : hdrPut x.hdr k v mask = hdrMasked x.hdr k v mask := rfl
  simp only [thsetWord, same]
  exact firstTrap_none (by simp [ok, hd, hh, poisonTrap_clean hp]) _

/-- The wildcard bits change under the mask. -/
theorem thsetCtlWith_ok {s : State} {v mask hv : Word} {x : Tile} {ps : List (Bool × Nat)} (c : Nat) (hp : Clean ps) :
    let pick (b : Nat) (old : Bool) : Bool := if mask.getLsbD b then v.getLsbD b else old
    thsetCtlWith v mask hv c x ps s = .ok (s.modCore c (·.retile hv.toNat x
      { x with xshape := pick 29 x.xshape, xsparse := pick 28 x.xsparse, xscale := pick 27 x.xscale, xfmt := pick 26 x.xfmt } false)) :=
  firstTrap_none (by simp [poisonTrap_clean hp]) _

/-- An instruction that gives a handle a new tile changes its core's tile table and storage alone. -/
theorem done_retile {s : State} {c t n : Nat} {i : Instr} {old : Tile} (hx : (s.core c).tile? n = some old) (new : Tile) (moved : Bool) :
    let u := done (.user c t) i s (s.modCore c (·.retile n old new moved))
    (u.core c).tile? n = some new ∧ (u.thread (.user c t)).pc = nextPc s (.user c t) i ∧
      (u.thread (.user c t)).regs = (s.thread (.user c t)).regs ∧ u.mem = s.mem := by
  obtain ⟨tile, threads⟩ := Core.retile_spec hx new moved
  have core : (done (.user c t) i s (s.modCore c (·.retile n old new moved))).core c = _ := core_modThread rfl _ _
  simp only [core_modCore, if_true] at core
  refine ⟨?_, ?_, ?_, ?_⟩
  · rw [core]
    exact tile
  · rw [done, State.modThread_thread]
  · rw [done, State.modThread_thread]
    simp [State.thread, Core.thread_of_threads threads]
  · rw [done, State.modThread_mem, State.modCore_mem]

end Sys2Proof.Machine

namespace Sys2Proof.Claims
open Sys2Proof.Machine

/-- Settles O22: TALLOC by the conditions of its header and handle, the others on a tile that nothing uses. -/
theorem tileTableInstructionsComplete : Obligations.TileTableInstructionsComplete := by
  unfold Obligations.TileTableInstructionsComplete
  refine ⟨fun s s1 c t f md p key base span ht hn hc hp hg hw ok => exec_user_done ht rfl (laneTalloc_done hn hc hp hg hw ok),
    fun s c t f x ht => ⟨fun hs hx => exec_user_done ht rfl (laneTfree_free hs hx), fun hs hx => ⟨fun k ok => ?_, ?_⟩,
      fun ⟨hn, hp⟩ hx => ⟨fun k ok hd hh => ?_, ?_⟩⟩⟩
  · exact exec_user_done ht rfl (laneThdr_free hs hx (.inr ok) _)
  · exact exec_user_done ht rfl (laneThdr_free hs hx (.inl rfl) _)
  · exact ⟨_, exec_user_done ht rfl ((laneThset_free hn hx _).trans (thsetWord_ok c (clean_three hp clean_nil) ok hd hh)),
      done_retile hx.1 _ _⟩
  · exact ⟨_, exec_user_done ht rfl ((laneThset_free hn hx _).trans (thsetCtlWith_ok c (clean_three hp clean_nil))),
      done_retile hx.1 _ _⟩

end Sys2Proof.Claims
end

section
/-! PROOFS of 05_tiles, scratchpad: LDT and STT at a place in a tile. -/

set_option Elab.async false

namespace Sys2Proof.Machine
open Sys2Proof.Laws Sys2Proof.Claims

/-! ## The check of an access (R223, R230) -/

/-- An access whose granules no destination range covers, and, where it writes, no source range, meets no range. -/
theorem Core.spLocked_free {k : Core} {t : Tile} {a : SpAccess} {writes : Bool}
    (h : ∀ q ∈ spGranules (geoOf t.hdr) t a, (k.bankLock (q / 1024) (q / 1024 + 1)).2 = false ∧
      (writes = true → (k.bankLock (q / 1024) (q / 1024 + 1)).1 = false)) : k.spLocked t a writes = false := by
  have clear : ∀ q ∈ spGranules (geoOf t.hdr) t a, ((k.bankLock (q / 1024) (q / 1024 + 1)).2
      || (writes && (k.bankLock (q / 1024) (q / 1024 + 1)).1)) = false := by
    intro q hq
    obtain ⟨dest, src⟩ := h q hq
    cases writes
    · simp [dest]
    · simp [dest, src rfl]
  simp only [Core.spLocked, Bool.and_eq_false_iff, List.any_eq_false]
  exact .inr (fun q hq => by rw [clear q (List.mem_of_mem_filter hq)]; decide)

/-- An access to a level-0 tile whose header it can use, at a legal position that no registered range forbids, meets no condition. -/
theorem Core.spCheck_ok {k : Core} {x : Tile} {a : SpAccess} {hv : Word} {writes wf hp : Bool} {ps : List (Bool × Nat)}
    (hx : k.tile? hv.toNat = some x) (header : SpHeaderOk x writes) (level : x.lv = .sp)
    (position : ∀ q ∈ spFaults (geoOf x.hdr) a.column a.h a.row a.col a.size, q.1 = false)
    (unlocked : wf = false → k.spLocked x a writes = false) (clean : Clean ((hp, 0) :: ps)) :
    k.spCheck a hv writes wf hp ps = .inr x := by
  obtain ⟨ok, desc, wild⟩ := header
  have lock : (!wf && k.spLocked x a writes) = false := by
    cases wf
    · simp [unlocked rfl]
    · rfl
  have handle : hp = false := clean _ List.mem_cons_self
  have usable : (!descOk (some .sp) x.hdr x.wild || (!writes && x.wild.any)) = false := by
    rw [← level, desc]
    cases writes
    · simpa using wild
    · rfl
  have fill : (if writes && true then x.fillFault (geoOf x.hdr) else none) = none := by
    cases writes
    · rfl
    · exact wild
  have faults : ∀ q ∈ k.spTileFaults x a hv writes wf hp, q.1 = false := by
    simp only [Core.spTileFaults, level, ok, handle, fill, lock, usable, List.forall_mem_append, List.forall_mem_cons]
    refine ⟨⟨⟨rfl, rfl, by decide, nofun⟩, ?_⟩, nofun⟩
    exact List.forall_mem_append.mpr ⟨position, fun q hq => by rw [List.mem_singleton.mp hq]⟩
  simp only [Core.spCheck, hx, lowestTrap_unmarked faults clean]

/-! ## LDT (R231) -/

section
variable {s : State} {h : Hart} {f : Fields} {m : MemMod} {x : Tile}
  (hs : Sources s h [(f.a, .w32), (f.b, .w32), (f.c, .w32)] (f.dst (dataW (sizeBytes m.size))))
  (hx : SpOk s h (spAccess s h f m) x) (hw : x.wild.any = false)
include hs hx hw

/-- The check of a load from a tile without wildcard fields; one with `.wf` meets no range. -/
theorem spCheck_ldt
    (free : m.wf = false → ∀ q ∈ spGranules (geoOf x.hdr) x (spAccess s h f m),
      ((s.coreOf h).bankLock (q / 1024) (q / 1024 + 1)).2 = false) :
    (s.coreOf h).spCheck (spAccess s h f m) (s.op32 h f.a) false m.wf (s.opPoison h f.a .w32)
      [(s.opPoison h f.b .w32, 1), (s.opPoison h f.c .w32, 2)] = .inr x := by
  obtain ⟨ok, level, tile, desc, position⟩ := hx
  exact Core.spCheck_ok tile ⟨ok, level ▸ desc, hw⟩ level position
    (fun wf => Core.spLocked_free (fun q hq => ⟨free wf q hq, nofun⟩)) (clean_three hs.2 clean_nil)

/-- A plain load from granules that no destination range covers returns its bytes. -/
theorem laneLdt_plain (wf : m.wf = false)
    (free : ∀ q ∈ spGranules (geoOf x.hdr) x (spAccess s h f m), ((s.coreOf h).bankLock (q / 1024) (q / 1024 + 1)).2 = false) :
    laneLdt f m h s = .ok (s.ldtDo h x (spAccess s h f m) id) := by
  have checked := spCheck_ldt hs hx hw (fun _ => free)
  simp only [spAccess, wf] at checked
  rw [laneLdt, guardOps_named hs.1]
  simp only [wf, checked]
  rfl

/-- A `.wf` load of Full granules returns its bytes into an emptied window. -/
theorem laneLdt_full (wf : m.wf = true)
    (full : ∀ q ∈ spGranules (geoOf x.hdr) x (spAccess s h f m), mget .empty (s.coreOf h).spState q = .full) :
    laneLdt f m h s = .ok (s.ldtWfDo h x (spAccess s h f m) Thread.clearWindow) := by
  have checked := spCheck_ldt hs hx hw (by simp [wf])
  have unfailed : (s.coreOf h).anyIn (spGranules (geoOf x.hdr) x (spAccess s h f m)) .failed = false :=
    List.any_eq_false.mpr (fun q hq => by rw [full q hq]; decide)
  have all : (s.coreOf h).allIn (spGranules (geoOf x.hdr) x (spAccess s h f m)) .full = true :=
    List.all_eq_true.mpr (fun q hq => by rw [full q hq]; decide)
  simp only [spAccess, wf] at checked unfailed all
  rw [laneLdt, guardOps_named hs.1]
  simp only [wf, checked, unfailed, all]
  rfl

/-- A `.wf` load parks where a granule is Empty and none has Failed. -/
theorem laneLdt_empty (wf : m.wf = true)
    (sound : ∀ q ∈ spGranules (geoOf x.hdr) x (spAccess s h f m), mget .empty (s.coreOf h).spState q ≠ .failed)
    (empty : ∃ q ∈ spGranules (geoOf x.hdr) x (spAccess s h f m), mget .empty (s.coreOf h).spState q = .empty) :
    laneLdt f m h s = .park s (.ldtWf (spAccess s h f m)) := by
  have checked := spCheck_ldt hs hx hw (by simp [wf])
  have unfailed : (s.coreOf h).anyIn (spGranules (geoOf x.hdr) x (spAccess s h f m)) .failed = false :=
    List.any_eq_false.mpr (fun q hq => by simpa using sound q hq)
  have waits : (s.coreOf h).allIn (spGranules (geoOf x.hdr) x (spAccess s h f m)) .full = false := by
    obtain ⟨q, hq, e⟩ := empty
    exact List.all_eq_false.mpr ⟨q, hq, by rw [e]; decide⟩
  simp only [spAccess, wf] at checked unfailed waits
  rw [laneLdt, guardOps_named hs.1]
  simp only [wf, checked, unfailed, waits]
  rfl

end

/-! ## STT (R230, R232) -/

/-- A store that meets no condition enters its thread's queue, and completes a wildcard tile. -/
theorem laneStt_queued {s : State} {h : Hart} {f : Fields} {m : MemMod} {x : Tile} (hok : SttOk f m x h s) :
    laneStt f m h s = .ok (sttQueued s h f m x) := by
  obtain ⟨hn, hp, data, ⟨ok, level, tile, desc, position⟩, fill, free, room⟩ := hok
  have stored : (s.opPoison h (.reg f.d) (dataW (sizeBytes m.size)) && !m.psn) = false := by simpa using data
  have checked := Core.spCheck_ok (writes := true) (wf := false) tile ⟨ok, level ▸ desc, fill⟩ level position
    (fun _ => Core.spLocked_free (fun q hq => by simp [free q hq])) (clean_three hp (clean_singleton 3 stored))
  simp only [sttAccess, spAccess] at checked
  rw [laneStt, guardOps_named (us := [(f.a, .w32), (f.b, .w32), (f.c, .w32), (.reg f.d, dataW (sizeBytes m.size))]) hn]
  simp only [checked, room]
  rfl

end Sys2Proof.Machine

namespace Sys2Proof.Claims
open Sys2Proof.Machine

/-- Settles O23: LDT by the state of the granules it covers, STT by entering the store queue. -/
theorem scratchpadAccessCompletes : Obligations.ScratchpadAccessCompletes := by
  unfold Obligations.ScratchpadAccessCompletes
  intro s c t f m x ht h a n g three ok level tile desc position
  have place : SpOk s h a x := ⟨ok, level, tile, desc, position⟩
  refine ⟨fun hn hp hw => ⟨fun wf free => ?_, fun wf full => ?_, fun wf sound empty => ?_⟩, fun hok => ?_⟩
  · exact exec_user_done ht rfl (laneLdt_plain ⟨hn, hp⟩ place hw wf free)
  · exact exec_user_done ht rfl (laneLdt_full ⟨hn, hp⟩ place hw wf full)
  · exact exec_user_parked ht rfl (laneLdt_empty ⟨hn, hp⟩ place hw wf sound empty)
  · exact exec_user_done ht rfl (laneStt_queued hok)

end Sys2Proof.Claims
end

section
/-! PROOFS of 05_tiles, tasks: MMA, TMOV and QUANT enter the task table. -/

set_option Elab.async false

namespace Sys2Proof.Machine
open Sys2Proof.Laws Sys2Proof.Claims

/-! ## A task enters its table (R173, R176) -/

/-- A core with a task's record, its ranges and the next token. -/
def Core.addTask (k : Core) (x : Task) (locks : List RangeLock) : Core :=
  { k with tasks := k.tasks ++ [x], locks := k.locks ++ locks, wg := k.wg.map (fun w => { w with taskTok := nextToken w.taskTok }) }

/-- The tile that a handle names becomes `dest` of it. -/
def Core.changeTile (k : Core) (n : Nat) (dest : Tile → Tile) : Core :=
  match k.tile? n with
  | some t => k.setTile n (some (dest t))
  | none => k

theorem Core.changeTile_dest {k : Core} {n : Nat} {td : Tile} (ht : k.tile? n = some td) (dest : Tile → Tile) :
    (k.changeTile n dest).tile? n = some (dest td) := by
  simp only [Core.changeTile, ht]
  exact Core.tile?_setTile ht _

/-- A change of a tile leaves the tasks, the ranges, the tokens and the threads. -/
theorem Core.changeTile_frame (k : Core) (n : Nat) (dest : Tile → Tile) :
    (k.changeTile n dest).tasks = k.tasks ∧ (k.changeTile n dest).locks = k.locks ∧
      (k.changeTile n dest).wg.map (·.taskTok) = k.wg.map (·.taskTok) ∧ (k.changeTile n dest).threads = k.threads := by
  unfold Core.changeTile
  split
  · exact ⟨rfl, rfl, by simp [Core.setTile, Function.comp_def], rfl⟩
  · exact ⟨rfl, rfl, rfl, rfl⟩

/-- A task that enters leaves the tiles. -/
theorem Core.addTask_tile? (k : Core) (x : Task) (locks : List RangeLock) (n : Nat) : (k.addTask x locks).tile? n = k.tile? n := by
  cases e : k.wg <;> simp [Core.tile?, Core.addTask, e]

section
variable {s : State} {c t : Nat} {w : Workgroup} {idx : Nat} {locks : BitVec 16 → List RangeLock}
  (hr : TaskRoom s c t w idx (locks w.taskTok).length)
include hr

/-- A task for which there is room enters the table, and its thread gets the token. -/
theorem issueTask_room (f : Fields) (mk : Nat → BitVec 16 → Task) (n : Nat) (dest : Tile → Tile) :
    issueTask s (.user c t) f mk locks n dest =
      .ok ((s.modCore c (fun k =>
        (k.addTask { mk idx w.taskTok with view := (s.thread (.user c t)).mv.floor } (locks w.taskTok)).changeTile n dest)).put32 (.user c t)
         f.dest (w.taskTok.setWidth 32) false) := by
  obtain ⟨here, record, room, drained, accepts⟩ := hr
  have fits : ¬64 < (s.core c).locks.length + (locks w.taskTok).length := by omega
  simp only [issueTask, Hart.core?, Option.getD_some, record, here, accepts, drained, fits]
  exact if_neg (by decide)

/-- The state after a task has entered is the one that the statements name. -/
theorem taskAccepted_addTask (i : Instr) (f : Fields) (x : Task) (n : Nat) (dest : Tile → Tile) :
    let u := done (.user c t) i s ((s.modCore c (fun k => (k.addTask x (locks w.taskTok)).changeTile n dest)).put32 (.user c t) f.dest
      (w.taskTok.setWidth 32) false)
    TaskAccepted s u c t i f w x (locks w.taskTok) ∧
      ∀ td, (s.core c).tile? n = some td → (u.core c).tile? n = some (dest td) := by
  intro u
  obtain ⟨tasks, entered, token, threads⟩ := ((s.core c).addTask x (locks w.taskTok)).changeTile_frame n dest
  have core : u.core c = ((((s.core c).addTask x (locks w.taskTok)).changeTile n dest).modThread t
      (·.put32 f.dest (w.taskTok.setWidth 32) false)).modThread t (fun th => { th with pc := nextPc s (.user c t) i, age := 0 }) := by
    simp only [u, done, State.put32, core_modThread (h := .user c t) rfl, core_modCore, if_true]
    rfl
  refine ⟨⟨?_, ?_, ?_, ?_, ?_⟩, fun td ht => ?_⟩
  · rw [core]
    exact tasks
  · rw [core]
    exact entered
  · rw [core]
    exact token.trans (by simp [Core.addTask, hr.1])
  · simp only [State.thread, core, Core.thread_modThread, Core.thread_of_threads threads]
    rfl
  · simp only [u, done, State.put32, State.modThread_mem, State.modCore_mem]
  · rw [core]
    exact Core.changeTile_dest ((Core.addTask_tile? ..).trans ht) dest

end

/-! ## The operands of a task (R188) -/

/-- A product whose operands raise no condition is issued. -/
theorem laneMma_issues {s : State} {h : Hart} {f : Fields} {z : Bool} {ta tb : Tile}
    (hn : Named s h ([(f.a, .w32), (f.b, .w32), (f.c, .w32)] ++ f.dst .w32)) (ok : MmaOk s h f z ta tb) {w : Workgroup}
    (hw : (s.coreOf h).wg = some w) :
    laneMma f z h s = issueTask s h f (fun idx token =>
      { idx, kind := .mma, running := none, token, tid := h.key, ha := (s.op32 h f.a).toNat, hb := (s.op32 h f.b).toNat
        hc := (s.op32 h f.c).toNat, rm := 0, ftz := ftzOf (s.thread h).fmode, nbv := w.nbv, opt := z, os := false, od := false, qpct := 0 })
      (fun _ => []) (s.op32 h f.c).toNat (·.product (mmaGeo (geoOf ta.hdr) (geoOf tb.hdr))) := by
  obtain ⟨a, b, sound⟩ := ok
  rw [laneMma, guardOps_named hn]
  simp only [a, b, sound, hw]
  rfl

/-- A move whose operands raise no condition is issued. -/
theorem laneMove_issues {s : State} {h : Hart} {f : Fields} {tr quant : Bool} {ts td : Tile}
    (hn : Named s h ([(f.a, .w32), (f.b, .w32)] ++ f.dst .w32)) (ok : MoveOk s h f tr quant ts td) {w : Workgroup}
    (hw : (s.coreOf h).wg = some w) (mk : Thread → Bool → Task → Task) :
    laneMove f tr quant mk h s = issueTask s h f (fun idx token => mk (s.thread h) w.nbv
      { idx, kind := .tmov, running := none, token, tid := h.key, ha := (s.op32 h f.a).toNat, hb := (s.op32 h f.b).toNat, hc := 0
        rm := 0, ftz := false, nbv := false, opt := false, os := false, od := false, qpct := 0 })
      (fun token => moveLocks token ts td) (s.op32 h f.a).toNat
      (fun d => if d.wild.any then d.fill (moveGeo tr (geoOf ts.hdr)) else d) := by
  obtain ⟨src, dest, sound⟩ := ok
  rw [laneMove, guardOps_named hn]
  simp only [src, dest, sound, hw]
  rfl

end Sys2Proof.Machine

namespace Sys2Proof.Claims
open Sys2Proof.Machine

/-- Settles O24: each of the three issues a task, for which there is room. -/
theorem taskIssueCompletes : Obligations.TaskIssueCompletes := by
  unfold Obligations.TaskIssueCompletes
  refine fun s c t w idx f ht => ⟨fun z ta tb hn ok hr => ?_, fun m ts td hn ok hr => ?_, fun ts td hn ok hr => ?_⟩
  · exact ⟨_, exec_user_done ht rfl ((laneMma_issues hn ok hr.1).trans (issueTask_room (locks := fun _ => []) hr _ _ _ _)),
      taskAccepted_addTask (locks := fun _ => []) hr _ _ _ _ _⟩
  · exact ⟨_, exec_user_done ht rfl ((laneMove_issues hn ok hr.1 _).trans (issueTask_room (locks := (moveLocks · ts td)) hr _ _ _ _)),
      (taskAccepted_addTask (locks := (moveLocks · ts td)) hr _ _ _ _ _).1⟩
  · exact ⟨_, exec_user_done ht rfl ((laneMove_issues hn ok hr.1 _).trans (issueTask_room (locks := (moveLocks · ts td)) hr _ _ _ _)),
      (taskAccepted_addTask (locks := (moveLocks · ts td)) hr _ _ _ _ _).1⟩

end Sys2Proof.Claims
end

section
/-! PROOFS of 05_tiles, copies: CPY and GTH enter their engines. -/

set_option Elab.async false

namespace Sys2Proof.Machine
open Sys2Proof.Laws Sys2Proof.Claims

/-! ## An operation is accepted, or ends at issue (R208, R235) -/

/-- A core whose workgroup has taken a copy token. -/
def Core.takeCopyTok (k : Core) (w : Workgroup) : Core := { k with wg := some { w with copyTok := nextToken w.copyTok } }

theorem State.newToken_resident {s : State} {c : Nat} {w : Workgroup} (hw : (s.core c).wg = some w) :
    s.newToken c = (w.copyTok, s.modCore c (·.takeCopyTok w)) := by
  simp only [State.newToken, hw]
  rfl

/-- A core with an operation that hart `h` issues under a token, and its ranges. -/
def Core.addOp (k : Core) (h : Hart) (token : BitVec 16) (kind : EngKind) (view : Nat) (ranges : List (Bool × Range)) : Core :=
  { k with ops := k.ops ++ [{ token, tid := h.key, kind, ctx := k.ctxid, ksel := k.ksel, view, sealN := 0 }]
           locks := k.locks ++ ranges.map (fun r => ⟨false, token, r.1, r.2⟩) }

/-- A core with the wildcard fields of a destination tile completed, where there is one. -/
def Core.fillTile (k : Core) (fill : Option (Nat × Geo)) : Core :=
  match fill with
  | some (n, g) => match k.tile? n with
    | some t => if t.wild.any then k.setTile n (some (t.fill g)) else k
    | none => k
  | none => k

/-- To complete a tile leaves the operations, the ranges, the tokens and the threads. -/
theorem Core.fillTile_frame (k : Core) (fill : Option (Nat × Geo)) :
    (k.fillTile fill).ops = k.ops ∧ (k.fillTile fill).locks = k.locks ∧
      (k.fillTile fill).wg.map (·.copyTok) = k.wg.map (·.copyTok) ∧ (k.fillTile fill).threads = k.threads := by
  unfold Core.fillTile
  split
  · split
    · split
      · exact ⟨rfl, rfl, by simp [Core.setTile, Function.comp_def], rfl⟩
      · exact ⟨rfl, rfl, rfl, rfl⟩
    · exact ⟨rfl, rfl, rfl, rfl⟩
  · exact ⟨rfl, rfl, rfl, rfl⟩

section
variable {s : State} {h : Hart} {c : Nat} (hc : h.core? = some c) {w : Workgroup}
include hc

/-- An operation other than a seal is accepted where there is room for it. -/
theorem acceptOp_room {kind : EngKind} {ranges : List (Bool × Range)} (hr : OpRoom s c h.key w kind ranges.length)
    (hk : kind.seals = false) (f : Fields) (fill : Option (Nat × Geo)) :
    ∃ u, acceptOp s h f.dest kind ranges fill = .ok u ∧ OpAccepted s u c h.key f w kind ranges := by
  obtain ⟨here, free, room, drained⟩ := hr
  have idle : ¬32 ≤ ((s.core c).ops.filter (fun o => o.kind.gather == kind.gather)).length := by omega
  have fits : ¬64 < (s.core c).locks.length + ranges.length := by omega
  have queue : (s.thread h).storeQ = [] := by rw [thread_eq hc, drained]
  have run : acceptOp s h f.dest kind ranges fill = .ok (((s.newToken c).2.modCore c (fun k =>
      (k.addOp h w.copyTok kind ((s.newToken c).2.thread h).mv.floor ranges).fillTile fill)).put32 h f.dest (w.copyTok.setWidth 32)
      false) := by
    simp only [acceptOp, hc, Option.getD_some, idle, fits, queue, hk, State.newToken_resident here]
    exact if_neg (by decide)
  refine ⟨_, run, ?_⟩
  have view : ((s.newToken c).2.thread h).mv.floor = ((s.core c).thread h.key).mv.floor := by
    rw [thread_eq hc, State.newToken_resident here, core_modCore, if_pos rfl]
    rfl
  obtain ⟨ops, locks, token, threads⟩ :=
    (((s.core c).takeCopyTok w).addOp h w.copyTok kind ((s.core c).thread h.key).mv.floor ranges).fillTile_frame fill
  rw [view, State.put32, State.newToken_resident here]
  simp only [OpAccepted, core_modThread hc, core_modCore, if_true, Core.thread_modThread, Core.thread_of_threads threads]
  exact ⟨ops, locks, token, rfl, rfl⟩

/-- An operation that ends at issue returns its token. -/
theorem endAtIssue_resident (hw : (s.core c).wg = some w) (f : Fields) :
    ∃ u, endAtIssue s h f.dest none = .ok u ∧ OpEmpty s u c h.key f w := by
  refine ⟨((s.newToken c).2).put32 h f.dest (w.copyTok.setWidth 32) false, ?_, ?_⟩
  · simp only [endAtIssue, hc, Option.getD_some, State.newToken_resident hw]
  · rw [State.put32, State.newToken_resident hw]
    simp only [OpEmpty, core_modThread hc, core_modCore, if_true, Core.thread_modThread]
    exact ⟨rfl, rfl, rfl, rfl⟩

end

/-- The end of the instruction moves its thread on and leaves what the operation did. -/
theorem opAccepted_done {s u : State} {c t : Nat} {f : Fields} {w : Workgroup} {kind : EngKind} {ranges : List (Bool × Range)}
    (ok : OpAccepted s u c t f w kind ranges) (i : Instr) (s0 : State) : OpAccepted s (done (.user c t) i s0 u) c t f w kind ranges := by
  have core : (done (.user c t) i s0 u).core c = (u.core c).modThread t _ := core_modThread rfl _ _
  simp only [OpAccepted, core, Core.thread_modThread]
  exact ok

theorem opEmpty_done {s u : State} {c t : Nat} {f : Fields} {w : Workgroup} (ok : OpEmpty s u c t f w) (i : Instr) (s0 : State) :
    OpEmpty s (done (.user c t) i s0 u) c t f w := by
  have core : (done (.user c t) i s0 u).core c = (u.core c).modThread t _ := core_modThread rfl _ _
  simp only [OpEmpty, core, Core.thread_modThread]
  exact ok

/-- An instruction of a user thread whose lane comes to an operation for which there is room has it accepted. -/
theorem exec_accepted {s r : State} {c t : Nat} {i : Instr} {l : Hart → State → Res} {f : Fields} {w : Workgroup} {kind : EngKind}
    {ranges : List (Bool × Range)} {fill : Option (Nat × Geo)} (ht : UserTurn s c t) (he : exec i s = issue 0 .compute i l s)
    (hl : l (.user c t) s = acceptOp r (.user c t) f.dest kind ranges fill) (room : OpRoom r c t w kind ranges.length)
    (hk : kind.seals = false) : ∃ u, exec i s = .next u ∧ OpAccepted r u c t f w kind ranges := by
  obtain ⟨u, hu, ok⟩ := acceptOp_room (h := .user c t) rfl room hk f fill
  exact ⟨_, exec_user_done ht he (hl.trans hu), opAccepted_done ok i s⟩

/-- One whose lane comes to an operation that ends at issue returns the token. -/
theorem exec_ended {s : State} {c t : Nat} {i : Instr} {l : Hart → State → Res} {f : Fields} {w : Workgroup} (ht : UserTurn s c t)
    (he : exec i s = issue 0 .compute i l s) (hl : l (.user c t) s = endAtIssue s (.user c t) f.dest none)
    (hw : (s.core c).wg = some w) : ∃ u, exec i s = .next u ∧ OpEmpty s u c t f w := by
  obtain ⟨u, hu, ok⟩ := endAtIssue_resident (h := .user c t) rfl hw f
  exact ⟨_, exec_user_done ht he (hl.trans hu), opEmpty_done ok i s⟩

/-! ## CPY (R238–R240) -/

/-- A byte copy of length 0 ends at issue. -/
theorem cpyBytes_empty (s : State) (h : Hart) (a b : Pair) (dst : Dest) {ps : List (Bool × Nat)} (hp : Clean ps) :
    cpyBytes s h a b 0 dst ps = endAtIssue s h dst none := by
  have faultless : lowestTrap [(false, .addrRange, 0), poisonTrap ps] = none :=
    lowestTrap_unmarked (l := [(false, .addrRange, 0)]) (fun q hq => by rw [List.mem_singleton.mp hq]) hp
  simp only [cpyBytes, if_true, Option.isSome_none, Option.getD_none, faultless]

/-- One whose ends lie in the 60-bit space goes to its engine. -/
theorem cpyBytes_accept (s : State) (h : Hart) {a b : Pair} {len : Nat} (dst : Dest) {ps : List (Bool × Nat)} (hp : Clean ps)
    (hl : 0 < len) (hr : ∀ y ∈ [a, a + BitVec.ofNat 64 (len - 1), b, b + BitVec.ofNat 64 (len - 1)], y.toNat < 2 ^ 60) :
    cpyBytes s h a b len dst ps =
      acceptOp s h dst (.bytes a b len) (memLock false b.toNat len ++ memLock true a.toNat len) none := by
  have inside : [b, b + BitVec.ofNat 64 (len - 1), a, a + BitVec.ofNat 64 (len - 1)].find? outOfRange = none :=
    List.find?_eq_none.mpr (fun y hy => by simpa [outOfRange] using hr y (by simp at hy ⊢; tauto))
  have faultless : lowestTrap [(false, .addrRange, 0), poisonTrap ps] = none :=
    lowestTrap_unmarked (l := [(false, .addrRange, 0)]) (fun q hq => by rw [List.mem_singleton.mp hq]) hp
  simp only [cpyBytes, if_neg (Nat.ne_of_gt hl), inside, Option.isSome_none, Option.getD_none, faultless]

/-- What a tile copy between address `addr` and handle `hn` does, into the tile or out of it. -/
def copyKind (into : Bool) (addr : BitVec 64) (hn : Nat) (m : Header) : EngKind :=
  if into then .tileIn hn addr m else .tileOut addr hn m

/-- Its ranges, the source before the destination. -/
def copyRanges (into : Bool) (addr : BitVec 64) (m : Header) (tl : Tile) : List (Bool × Range) :=
  let banks : Range := .banks tl.base (tl.base + tl.span)
  if into then memLock false addr.toNat (memSpan m) ++ [(true, banks)] else [(false, banks)] ++ memLock true addr.toNat (memSpan m)

theorem copyKind_seals (into : Bool) (addr : BitVec 64) (hn : Nat) (m : Header) : (copyKind into addr hn m).seals = false := by
  cases into <;> rfl

/-- A tile copy whose header and whose tile meet no condition goes to its engine. -/
theorem cpyTile_accept {s s1 : State} {h : Hart} {a b : Pair} {x hv : Word} {p : Place} {key : Nat} {tl : Tile} {ps : List (Bool × Nat)}
    (hp : Clean ps) (hhv : hv = (if !x.getLsbD 31 then a else b).setWidth 32)
    (hg : s.checkGranules h (if !x.getLsbD 31 then b else a) 64 4 false [] = (.at p key, s1)) (hw : s1.granulesWait h p 4 = false)
    (ht : (s.coreOf h).tile? hv.toNat = some tl)
    (hf : ∀ q ∈ handleFaults (some tl) hv (!!x.getLsbD 31) ++
      copyHeaderFaults (BitVec.ofNat 512 (bytesNat (s1.loadGranules h p key 4).1))
        (if !x.getLsbD 31 then b else a) (some tl) hv (!x.getLsbD 31), q.1 = false) (col : Bool) (dst : Dest) :
    let r := s1.loadGranules h p key 4
    let m : Header := BitVec.ofNat 512 (bytesNat r.1)
    let into := !x.getLsbD 31
    let addr := if into then b else a
    cpyTile s h a b x col dst false ps = acceptOp r.2.2 h dst (copyKind into addr hv.toNat m) (copyRanges into addr m tl)
      (if into then some (hv.toNat, geoOf m) else none) := by
  subst hhv
  obtain ⟨handle, header⟩ := List.forall_mem_append.mp hf
  have faultless {into : Bool} := lowestTrap_unmarked (l := if into then _ ++ _ else _ ++ _) (by
    cases into
    · exact List.forall_mem_append.mpr ⟨handle, header⟩
    · exact List.forall_mem_append.mpr ⟨header, handle⟩) hp
  simp only [cpyTile, hg, State.withGranules_ready hw, ht, faultless]
  cases x.getLsbD 31 <;> rfl

/-- The fields of a copy or gather whose sources are not poisoned. -/
theorem clean_sources {s : State} {h : Hart} {f : Fields} {dst : List OpUse}
    (hs : Sources s h [(f.a, .pair), (f.b, .pair), (f.c, .w32)] dst) :
    Clean [(s.opPoison h f.a .pair, 0), (s.opPoison h f.b .pair, 1), (s.opPoison h f.c .w32, 2)] := clean_three hs.2 clean_nil

section
variable {s : State} {h : Hart} {f : Fields} (hs : Sources s h [(f.a, .pair), (f.b, .pair), (f.c, .w32)] (f.dst .w32)) (col : Bool)
include hs

/-- Bit 30 of c, clear, makes a byte copy. -/
theorem laneCpy_bytes (h30 : (s.op32 h f.c).getLsbD 30 = false) :
    laneCpy f col h s = cpyBytes s h (s.opPair h f.a) (s.opPair h f.b) ((s.op32 h f.c).toNat % 2 ^ 24) f.dest
      [(s.opPoison h f.a .pair, 0), (s.opPoison h f.b .pair, 1), (s.opPoison h f.c .w32, 2)] := by
  rw [laneCpy, guardOps_named hs.1]
  simp only [h30]
  rfl

/-- Set, it makes a tile copy. -/
theorem laneCpy_tile (h30 : (s.op32 h f.c).getLsbD 30 = true) :
    laneCpy f col h s = cpyTile s h (s.opPair h f.a) (s.opPair h f.b) (s.op32 h f.c) col f.dest false
      [(s.opPoison h f.a .pair, 0), (s.opPoison h f.b .pair, 1), (s.opPoison h f.c .w32, 2)] := by
  have pa := opPoison_of_opsPoison hs.2 (o := f.a) (w := .pair) (by simp)
  have pb := opPoison_of_opsPoison hs.2 (o := f.b) (w := .pair) (by simp)
  rw [laneCpy, guardOps_named hs.1]
  simp only [h30, if_true, pa, pb, ite_self]

end

/-! ## GTH (R241, R242) -/

/-- A gather of no record ends at issue. -/
theorem laneGth_empty {s : State} {h : Hart} {f : Fields} (hs : Sources s h [(f.a, .pair), (f.b, .pair), (f.c, .w32)] (f.dst .w32))
    (hc : (s.op32 h f.c).toNat % 65536 = 0) : laneGth f h s = endAtIssue s h f.dest none := by
  rw [laneGth, guardOps_named hs.1]
  simp only [hc, if_true]
  exact firstTrap_none (fun q hq => by rw [List.mem_singleton.mp hq, poisonTrap_clean (clean_sources hs)]) _

/-- One of some records goes on to its list. -/
theorem laneGth_records {s : State} {h : Hart} {f : Fields} (hs : Sources s h [(f.a, .pair), (f.b, .pair), (f.c, .w32)] (f.dst .w32))
    (hc : 0 < (s.op32 h f.c).toNat % 65536) :
    laneGth f h s = gthWith s h (s.opPair h f.a) (s.opPair h f.b) (s.op32 h f.c) f.dest false false
      [(s.opPoison h f.a .pair, 0), (s.opPoison h f.b .pair, 1), (s.opPoison h f.c .w32, 2)] := by
  have pa := opPoison_of_opsPoison hs.2 (o := f.a) (w := .pair) (by simp)
  have pb := opPoison_of_opsPoison hs.2 (o := f.b) (w := .pair) (by simp)
  rw [laneGth, guardOps_named hs.1]
  simp only [if_neg (Nat.ne_of_gt hc), pa, pb]

section
variable {s s1 : State} {h : Hart} {a b : Pair} {x : Word} {p : Place} {key : Nat} {ps : List (Bool × Nat)}
  (hp : Clean ps) (hm : (s1.loadGranules h p key 1).2.1 = false)
  (aligned : (BitVec.ofNat 64 (bytesNat ((s1.loadGranules h p key 1).1.take 8))).toNat % (16 * 2 ^ (x.toNat / 2 ^ 30)) = 0)
  (inside : (BitVec.ofNat 64 (bytesNat ((s1.loadGranules h p key 1).1.take 8))).toNat < 2 ^ 60)
  (hd : ∀ q ∈ gatherDestFaults ((s.coreOf h).tile? (a.toNat % 2 ^ 32)) a false x (16 * 2 ^ (x.toNat / 2 ^ 30)) (x.toNat % 65536),
    q.1 = false)
include hp hm aligned inside hd

/-- A gather whose list header is read unpoisoned and whose destination raises no condition meets none. -/
theorem gth_faultless :
    let r := s1.loadGranules h p key 1
    let base : BitVec 64 := BitVec.ofNat 64 (bytesNat (r.1.take 8))
    let grain := 16 * 2 ^ (x.toNat / 2 ^ 30)
    lowestTrap (gatherDestFaults ((s.coreOf h).tile? (a.toNat % 2 ^ 32)) a false x grain (x.toNat % 65536)
      ++ [(decide (base.toNat % grain ≠ 0), .addrAlign, base), (outOfRange base, .addrRange, base)]
      ++ [poisonTrap (ps ++ [(r.2.1, 1)])]) = none := by
  refine lowestTrap_unmarked (List.forall_mem_append.mpr ⟨hd, ?_⟩) (clean_append hp (clean_singleton 1 hm))
  simpa [outOfRange] using ⟨aligned, inside⟩

variable (hg : s.checkGranules h b 16 1 false [] = (.at p key, s1)) (hw : s1.granulesWait h p 1 = false)
include hg hw

/-- It goes to its engine, to memory. -/
theorem gthWith_mem (h29 : x.getLsbD 29 = false) (dst : Dest) :
    let r := s1.loadGranules h p key 1
    let base : BitVec 64 := BitVec.ofNat 64 (bytesNat (r.1.take 8))
    let grain := 16 * 2 ^ (x.toNat / 2 ^ 30)
    let count := x.toNat % 65536
    gthWith s h a b x dst false false ps = acceptOp r.2.2 h dst (.gatherMem b base grain count a)
      (memLock false b.toNat (16 + 4 * count) ++ memLock true a.toNat (count * grain)) none := by
  have faultless := gth_faultless hp hm aligned inside hd
  simp only [gthWith, hg, State.withGranules_ready hw, faultless, h29]
  rfl

/-- Or to a tile. -/
theorem gthWith_tile (h29 : x.getLsbD 29 = true) {tl : Tile} (ht : (s.coreOf h).tile? (a.toNat % 2 ^ 32) = some tl) (dst : Dest) :
    let r := s1.loadGranules h p key 1
    let base : BitVec 64 := BitVec.ofNat 64 (bytesNat (r.1.take 8))
    let grain := 16 * 2 ^ (x.toNat / 2 ^ 30)
    let count := x.toNat % 65536
    gthWith s h a b x dst false false ps = acceptOp r.2.2 h dst (.gatherTile b base grain count (a.toNat % 2 ^ 32))
      (memLock false b.toNat (16 + 4 * count) ++ [(true, .banks tl.base (tl.base + tl.span))])
      (some (a.toNat % 2 ^ 32, geoOf tl.hdr)) := by
  have faultless := gth_faultless hp hm aligned inside hd
  simp only [ht] at faultless
  simp only [gthWith, hg, State.withGranules_ready hw, ht, faultless, h29, if_true]

end

end Sys2Proof.Machine

namespace Sys2Proof.Claims
open Sys2Proof.Machine

/-- Settles O26: CPY and GTH by what their lanes come to, an operation accepted or ended at issue. -/
theorem copiesAndGathersComplete : Obligations.CopiesAndGathersComplete := by
  unfold Obligations.CopiesAndGathersComplete
  refine ⟨fun s c t w f col ht hs hw => ⟨fun h30 hl => ?_, fun h30 hl hr room => ?_, fun h30 s1 p key tl hg hwait hx hf room => ?_⟩,
    fun s c t w f ht hs hw => ⟨fun hc => ?_, fun hc s1 p key hg hwait hm aligned inside hd =>
      ⟨fun h29 room => ?_, fun h29 tl hx room => ?_⟩⟩⟩
  · exact exec_ended ht rfl ((laneCpy_bytes hs col h30).trans (by rw [hl]; exact cpyBytes_empty s _ _ _ _ (clean_sources hs))) hw
  · exact exec_accepted ht rfl ((laneCpy_bytes hs col h30).trans (cpyBytes_accept s _ _ (clean_sources hs) hl hr)) room rfl
  · rw [BitVec.ofNat_toNat, BitVec.setWidth_eq] at hf
    exact exec_accepted ht rfl ((laneCpy_tile hs col h30).trans (cpyTile_accept (clean_sources hs) rfl hg hwait hx hf col _)) room
      (copyKind_seals _ _ _ _)
  · exact exec_ended ht rfl (laneGth_empty hs hc) hw
  · exact exec_accepted ht rfl ((laneGth_records hs hc).trans
      (gthWith_mem (clean_sources hs) hm aligned inside hd hg hwait h29 _)) room rfl
  · exact exec_accepted ht rfl ((laneGth_records hs hc).trans
      (gthWith_tile (clean_sources hs) hm aligned inside hd hg hwait h29 hx _)) room rfl

end Sys2Proof.Claims
end

section
/-! PROOFS of 05_tiles, engines: tasks and copies start, write their granules, end and fail. -/

set_option Elab.async false

namespace Sys2Proof.Machine
open Sys2Proof.Laws Sys2Proof.Claims

/-! ## The end of a task (R177, R178) -/

/-! What the end of a task writes before its record goes leaves the table. -/

theorem Core.putTask_tasks (k : Core) (t : Task) (w : SpWrite × Bool) : (k.putTask t w).tasks = k.tasks := by
  unfold Core.putTask
  dsimp only
  split <;> rfl

theorem Core.foldl_putTask_tasks (t : Task) (ws : List (SpWrite × Bool)) (k : Core) :
    (ws.foldl (fun k w => k.putTask t w) k).tasks = k.tasks := by
  induction ws generalizing k with
  | nil => rfl
  | cons w ws ih => rw [List.foldl_cons, ih, Core.putTask_tasks]

theorem Core.putUnit_tasks (k : Core) (d : Tile) (v : TileVal) : (k.putUnit d v).tasks = k.tasks := by
  unfold Core.putUnit
  dsimp only
  split <;> rfl

theorem Core.markTile_tasks (k : Core) (n v : Nat) : (k.markTile n v).tasks = k.tasks := by
  unfold Core.markTile
  split <;> rfl

theorem Core.modThread_tasks (k : Core) (t : Nat) (f : Thread → Thread) : (k.modThread t f).tasks = k.tasks := rfl

/-- A task that ends leaves the others in the table. -/
theorem Core.finishTask_tasks (k : Core) (t : Task) : (k.finishTask t).tasks = k.tasks.filter (fun x => x.token ≠ t.token) := by
  unfold Core.finishTask
  dsimp only
  congr 1
  split
  · rfl
  · rw [Core.modThread_tasks, Core.markTile_tasks]
    split
    · exact Core.foldl_putTask_tasks ..
    · exact Core.putUnit_tasks ..

/-- None of its ranges is left. -/
theorem Core.finishTask_locks (k : Core) (t : Task) : ∀ l ∈ (k.finishTask t).locks, ¬(l.matrix = true ∧ l.token = t.token) := by
  intro l hl ⟨matrix, token⟩
  have kept := (List.mem_filter.mp hl).2
  simp [matrix, token] at kept

/-! ## The events of the engines -/

/-- A free engine takes the oldest Ready task (R175). -/
theorem exec_taskStart {s : State} {c : Nat} {t : Task} {e : Nat} (ht : (s.core c).readyTask = some t)
    (he : (s.core c).freeEngine = some e) :
    exec (.taskStart c) s = .next (s.modCore c (fun k => { k with
      tasks := k.tasks.map (fun x => if x.token = t.token then { x with running := some e } else x) })) := by
  show execTaskStart c s = _
  simp only [execTaskStart, ht, he]

theorem exec_taskComplete {s : State} {c : Nat} {token : BitVec 16} {t : Task} (ht : (s.core c).runningTask token = some t) :
    exec (.taskComplete c token) s = .next (((s.modCore c (·.finishTask t)).wakeTasks c).wakeWf c) := by
  show execTaskComplete c token s = _
  simp only [execTaskComplete, ht]

section
variable {s : State} {c : Nat} {token : BitVec 16} {op : EngOp} (ho : s.runningOp c token = some op)
include ho

/-- A copy that needs no page and meets no fault completes (R236). -/
theorem exec_copyComplete_whole (hm : (s.plan c op).1.missing = []) (hf : (s.plan c op).1.faults = []) :
    exec (.copyComplete c token) s = .next ((s.plan c op).2.completeOp c op (s.plan c op).1) := by
  show execCopyComplete c token s = _
  simp only [execCopyComplete, ho, hm, hf]
  rfl

/-- One that needs pages has them migrated. -/
theorem exec_copyComplete_missing (hm : (s.plan c op).1.missing ≠ []) :
    exec (.copyComplete c token) s = .next (s.startPages c op (s.plan c op).1.missing) := by
  show execCopyComplete c token s = _
  simp only [execCopyComplete, ho]
  rw [if_pos (by simpa using hm)]

/-- One that meets a fault fails. -/
theorem exec_copyFail (hf : (s.plan c op).1.faults ≠ []) :
    exec (.copyFail c token) s = .next ((s.plan c op).2.failOp c op (s.plan c op).1 (s.plan c op).1.faults) := by
  show execCopyFail c token s = _
  simp only [execCopyFail, ho]
  rw [if_neg (by simpa using hf)]

/-- A granule of a copy becomes Full before its end (R119). -/
theorem exec_granuleWrite_op {g : Nat} {w : SpWrite} (hd : op.done.contains g = false) (hw : (s.plan c op).1.early g = some w) :
    exec (.engineGranuleWrite c false token g) s = .next ((((s.plan c op).2.dropReads s).modCore c (fun k =>
      { k.putSp w op.view with
        ops := (k.putSp w op.view).ops.map (fun x => if x.token = token then { x with done := x.done ++ [g] } else x) })).wakeWf c) := by
  show execEngineGranuleWrite c false token g s = _
  simp only [execEngineGranuleWrite, ho, hd, hw]
  rfl

end

/-- A granule of a task that no error has touched becomes Full before its end (R119, R180). -/
theorem exec_granuleWrite_task {s : State} {c : Nat} {token : BitVec 16} {g x : Nat} {t : Task} {d : Tile} {v : TileVal} {fl : FlagSet}
    {w : SpWrite × Bool} (ht : (s.core c).runningTask token = some t) (hr : (s.core c).taskResult t = some (d, v, fl, x))
    (hl : d.lv = .sp) (hab : t.ha ≠ t.hb) (hd : t.done.contains g = false)
    (hw : (t.spWrites d v).find? (fun w => w.1.g == g && !w.2) = some w) :
    exec (.engineGranuleWrite c true token g) s = .next ((s.modCore c (fun k =>
      { k.putTask t w with
        tasks := (k.putTask t w).tasks.map (fun x => if x.token = token then { x with done := x.done ++ [g] } else x) })).wakeWf c) := by
  have writes : (decide (d.lv = .sp) && decide (t.ha ≠ t.hb) && !t.done.contains g) = true := by
    rw [hd]
    simp [hl, hab]
  show execEngineGranuleWrite c true token g s = _
  simp only [execEngineGranuleWrite, ht, hr, if_true]
  rw [if_pos writes]
  simp only [hw]

end Sys2Proof.Machine

namespace Sys2Proof.Claims
open Sys2Proof.Machine

/-- Settles O28: each event of the engines, by the task or the operation that it finds. -/
theorem engineEventsHappen : Obligations.EngineEventsHappen := by
  unfold Obligations.EngineEventsHappen
  refine fun s c token g => ⟨fun t e ht he => ⟨_, exec_taskStart ht he, rfl, by simp⟩,
    fun t ht => ⟨exec_taskComplete ht, Core.finishTask_tasks _ _, Core.finishTask_locks _ _⟩,
    fun op ho => ⟨exec_copyComplete_whole ho, exec_copyComplete_missing ho, exec_copyFail ho,
      fun w hd hw => exec_granuleWrite_op ho hd hw⟩,
    fun t d v x y w ht hr hl hab hd hw => exec_granuleWrite_task ht hr hl hab hd hw⟩

end Sys2Proof.Claims
end

section
/-! PROOFS of 06_integer_instructions, completion: every instruction of one word or pair result runs a lane that checks its fields and then
ends with its result. -/

set_option Elab.async false

namespace Sys2Proof.Machine
open Sys2Proof.Laws Sys2Proof.Claims

/-! ## Readings and pairs (R33, R136) -/

theorem readEl_signed (a : Word) : readEl false 32 a.toNat = a.toInt := by
  rw [readEl, BitVec.toInt_eq_toNat_cond]
  simp only [Bool.false_or, decide_eq_true_eq]
  split <;> split <;> omega

theorem readEl_unsigned (w n : Nat) : readEl true w n = n := by simp [readEl]

theorem toNat_pairOf (lo hi : Word) : (pairOf lo hi).toNat = hi.toNat * 2 ^ 32 + lo.toNat := by
  rw [pairOf, BitVec.toNat_append, Nat.shiftLeft_eq, Nat.mul_comm, Nat.two_pow_add_eq_or_of_lt lo.isLt]

@[simp] theorem pairOf_lo (lo hi : Word) : (pairOf lo hi).lo = lo := by
  apply BitVec.eq_of_toNat_eq
  rw [Pair.lo, BitVec.toNat_setWidth, toNat_pairOf]
  omega

@[simp] theorem pairOf_hi (lo hi : Word) : (pairOf lo hi).hi = hi := by
  apply BitVec.eq_of_toNat_eq
  rw [Pair.hi, BitVec.toNat_setWidth, BitVec.toNat_ushiftRight, Nat.shiftRight_eq_div_pow, toNat_pairOf]
  omega

/-! ## Operations that the statements give in another way (R139, R142) -/

theorem addcOp_eq (a b c : Word) : addcOp a b c = BitVec.ofNat 64 (a.toNat + b.toNat + c.toNat % 2) := by
  rw [addcOp, Nat.div_add_mod']

theorem subbOp_eq (a b c : Word) : subbOp a b c =
    pairOf (a - b - BitVec.ofNat 32 (c.toNat % 2)) (if a.toNat < b.toNat + c.toNat % 2 then 1 else 0) := by
  have borrows : (a.toNat : Int) - b.toNat - c.toNat % 2 < 0 ↔ a.toNat < b.toNat + c.toNat % 2 := by omega
  apply BitVec.eq_of_toNat_eq
  rw [subbOp, toNat_pairOf, BitVec.toNat_ofNat, narrow]
  simp only [borrows, BitVec.toNat_sub, BitVec.toNat_ofNat]
  split
  · rw [show (1 : Word).toNat = 1 from rfl]
    omega
  · rw [show (0 : Word).toNat = 0 from rfl]
    omega

/-- CMP without ONES gives 1 or 0. -/
theorem cmpOp_one {m : IntMod} (ones : m.ones = false) (a b : Word) :
    cmpOp m a b = if condHolds m.cond (readEl m.u 32 a.toNat) (readEl m.u 32 b.toNat) then 1 else 0 := by
  simp [cmpOp, ones]

/-! ## What each instruction runs (Table 6-1, Table 7-1) -/

/-- A lane of two operands ends with the result of any operation that agrees with its own. -/
theorem lane2_of_two {s : State} {h : Hart} {f : Fields} {ew : EW} {op op' : Word → Word → Word × FlagSet} {r : WordResult}
    (hr : two s h f ew op = some r) (same : ∀ a b, op' a b = op a b) :
    lane2 f ew op' h s = guardOps s h (r.uses ++ r.f.dst .w32) (.ok (r.state h s)) := by
  obtain rfl : op' = op := funext fun a => funext (same a)
  cases hr
  rfl

/-- Each constructor of a word result runs a lane that is that result by definition, but for the comparisons of the W form: they are CMP with
the condition and the reading of their name. -/
theorem exec_intWord {s : State} {h : Hart} {i : Instr} {r : WordResult} (hr : intWord s h i = some r) :
    ∃ l, exec i s = issue 0 .all i l s ∧ l h s = guardOps s h (r.uses ++ r.f.dst .w32) (.ok (r.state h s)) := by
  cases i with
  | cmpEqW f =>
    rw [intWord] at hr
    exact ⟨_, rfl, lane2_of_two hr fun a b => by simp [cmpOp_one, condHolds, readEl_signed, BitVec.toInt_inj]⟩
  | cmpNeW f =>
    rw [intWord] at hr
    exact ⟨_, rfl, lane2_of_two hr fun a b => by simp [cmpOp_one, condHolds, readEl_signed, BitVec.toInt_inj]⟩
  | cmpLtW f =>
    rw [intWord] at hr
    exact ⟨_, rfl, lane2_of_two hr fun a b => by simp [cmpOp_one, condHolds, readEl_signed]⟩
  | cmpGeW f =>
    rw [intWord] at hr
    exact ⟨_, rfl, lane2_of_two hr fun a b => by simp [cmpOp_one, condHolds, readEl_signed]⟩
  | cmpLtUW f =>
    rw [intWord] at hr
    exact ⟨_, rfl, lane2_of_two hr fun a b => by simp [cmpOp_one, condHolds, readEl_unsigned]⟩
  | cmpGeUW f =>
    rw [intWord] at hr
    exact ⟨_, rfl, lane2_of_two hr fun a b => by simp [cmpOp_one, condHolds, readEl_unsigned]⟩
  | _ => cases hr <;> exact ⟨_, rfl, rfl⟩

theorem exec_floatWord {s : State} {h : Hart} {i : Instr} {r : WordResult} (hr : floatWord s h i = some r) :
    ∃ l, exec i s = issue 0 .all i l s ∧ l h s = guardOps s h (r.uses ++ r.f.dst .w32) (.ok (r.state h s)) := by
  cases i with
  | _ => cases hr <;> exact ⟨_, rfl, rfl⟩

/-- A lane of three operands and a pair result ends with the result of any operation that agrees with its own. -/
theorem lane3Pair_of_wide3 {s : State} {h : Hart} {f : Fields} {op op' : Word → Word → Word → Pair} {r : PairResult}
    (hr : wide3 s h f op = some r) (same : ∀ a b c, op' a b c = op a b c) :
    lane3Pair f op' h s =
      guardOps s h (r.uses ++ r.f.dst .pair) (.ok (s.putPair h r.f.dest r.val (s.opsPoison h r.uses))) := by
  obtain rfl : op' = op := funext fun a => funext fun b => funext (same a b)
  cases hr
  rfl

theorem exec_intPair {s : State} {h : Hart} {i : Instr} {r : PairResult} (hr : intPair s h i = some r) :
    ∃ l, exec i s = issue 0 .all i l s ∧
      l h s = guardOps s h (r.uses ++ r.f.dst .pair) (.ok (s.putPair h r.f.dest r.val (s.opsPoison h r.uses))) := by
  cases i with
  | addc f =>
    rw [intPair] at hr
    exact ⟨_, rfl, lane3Pair_of_wide3 hr addcOp_eq⟩
  | subb f =>
    rw [intPair] at hr
    exact ⟨_, rfl, lane3Pair_of_wide3 hr subbOp_eq⟩
  | _ => cases hr <;> exact ⟨_, rfl, rfl⟩

/-! ## Completion -/

/-- An instruction whose lane checks its fields and then ends completes where the fields raise no trap. -/
theorem exec_of_guarded {s t : State} {h : Hart} {i : Instr} {us : List OpUse} (ht : Turn s h) (hn : Named s h us)
    (he : ∃ l, exec i s = issue 0 .all i l s ∧ l h s = guardOps s h us (.ok t)) : exec i s = .next (done h i s t) := by
  obtain ⟨l, runs, ends⟩ := he
  exact exec_of_lane ht runs (ends.trans (guardOps_named hn _))

end Sys2Proof.Machine

namespace Sys2Proof.Claims
open Sys2Proof.Machine

/-- Settles O1: each integer instruction of a word result runs a lane that ends with that result. -/
theorem integerWordCompletes : Obligations.IntegerWordCompletes := by
  unfold Obligations.IntegerWordCompletes
  exact fun s h i r ht hr hn => exec_of_guarded ht hn (exec_intWord hr)

/-- Settles O2: so does each of a pair result; ADDC and SUBB with the carry and the borrow above the sum and the difference. -/
theorem integerPairCompletes : Obligations.IntegerPairCompletes := by
  unfold Obligations.IntegerPairCompletes
  exact fun s h i r ht hr hn => exec_of_guarded ht hn (exec_intPair hr)

end Sys2Proof.Claims
end

section
/-! PROOFS of 06_integer_instructions, frames: what the result of an instruction changes in its hart, what it leaves everywhere else, and the
values of the logic, carry and sign instructions. -/

set_option Elab.async false

namespace Sys2Proof.Machine
open Sys2Proof.Laws Sys2Proof.Claims

/-! ## A thread after a result (R34, R135) -/

theorem Thread.writeReg_reg (th : Thread) (n m : Nat) (v : Word) (p : Bool) :
    (th.writeReg n v p).reg m = if m = n then v else th.reg m := mget_mset 0 th.regs n m v

theorem Thread.writeReg_regPoison (th : Thread) (n m : Nat) (v : Word) (p : Bool) :
    (th.writeReg n v p).regPoison m = if m = n then p else th.regPoison m := mget_mset false th.poison n m p

theorem Fields.dest_toNat {f : Fields} (hd : f.d < 256) : f.dest.d.toNat = f.d := by
  rw [Fields.dest, BitVec.toNat_ofNat]
  exact Nat.mod_eq_of_lt hd

/-- With N a result is pushed alone. -/
theorem Thread.put32_n (th : Thread) {f : Fields} (hn : f.n = true) (v : Word) (p : Bool) :
    th.put32 f.dest v p = th.push ⟨v.setWidth 64, false, p⟩ := by
  simp [Thread.put32, Fields.dest, hn]

theorem Thread.putPair_n (th : Thread) {f : Fields} (hn : f.n = true) (v : Pair) (p : Bool) :
    th.putPair f.dest v p = th.push ⟨v, true, p⟩ := by
  simp [Thread.putPair, Fields.dest, hn]

/-- Without N its registers are written first. -/
theorem Thread.put32_written (th : Thread) {f : Fields} (hn : f.n = false) (hd : f.d < 256) (v : Word) (p : Bool) :
    th.put32 f.dest v p = (th.writeReg f.d v p).push ⟨v.setWidth 64, false, p⟩ := by
  simp [Thread.put32, show f.dest.n = false from hn, Fields.dest_toNat hd]

theorem Thread.putPair_written (th : Thread) {f : Fields} (hn : f.n = false) (hd : f.d < 256) (v : Pair) (p : Bool) :
    th.putPair f.dest v p = ((th.writeReg f.d v.lo p).writeReg (f.d + 1) v.hi p).push ⟨v, true, p⟩ := by
  simp [Thread.putPair, show f.dest.n = false from hn, Fields.dest_toNat hd]

/-- Registers `ds` and their poison, the window, and flags `fl` are all that `th'` has other than `th`. -/
structure Thread.Result (th th' : Thread) (ds : List Nat) (fl : FlagSet) : Prop where
  regs : ∀ r, r ∉ ds → th'.reg r = th.reg r ∧ th'.regPoison r = th.regPoison r
  rest : th' = { th with regs := th'.regs, poison := th'.poison, latches := th'.latches, flags := th.flags ||| fl }
  window : th'.latches.tail = th.latches.take 7

theorem Thread.result_push (th : Thread) (l : Latch) : th.Result (th.push l) [] 0 :=
  ⟨fun _ _ => ⟨rfl, rfl⟩, by simp [Thread.push], rfl⟩

/-- A register written before the result is one of those that it writes. -/
theorem Thread.Result.of_writeReg {th th' : Thread} {n : Nat} {v : Word} {p : Bool} {ds : List Nat} {fl : FlagSet}
    (h : (th.writeReg n v p).Result th' ds fl) : th.Result th' (n :: ds) fl := by
  refine ⟨fun r hr => ?_, h.rest, h.window⟩
  have other := List.ne_of_not_mem_cons hr
  simpa only [Thread.writeReg_reg, Thread.writeReg_regPoison, if_neg other] using h.regs r (List.not_mem_of_not_mem_cons hr)

/-- Flags raised before it are those that it raises. -/
theorem Thread.Result.of_raise {th th' : Thread} {ds : List Nat} {fl : FlagSet} (h : (th.raise fl).Result th' ds 0) :
    th.Result th' ds fl :=
  ⟨h.regs, h.rest.trans (by simp [Thread.raise]), h.window⟩

theorem Thread.put32_result (th : Thread) {f : Fields} (hd : f.d < 256) (v : Word) (p : Bool) :
    th.Result (th.put32 f.dest v p) (Fields.writes f .w32) 0 := by
  cases hn : f.n with
  | true =>
    rw [th.put32_n hn, Fields.writes, if_pos hn]
    exact th.result_push _
  | false =>
    rw [th.put32_written hn hd, Fields.writes, if_neg (by simp [hn])]
    exact .of_writeReg (Thread.result_push _ _)

theorem Thread.putPair_result (th : Thread) {f : Fields} (hd : f.d < 256) (v : Pair) (p : Bool) :
    th.Result (th.putPair f.dest v p) (Fields.writes f .pair) 0 := by
  cases hn : f.n with
  | true =>
    rw [th.putPair_n hn, Fields.writes, if_pos hn]
    exact th.result_push _
  | false =>
    rw [th.putPair_written hn hd, Fields.writes, if_neg (by simp [hn])]
    exact .of_writeReg (.of_writeReg (Thread.result_push _ _))

end Sys2Proof.Machine

namespace Sys2Proof.Claims
open Sys2Proof.Machine Sys2Proof.Laws

/-! ## Everything but the hart (R130) -/

theorem OthersKept.trans {s t u : State} {h : Hart} (a : OthersKept s t h) (b : OthersKept t u h) : OthersKept s u h := by
  obtain ⟨harts, mem, poison, key, cores, mgmt, io, sched, keys, errors, out, rest⟩ := a
  obtain ⟨harts', mem', poison', key', cores', mgmt', io', sched', keys', errors', out', rest'⟩ := b
  exact ⟨fun h' ho => (harts' h' ho).trans (harts h' ho), fun x => (mem' x).trans (mem x), poison'.trans poison, key'.trans key,
    fun c => (cores' c).trans (cores c), mgmt'.trans mgmt, io'.trans io, sched'.trans sched, keys'.trans keys,
    errors'.trans errors, out'.trans out,
    (congrArg (fun x : State => { x with cores := s.cores, mgmt := s.mgmt }) rest').trans rest⟩

/-- A thread of a core leaves everything but itself. -/
theorem othersKept_setCoreThread (s : State) {h : Hart} {c : Nat} (hc : h.core? = some c) (th : Thread) :
    OthersKept s (s.modCore c (·.setThread h.key th)) h := by
  have kept (h' : Hart) (c' : Nat) (hc' : h'.core? = some c') (ho : OtherHart h h') :
      ((s.modCore c (·.setThread h.key th)).core c').thread h'.key = (s.core c').thread h'.key := by
    rw [core_modCore]
    split
    · next e =>
      have apart : h'.key ≠ h.key := ho.resolve_left (fun ne => ne (by rw [hc, hc', e]))
      rw [thread_setThread, if_neg apart, e]
    · rfl
  refine ⟨fun h' ho => ?_, fun _ => rfl, rfl, rfl, fun c' => ?_, rfl, rfl, rfl, rfl, rfl, rfl, rfl⟩
  · cases h' with
    | user c' t' => exact kept (.user c' t') c' rfl ho
    | sup c' l' => exact kept (.sup c' l') c' rfl ho
    | mgmt => rfl
  · rw [core_modCore]
    split
    · next e => rw [e]; rfl
    · rfl

theorem othersKept_modThread (s : State) (h : Hart) (f : Thread → Thread) : OthersKept s (s.modThread h f) h := by
  cases h with
  | user c t => exact othersKept_setCoreThread s (h := .user c t) rfl _
  | sup c l => exact othersKept_setCoreThread s (h := .sup c l) rfl _
  | mgmt =>
    refine ⟨fun h' ho => ?_, fun _ => rfl, rfl, rfl, fun _ => rfl, rfl, rfl, rfl, rfl, rfl, rfl, rfl⟩
    cases h' with
    | mgmt => exact absurd ho (by simp [OtherHart])
    | _ => rfl

/-! ## An instruction after its result -/

theorem WordResult.state_thread (r : WordResult) (h : Hart) (s : State) :
    (r.state h s).thread h = ((s.thread h).raise (r.flags.getD 0)).put32 r.f.dest r.val r.poison := by
  rw [WordResult.state, State.put32, State.modThread_thread]
  cases r.flags with
  | some fl => simp only [State.raise, State.modThread_thread, Option.getD_some]
  | none => simp [Thread.raise]

theorem WordResult.state_othersKept (r : WordResult) (h : Hart) (s : State) : OthersKept s (r.state h s) h := by
  rw [WordResult.state]
  cases r.flags with
  | some fl => exact (othersKept_modThread s h _).trans (othersKept_modThread _ h _)
  | none => exact othersKept_modThread s h _

theorem done_thread (s u : State) (h : Hart) (i : Instr) :
    (done h i s u).thread h = { u.thread h with pc := nextPc s h i, age := 0 } := State.modThread_thread u h _

/-- An instruction that leaves its hart a result, and everything else, ends having written that result alone. -/
theorem onlyWrites_done {s u : State} {h : Hart} {ds : List Nat} {fl : FlagSet} (i : Instr)
    (hr : (s.thread h).Result (u.thread h) ds fl) (ho : OthersKept s u h) : OnlyWrites s (done h i s u) h i ds fl := by
  unfold OnlyWrites
  rw [done_thread]
  refine ⟨hr.regs, ?_, hr.window, ho.trans (othersKept_modThread u h _)⟩
  exact congrArg (fun th : Thread => { th with pc := nextPc s h i, age := 0 }) hr.rest

/-- The registers of its destination hold the result and its poison, and so does L1. -/
theorem wordPut_done {s u : State} {h : Hart} {f : Fields} {th : Thread} {v : Word} {p : Bool} (i : Instr) (hd : f.d < 256)
    (hu : u.thread h = th.put32 f.dest v p) : WordPut (done h i s u) h f v p := by
  unfold WordPut
  rw [done_thread, hu]
  refine ⟨fun hn => ?_, rfl⟩
  rw [th.put32_written hn hd]
  simp [Thread.reg, Thread.regPoison, Thread.writeReg, Thread.push]

theorem pairPut_done {s u : State} {h : Hart} {f : Fields} {th : Thread} {v : Pair} {p : Bool} (i : Instr) (hd : f.d < 256)
    (hu : u.thread h = th.putPair f.dest v p) : PairPut (done h i s u) h f v p := by
  unfold PairPut
  rw [done_thread, hu]
  refine ⟨fun hn => ?_, rfl⟩
  rw [th.putPair_written hn hd]
  simp [Thread.reg, Thread.regPoison, Thread.writeReg, Thread.push]

/-- An instruction of a word result that completes writes its destination alone, with its value. -/
theorem WordResult.frame (r : WordResult) (s : State) (h : Hart) (i : Instr) (hd : r.f.d < 256) :
    OnlyWrites s (done h i s (r.state h s)) h i (Fields.writes r.f .w32) (r.flags.getD 0) ∧
      WordPut (done h i s (r.state h s)) h r.f r.val r.poison := by
  refine ⟨onlyWrites_done i ?_ (r.state_othersKept h s), wordPut_done i hd (r.state_thread h s)⟩
  rw [r.state_thread]
  exact .of_raise (Thread.put32_result _ hd _ _)

/-- So does one of a pair result. -/
theorem PairResult.frame (r : PairResult) (s : State) (h : Hart) (i : Instr) (p : Bool) (hd : r.f.d < 256) :
    OnlyWrites s (done h i s (s.putPair h r.f.dest r.val p)) h i (Fields.writes r.f .pair) 0 ∧
      PairPut (done h i s (s.putPair h r.f.dest r.val p)) h r.f r.val p := by
  have own : (s.putPair h r.f.dest r.val p).thread h = (s.thread h).putPair r.f.dest r.val p := State.modThread_thread s h _
  refine ⟨onlyWrites_done i ?_ (othersKept_modThread s h _), pairPut_done i hd own⟩
  rw [own]
  exact Thread.putPair_result _ hd _ _

/-- Settles O47: the instruction completes with its result, which is written to its hart's thread and nowhere else. -/
theorem registerInstructionsFrame : Obligations.RegisterInstructionsFrame := by
  unfold Obligations.RegisterInstructionsFrame
  refine fun s h i ht => ⟨fun r hr hn hd => ⟨_, exec_of_guarded ht hn ?_, r.frame s h i hd⟩,
    fun r hr hn hd => ⟨_, exec_of_guarded ht hn (exec_intPair hr), r.frame s h i _ hd⟩⟩
  rcases hr with hr | hr
  · exact exec_intWord hr
  · exact exec_floatWord hr

/-! ## The value of an instruction -/

/-- An integer instruction of a word result completes with that result and its flags. -/
theorem exec_intWord_put {s : State} {h : Hart} {i : Instr} {r : WordResult} (ht : Turn s h) (hr : intWord s h i = some r)
    (hn : Named s h (r.uses ++ r.f.dst .w32)) (hd : r.f.d < 256) :
    ∃ u, exec i s = .next u ∧ WordPut u h r.f r.val r.poison ∧ (u.thread h).flags = (s.thread h).flags ||| r.flags.getD 0 := by
  obtain ⟨⟨_, own, _⟩, put⟩ := r.frame s h i hd
  exact ⟨_, exec_of_guarded ht hn (exec_intWord hr), put, congrArg Thread.flags own⟩

/-- One of a single operand puts what its operation gives. -/
theorem exec_one {s : State} {h : Hart} {i : Instr} {f : Fields} {op : Word → Word × FlagSet} (ht : Turn s h)
    (hi : intWord s h i = one s h f op) (hn : Named s h ([(f.b, .w32)] ++ f.dst .w32)) (hd : f.d < 256) :
    ∃ u, exec i s = .next u ∧ WordPut u h f (op (s.op32 h f.b)).1 (s.opsPoison h [(f.b, .w32)]) ∧
      (u.thread h).flags = (s.thread h).flags ||| (op (s.op32 h f.b)).2 :=
  exec_intWord_put ht hi hn hd

/-- Elements of 32 bits read an immediate as any 32-bit operand does. -/
theorem opInt_w32 (s : State) (h : Hart) (o : Opd) : s.opInt h .w32 o = s.op32 h o := by
  cases o with
  | imm v =>
    apply BitVec.eq_of_toNat_eq
    simp only [State.opInt, State.op32, ewWidth, pack, narrow]
    simp
    omega
  | _ => rfl

/-- One of two operands and no flags puts what its operation gives. -/
theorem exec_two {s : State} {h : Hart} {i : Instr} {f : Fields} (op : Word → Word → Word) (ht : Turn s h)
    (hi : intWord s h i = two s h f .w32 (fun a b => (op a b, 0)))
    (hn : Named s h ([(f.a, .w32), (f.b, .w32)] ++ f.dst .w32)) (hd : f.d < 256) :
    ∃ u, exec i s = .next u ∧ WordPut u h f (op (s.op32 h f.a) (s.op32 h f.b)) (s.opsPoison h [(f.a, .w32), (f.b, .w32)]) := by
  obtain ⟨u, run, put, _⟩ := exec_intWord_put ht hi hn hd
  rw [opInt_w32, opInt_w32] at put
  exact ⟨u, run, put⟩

/-- One of a pair result completes with it, and a 32-bit read of L1 gives its lower half. -/
theorem exec_intPair_put {s : State} {h : Hart} {i : Instr} {r : PairResult} (ht : Turn s h) (hr : intPair s h i = some r)
    (hn : Named s h (r.uses ++ r.f.dst .pair)) (hd : r.f.d < 256) :
    ∃ u, exec i s = .next u ∧ PairPut u h r.f r.val (s.opsPoison h r.uses) ∧ u.op32 h (.latch 0) = r.val.lo := by
  obtain ⟨_, put⟩ := r.frame s h i (s.opsPoison h r.uses) hd
  refine ⟨_, exec_of_guarded ht hn (exec_intPair hr), put, ?_⟩
  rw [State.op32, put.2]
  rfl

theorem DF.fields_d_lt (f : DF) : f.fields.d < 256 := f.d.isLt
theorem CF.fields_d_lt (f : CF) : f.fields.d < 256 := Nat.lt_of_lt_of_le f.d.isLt (by decide)
theorem WF.fields_d_lt (f : WF) : f.fields.d < 256 := Nat.lt_of_lt_of_le f.d.isLt (by decide)
theorem WB.fields_d_lt (f : WB) : f.fields.d < 256 := Nat.lt_of_lt_of_le f.d.isLt (by decide)

/-- Settles O49: each is an instruction of two operands with that operation. -/
theorem logicResults : Obligations.LogicResults := by
  unfold Obligations.LogicResults
  refine fun s h ht => ⟨fun f hn => ?_, fun f hn => ?_, fun f hn => ?_⟩
  · have hd := DF.fields_d_lt f
    exact ⟨exec_two (· &&& ·) ht rfl hn hd, exec_two (· ||| ·) ht rfl hn hd, exec_two (· ^^^ ·) ht rfl hn hd,
      exec_two (· &&& ~~~·) ht rfl hn hd⟩
  · have hd := CF.fields_d_lt f
    exact ⟨exec_two (· &&& ·) ht rfl hn hd, exec_two (· ||| ·) ht rfl hn hd, exec_two (· ^^^ ·) ht rfl hn hd⟩
  · have hd := WF.fields_d_lt f
    exact ⟨exec_two (· &&& ·) ht rfl hn hd, exec_two (· ||| ·) ht rfl hn hd, exec_two (· ^^^ ·) ht rfl hn hd,
      exec_two (· &&& ~~~·) ht rfl hn hd⟩

/-! ## Carry and borrow (R139) -/

/-- A pair that holds a number of fewer than 64 bits holds its quotient by 2^32 above its remainder. -/
theorem lo_hi_ofNat {n : Nat} (hn : n < 2 ^ 64) :
    Pair.lo (BitVec.ofNat 64 n) = BitVec.ofNat 32 n ∧ (Pair.hi (BitVec.ofNat 64 n)).toNat = n / 2 ^ 32 := by
  constructor
  · apply BitVec.eq_of_toNat_eq
    simp only [Pair.lo, BitVec.toNat_setWidth, BitVec.toNat_ofNat]
    omega
  · simp only [Pair.hi, BitVec.toNat_setWidth, BitVec.toNat_ushiftRight, BitVec.toNat_ofNat, Nat.shiftRight_eq_div_pow]
    omega

theorem toNat_difference (a b c : Word) :
    ((a - b - BitVec.ofNat 32 (c.toNat % 2)).toNat : Int) = ((a.toNat : Int) - b.toNat - (c.toNat % 2 : Nat)) % 2 ^ 32 := by
  simp only [BitVec.toNat_sub, BitVec.toNat_ofNat]
  omega

/-- Settles O50: the carry is the part of the sum at and above bit 32, and the borrow whether the difference is negative. -/
theorem carryChain : Obligations.CarryChain := by
  unfold Obligations.CarryChain
  intro s h f ht hn A B k
  have hd := DF.fields_d_lt f
  obtain ⟨u, run, put, latch⟩ := exec_intPair_put (i := .addc f) ht rfl hn hd
  obtain ⟨u', run', put', latch'⟩ := exec_intPair_put (i := .subb f) ht rfl hn hd
  refine ⟨⟨u, _, run, put, ?_, ?_, latch⟩, ⟨u', _, run', put', ?_, ?_, latch'⟩⟩
  · have fits : A + B + k < 2 ^ 64 := by omega
    rw [(lo_hi_ofNat fits).1, BitVec.toNat_ofNat]
  · have fits : A + B + k < 2 ^ 64 := by omega
    exact (lo_hi_ofNat fits).2
  · rw [pairOf_lo]
    exact toNat_difference _ _ _
  · have borrows : (A : Int) - B - k < 0 ↔ A < B + k := by omega
    rw [pairOf_hi, if_congr borrows rfl rfl]
    exact apply_ite BitVec.toNat _ _ _

/-! ## The sign instructions (R143) -/

theorem clampIf_within {sat u : Bool} {w : Nat} {t : Int} (lo : loBound u w ≤ t) (hi : t ≤ hiBound u w) :
    clampIf sat u w t = (t, false) := by
  simp [clampIf, not_lt.mpr lo, not_lt.mpr hi]

/-- A signed value as the word that ABS and NEG give it, clamped with SAT. -/
def signedWord (sat : Bool) (t : Int) : Word × FlagSet :=
  let r := clampIf sat false 32 t
  (BitVec.ofNat 32 (narrow 32 r.1), satIf r.2)

theorem absOp_eq (m : IntMod) (b : Word) : absOp m b = signedWord m.sat |b.toInt| := by
  rw [Int.abs_eq_natAbs]
  rfl

theorem negOp_eq (m : IntMod) (b : Word) : negOp m b = signedWord m.sat (-b.toInt) := rfl

/-- A value of the signed range is exact. -/
theorem signedWord_exact (sat : Bool) {t : Int} (lo : -2 ^ 31 ≤ t) (hi : t < 2 ^ 31) :
    (signedWord sat t).1.toInt = t ∧ (signedWord sat t).2 = 0 := by
  rw [signedWord, clampIf_within (by simpa [loBound] using lo) (by simp [hiBound]; omega)]
  refine ⟨?_, rfl⟩
  show (BitVec.ofNat 32 (narrow 32 t)).toInt = t
  rw [BitVec.toInt_ofNat', narrow, Int.toNat_of_nonneg (Int.emod_nonneg _ (by decide))]
  calc (t % 2 ^ 32).bmod (2 ^ 32) = t.bmod (2 ^ 32) := Int.emod_bmod t _
    _ = t := Int.bmod_eq_of_le (by omega) (by omega)

theorem toInt_of_ne_lowest {b : Word} (hb : b ≠ 0x80000000) : -2 ^ 31 < b.toInt ∧ b.toInt < 2 ^ 31 :=
  ⟨lt_of_le_of_ne b.le_toInt fun e => hb (BitVec.eq_of_toInt_eq e.symm), b.toInt_lt⟩

theorem abs_exact (m : IntMod) {b : Word} (hb : b ≠ 0x80000000) : (absOp m b).1.toInt = |b.toInt| ∧ (absOp m b).2 = 0 := by
  obtain ⟨lo, hi⟩ := toInt_of_ne_lowest hb
  rw [absOp_eq]
  exact signedWord_exact _ (by linarith [abs_nonneg b.toInt]) (abs_lt.mpr ⟨lo, hi⟩)

theorem neg_exact (m : IntMod) {b : Word} (hb : b ≠ 0x80000000) : (negOp m b).1.toInt = -b.toInt ∧ (negOp m b).2 = 0 := by
  obtain ⟨lo, hi⟩ := toInt_of_ne_lowest hb
  rw [negOp_eq]
  exact signedWord_exact _ (by omega) (by omega)

/-- Both give 2^31 for the lowest word, which wraps without SAT. -/
theorem sign_wraps {m : IntMod} {b : Word} (hb : b = 0x80000000) (hm : m.sat = false) :
    absOp m b = (0x80000000, 0) ∧ negOp m b = (0x80000000, 0) := by
  rw [absOp_eq, negOp_eq, hm, hb]
  decide

theorem sign_clamps {m : IntMod} {b : Word} (hb : b = 0x80000000) (hm : m.sat = true) :
    absOp m b = (0x7FFFFFFF, flSAT) ∧ negOp m b = (0x7FFFFFFF, flSAT) := by
  rw [absOp_eq, negOp_eq, hm, hb]
  decide

/-- ABS and NEG of one form, with the three cases of their operand. -/
theorem exec_absNeg {s : State} {h : Hart} {i i' : Instr} {f : Fields} {m : IntMod} (ht : Turn s h)
    (hi : intWord s h i = one s h f (absOp m)) (hi' : intWord s h i' = one s h f (negOp m))
    (hn : Named s h ([(f.b, .w32)] ++ f.dst .w32)) (hd : f.d < 256) :
    let B := s.op32 h f.b
    let p := s.opsPoison h [(f.b, .w32)]
    ∃ u u' v v', exec i s = .next u ∧ exec i' s = .next u' ∧ WordPut u h f v p ∧ WordPut u' h f v' p ∧
      (B ≠ 0x80000000 → (v.toInt = |B.toInt| ∧ v'.toInt = -B.toInt) ∧
        (u.thread h).flags = (s.thread h).flags ∧ (u'.thread h).flags = (s.thread h).flags) ∧
      (B = 0x80000000 → m.sat = false → v = 0x80000000 ∧ v' = 0x80000000 ∧
        (u.thread h).flags = (s.thread h).flags ∧ (u'.thread h).flags = (s.thread h).flags) ∧
      (B = 0x80000000 → m.sat = true → v = 0x7FFFFFFF ∧ v' = 0x7FFFFFFF ∧
        (u.thread h).flags = (s.thread h).flags ||| flSAT ∧ (u'.thread h).flags = (s.thread h).flags ||| flSAT) := by
  intro B p
  obtain ⟨u, run, put, flags⟩ := exec_one ht hi hn hd
  obtain ⟨u', run', put', flags'⟩ := exec_one ht hi' hn hd
  refine ⟨u, u', _, _, run, run', put, put', fun hB => ?_, fun hB hm => ?_, fun hB hm => ?_⟩
  · obtain ⟨abs, none⟩ := abs_exact m hB
    obtain ⟨neg, none'⟩ := neg_exact m hB
    rw [none] at flags
    rw [none'] at flags'
    exact ⟨⟨abs, neg⟩, flags.trans BitVec.or_zero, flags'.trans BitVec.or_zero⟩
  · obtain ⟨abs, neg⟩ := sign_wraps hB hm
    rw [abs] at flags
    rw [neg] at flags'
    exact ⟨congrArg Prod.fst abs, congrArg Prod.fst neg, flags.trans BitVec.or_zero, flags'.trans BitVec.or_zero⟩
  · obtain ⟨abs, neg⟩ := sign_clamps hB hm
    rw [abs] at flags
    rw [neg] at flags'
    exact ⟨congrArg Prod.fst abs, congrArg Prod.fst neg, flags, flags'⟩

/-- Settles O51: the sign operations are exact on every word but the lowest, whose result is 2^31, wrapped or clamped; the W forms are
without SAT. -/
theorem absNegResults : Obligations.AbsNegResults := by
  unfold Obligations.AbsNegResults
  refine fun s h ht => ⟨fun f m hn => exec_absNeg ht rfl rfl hn (DF.fields_d_lt f), fun f hn => ?_⟩
  obtain ⟨u, u', v, v', run, run', put, put', exact, wraps, _⟩ :=
    exec_absNeg (i := .absW f) (i' := .negW f) (m := {}) ht rfl rfl hn (WB.fields_d_lt f)
  refine ⟨u, u', v, v', run, run', put, put', fun hB => (exact hB).1, fun hB => ?_, ?_⟩
  · obtain ⟨low, low', _⟩ := wraps hB rfl
    exact ⟨low, low'⟩
  · by_cases hB : s.op32 h f.fields.b = 0x80000000
    · exact (wraps hB rfl).2.2
    · exact (exact hB).2

end Sys2Proof.Claims
end

section
/-! PROOFS of 06_integer_instructions, elements: a packed operation element by element, and what shifts and saturating sums of an element
give. -/

set_option Elab.async false

namespace Sys2Proof.Machine
open Sys2Proof.Claims

/-! ## Elements of a packed word (R82, R132) -/

/-- Elements of `w` bits, element 0 lowest. -/
def packNat (w : Nat) (l : List Nat) : Nat := l.foldr (fun e acc => e % 2 ^ w + 2 ^ w * acc) 0

theorem pack_eq (w : Nat) (l : List Nat) : pack w l = BitVec.ofNat 32 (packNat w l) := rfl

theorem packNat_lt (w : Nat) (l : List Nat) : packNat w l < 2 ^ (w * l.length) := by
  induction l with
  | nil => simp [packNat]
  | cons e l ih =>
    have low : e % 2 ^ w < 2 ^ w := Nat.mod_lt _ (by positivity)
    calc packNat w (e :: l) = e % 2 ^ w + 2 ^ w * packNat w l := rfl
      _ < 2 ^ w * (packNat w l + 1) := by rw [Nat.mul_add]; omega
      _ ≤ 2 ^ w * 2 ^ (w * l.length) := Nat.mul_le_mul_left _ ih
      _ = 2 ^ (w * (e :: l).length) := by rw [← Nat.pow_add, List.length_cons, Nat.mul_succ, Nat.add_comm]

theorem packNat_element (w : Nat) (l : List Nat) (i : Nat) (hi : i < l.length) :
    packNat w l / 2 ^ (w * i) % 2 ^ w = l[i] % 2 ^ w := by
  induction l generalizing i with
  | nil => exact absurd hi (by simp)
  | cons e l ih =>
    have split : packNat w (e :: l) = e % 2 ^ w + 2 ^ w * packNat w l := rfl
    cases i with
    | zero => simp [split, Nat.add_mul_mod_self_left]
    | succ i =>
      have drop : (e % 2 ^ w + 2 ^ w * packNat w l) / 2 ^ w = packNat w l := by
        rw [Nat.add_mul_div_left _ _ (by positivity), Nat.div_eq_of_lt (Nat.mod_lt _ (by positivity)), Nat.zero_add]
      rw [split, Nat.mul_succ, Nat.add_comm (w * i), Nat.pow_add, ← Nat.div_div_eq_div_mul, drop]
      exact ih i (by simpa using hi)

/-- Elements that fill a word read back from it. -/
theorem elem_pack {w : Nat} {l : List Nat} (fills : w * l.length = 32) {i : Nat} (hi : i < l.length) :
    elem w (pack w l) i = l[i] % 2 ^ w := by
  have fits := packNat_lt w l
  rw [fills] at fits
  rw [elem, pack_eq, BitVec.toNat_ofNat, Nat.mod_eq_of_lt fits, packNat_element w l i hi]

theorem elem_lt (w : Nat) (x : Word) (i : Nat) : elem w x i < 2 ^ w := Nat.mod_lt _ (by positivity)

theorem ewWidth_pos (ew : EW) : 0 < ewWidth ew := by cases ew <;> decide

theorem ewWidth_fills (ew : EW) : ewWidth ew * (32 / ewWidth ew) = 32 := by cases ew <;> rfl

theorem elem_packed (m : IntMod) (op : Nat → Nat → Int × Bool) (a b : Word) {i : Nat} (hi : i < 32 / ewWidth m.ew) :
    elem (ewWidth m.ew) (packed m (fun _ => op) a b).1 i =
      ((op (elem (ewWidth m.ew) a i) (elem (ewWidth m.ew) b i)).1 % 2 ^ ewWidth m.ew).toNat := by
  have low (t : Int) : narrow (ewWidth m.ew) t < 2 ^ ewWidth m.ew := by
    rw [narrow, Int.toNat_lt (Int.emod_nonneg _ (by positivity))]
    exact_mod_cast Int.emod_lt_of_pos t (by positivity)
  rw [packed, zipEl, elem_pack (by simp [ewWidth_fills]) (by simpa using hi)]
  simp only [List.getElem_map, List.getElem_range]
  exact Nat.mod_eq_of_lt (low _)

/-! ## Clamping (R136, R138) -/

theorem loBound_nonpos (u : Bool) (w : Nat) : loBound u w ≤ 0 := by
  cases u with
  | true => rfl
  | false => exact neg_nonpos.mpr (by positivity)

theorem hiBound_nonneg (u : Bool) (w : Nat) : 0 ≤ hiBound u w := by
  cases u with
  | true => exact sub_nonneg.mpr (one_le_pow₀ (by decide))
  | false => exact sub_nonneg.mpr (one_le_pow₀ (by decide))

theorem loBound_le_hiBound (u : Bool) (w : Nat) : loBound u w ≤ hiBound u w := (loBound_nonpos u w).trans (hiBound_nonneg u w)

theorem clampIf_bounds (u : Bool) (w : Nat) (t : Int) :
    loBound u w ≤ (clampIf true u w t).1 ∧ (clampIf true u w t).1 ≤ hiBound u w := by
  have ordered := loBound_le_hiBound u w
  simp only [clampIf, Bool.true_and, decide_eq_true_eq]
  split
  · exact ⟨le_refl _, ordered⟩
  · split
    · exact ⟨ordered, le_refl _⟩
    · exact ⟨by omega, by omega⟩

theorem clampIf_above {u : Bool} {w : Nat} {t : Int} (h : hiBound u w < t) : (clampIf true u w t).1 = hiBound u w := by
  have ordered := loBound_le_hiBound u w
  have high : ¬ t < loBound u w := by omega
  simp [clampIf, h, high]

theorem clampIf_below {u : Bool} {w : Nat} {t : Int} (h : t < loBound u w) : (clampIf true u w t).1 = loBound u w := by
  simp [clampIf, h]

/-! ## Shifts by the width or more (R146) -/

theorem readEl_false (w x : Nat) : readEl false w x = if x < 2 ^ (w - 1) then (x : Int) else x - 2 ^ w := by
  simp [readEl]

theorem sarEl_wide {m : IntMod} {x n : Nat} (hx : x < 2 ^ ewWidth m.ew) (hn : ewWidth m.ew ≤ n) :
    (sarEl m x n).1 = if x < 2 ^ (ewWidth m.ew - 1) then 0 else -1 := by
  have below : (x : Int) < 2 ^ ewWidth m.ew := by exact_mod_cast hx
  simp only [sarEl, if_pos hn, readEl_false]
  split_ifs <;> omega

/-- A value of 1 or more is past the upper bound when shifted by the width, and one of −1 or less past the lower bound of a signed
reading. -/
theorem hiBound_lt_shifted (u : Bool) (w : Nat) {t : Int} (ht : 1 ≤ t) : hiBound u w < t * 2 ^ w := by
  have shifted : 2 ^ w ≤ t * 2 ^ w := le_mul_of_one_le_left (by positivity) ht
  have half : (2 : Int) ^ (w - 1) ≤ 2 ^ w := pow_le_pow_right₀ (by decide) (Nat.sub_le w 1)
  cases u with
  | true => exact Int.sub_one_lt_of_le shifted
  | false => exact Int.sub_one_lt_of_le (half.trans shifted)

theorem shifted_lt_loBound {w : Nat} (hw : 0 < w) {t : Int} (ht : t ≤ -1) : t * 2 ^ w < loBound false w := by
  have shifted : t * 2 ^ w ≤ -1 * 2 ^ w := mul_le_mul_of_nonneg_right ht (by positivity)
  have half : (2 : Int) ^ (w - 1) < 2 ^ w := pow_lt_pow_right₀ (by decide) (by omega)
  simp only [loBound, Bool.false_eq_true, if_false]
  omega

/-- With SAT a shift by the width or more clamps the element shifted by the width. -/
theorem shlEl_sat {m : IntMod} {x n : Nat} (hm : m.sat = true) (hn : ewWidth m.ew ≤ n) :
    shlEl m x n = clampIf true m.u (ewWidth m.ew) (readEl m.u (ewWidth m.ew) x * 2 ^ ewWidth m.ew) := by
  rw [shlEl, if_pos hm, show Nat.min n (ewWidth m.ew) = ewWidth m.ew from Nat.min_eq_right hn]

/-- Any element but zero is then past the bound of its sign. -/
theorem shlEl_wide_sat {m : IntMod} {x n : Nat} (hm : m.sat = true) (hx : x < 2 ^ ewWidth m.ew) (hn : ewWidth m.ew ≤ n) :
    (shlEl m x n).1 = if x = 0 then 0 else if m.u = true then 2 ^ ewWidth m.ew - 1
      else if x < 2 ^ (ewWidth m.ew - 1) then 2 ^ (ewWidth m.ew - 1) - 1 else -2 ^ (ewWidth m.ew - 1) := by
  have hw := ewWidth_pos m.ew
  have below : (x : Int) < 2 ^ ewWidth m.ew := by exact_mod_cast hx
  rw [shlEl_sat hm hn]
  generalize ewWidth m.ew = w at hw below ⊢
  split
  · next zero =>
    have reads : readEl m.u w x = 0 := by simp [zero, readEl]
    rw [reads, Int.zero_mul, clampIf_within (loBound_nonpos m.u w) (hiBound_nonneg m.u w)]
  · next nonzero =>
    split
    · next hu =>
      rw [hu, readEl_unsigned, clampIf_above (hiBound_lt_shifted true w (by omega))]
      rfl
    · next hu =>
      rw [Bool.not_eq_true] at hu
      rw [hu, readEl_false]
      split
      · rw [clampIf_above (hiBound_lt_shifted false w (by omega))]
        rfl
      · rw [clampIf_below (shifted_lt_loBound hw (by omega))]
        rfl

end Sys2Proof.Machine

namespace Sys2Proof.Claims
open Sys2Proof.Machine

/-- Settles O52: the elements of a packed word read back from it; the shifts and sums of one element are then cases of its sign and of the
clamp. -/
theorem elementsApart : Obligations.ElementsApart := by
  unfold Obligations.ElementsApart
  intro m a b i hi w x n
  have hx : x < 2 ^ w := elem_lt w a i
  refine ⟨fun op _ => elem_packed m op a b hi, fun hn => ⟨?_, sarEl_wide hx hn, fun hm => ?_, fun hm => shlEl_wide_sat hm hx hn⟩,
    fun hm op hop => ?_⟩
  · simp only [shrEl, if_pos (show ewWidth m.ew ≤ n from hn)]
  · simp [shlEl, hm, show ewWidth m.ew ≤ n from hn]
  · have clamps : ∃ t, op x n = clampIf true m.u w t := by
      simp only [List.mem_cons, List.not_mem_nil, or_false] at hop
      rcases hop with rfl | rfl
      · exact ⟨_, by rw [addEl, hm]⟩
      · exact ⟨_, by rw [subEl, hm]⟩
    obtain ⟨t, e⟩ := clamps
    rw [e]
    exact clampIf_bounds m.u w t

end Sys2Proof.Claims
end

section
/-! PROOFS of 07_float_and_crosslane, floating point. -/

set_option Elab.async false

namespace Sys2Proof.Claims
open Sys2Proof.Machine

/-- Settles O3: each floating-point instruction and special function runs a lane that ends with its result. -/
theorem floatCompletes : Obligations.FloatCompletes := by
  unfold Obligations.FloatCompletes
  exact fun s h i r ht hr hn => exec_of_guarded ht hn (exec_floatWord hr)

end Sys2Proof.Claims
end

section
/-! PROOFS of 07_float_and_crosslane, cross-lane: the groups that an arrival joins or opens, what each member of a completed group takes,
and the three ways in which a cross-lane instruction of a user thread ends. -/

set_option Elab.async false

namespace Sys2Proof.Machine
open Sys2Proof.Laws Sys2Proof.Claims

/-! ## Lanes of a row (R23) -/

theorem hartAt_user (c r lane : Nat) : hartAt c (1 + r) lane = .user c (64 * r + lane) := by
  simp [hartAt]

theorem hartAt_own (c t : Nat) : hartAt c (1 + t / 64) (t % 64) = .user c t := by
  rw [hartAt_user, Nat.div_add_mod]

theorem mem_maskLanes {mask : BitVec 64} {l : Nat} : l ∈ maskLanes mask ↔ l < 64 ∧ mask.getLsbD l = true := by
  simp [maskLanes, allLanes]

/-- The lanes of a mask of one lane are that lane. -/
theorem mem_maskLanes_single {lane l : Nat} (hl : lane < 64) : l ∈ maskLanes (BitVec.ofNat 64 (2 ^ lane)) ↔ l = lane := by
  rw [mem_maskLanes, BitVec.getLsbD_ofNat, Nat.testBit_two_pow, Bool.and_eq_true, decide_eq_true_eq, decide_eq_true_eq]
  omega

/-! ## Groups (R165) -/

theorem XGroup.complete_iff {g : XGroup} :
    g.complete = true ↔ ∀ l, l < 64 → g.mask.getLsbD l = true → ∃ m ∈ g.members, m.lane = l := by
  simp [XGroup.complete, mem_maskLanes]

/-- A group with a lane of its mask that no member is on is still open. -/
theorem XGroup.complete_eq_false {g : XGroup} {l : Nat} (hl : l < 64) (named : g.mask.getLsbD l = true)
    (away : ∀ m ∈ g.members, m.lane ≠ l) : g.complete = false := by
  rw [← Bool.not_eq_true, XGroup.complete_iff]
  intro full
  obtain ⟨m, hm, on⟩ := full l hl named
  exact away m hm on

theorem mem_insertMember {m m' : XMember} {ms : List XMember} : m' ∈ insertMember m ms ↔ m' = m ∨ m' ∈ ms := by
  induction ms with
  | nil => simp [insertMember]
  | cons x xs ih =>
    rw [insertMember]
    split
    · simp
    · rw [List.mem_cons, ih, List.mem_cons, or_left_comm]

/-- Is a group of a row that has a member on the lane? -/
def XGroup.has (row lane : Nat) (g : XGroup) : Bool := g.row == row && g.members.any (fun x => x.lane == lane)

theorem XGroup.has_iff {row lane : Nat} {g : XGroup} : g.has row lane = true ↔ g.row = row ∧ ∃ m ∈ g.members, m.lane = lane := by
  simp [XGroup.has]

/-- No group of the row has a member on the lane. -/
def LaneAway (row lane : Nat) (gs : List XGroup) : Prop := ∀ g ∈ gs, g.row = row → ∀ m ∈ g.members, m.lane ≠ lane

theorem LaneAway.has {row lane : Nat} {gs : List XGroup} (away : LaneAway row lane gs) {g : XGroup} (hg : g ∈ gs) :
    g.has row lane = false := by
  rw [← Bool.not_eq_true, XGroup.has_iff]
  rintro ⟨hr, m, hm, on⟩
  exact away g hg hr m hm on

theorem LaneAway.find? {row lane : Nat} {gs : List XGroup} (away : LaneAway row lane gs) : gs.find? (XGroup.has row lane) = none :=
  List.find?_eq_none.mpr fun g hg => by simp [away.has hg]

/-- An arrival whose lane no group of its row names opens one. -/
theorem joinGroup_opens {row : Nat} {mask : BitVec 64} {m : XMember} {gs : List XGroup}
    (unnamed : ∀ g ∈ gs, g.row = row → g.mask.getLsbD m.lane = false) : joinGroup row mask m gs = gs ++ [⟨row, mask, [m]⟩] := by
  induction gs with
  | nil => rfl
  | cons g gs ih =>
    obtain ⟨head, tail⟩ := List.forall_mem_cons.mp unnamed
    have passes : ¬(decide (g.row = row) && g.mask.getLsbD m.lane) = true := by simpa using head
    rw [joinGroup, if_neg passes, ih tail, List.cons_append]

theorem find?_opened {row : Nat} {mask : BitVec 64} {m : XMember} {gs : List XGroup} (away : LaneAway row m.lane gs) :
    (gs ++ [(⟨row, mask, [m]⟩ : XGroup)]).find? (XGroup.has row m.lane) = some ⟨row, mask, [m]⟩ := by
  have opened : XGroup.has row m.lane ⟨row, mask, [m]⟩ = true := XGroup.has_iff.mpr ⟨rfl, m, List.mem_singleton_self m, rfl⟩
  rw [List.find?_append, away.find?, Option.none_or, List.find?_singleton, if_pos opened]

/-- An arrival is found in the first group of its row that names its lane. -/
theorem find?_joined {row : Nat} {mask : BitVec 64} {m : XMember} {gs : List XGroup} {g : XGroup}
    (first : gs.find? (fun g => g.row == row && g.mask.getLsbD m.lane) = some g) (away : LaneAway row m.lane gs) :
    (joinGroup row mask m gs).find? (XGroup.has row m.lane) = some { g with members := insertMember m g.members } := by
  induction gs with
  | nil => cases first
  | cons g0 gs ih =>
    obtain ⟨-, tail⟩ := List.forall_mem_cons.mp away
    rw [joinGroup]
    rw [List.find?_cons] at first
    split
    · next names =>
      have names' : (g0.row == row && g0.mask.getLsbD m.lane) = true := by simpa using names
      rw [names'] at first
      cases first
      have own : g.row = row := (by simpa using names : g.row = row ∧ _).1
      exact List.find?_cons_of_pos (XGroup.has_iff.mpr ⟨own, m, mem_insertMember.mpr (.inl rfl), rfl⟩)
    · next passes =>
      have passes' : (g0.row == row && g0.mask.getLsbD m.lane) = false := by simpa using passes
      rw [passes'] at first
      rw [List.find?_cons_of_neg (by simp [away.has List.mem_cons_self]), ih first tail]

/-! ## Results (R169, R170) -/

theorem find?_lane (ms : List XMember) (l : Nat) :
    ms.find? (fun m => decide ((m.lane : Int) = l)) = ms.find? (fun m => m.lane == l) := by
  simp only [Int.natCast_inj, beq_eq_decide]

/-- The lane that SHFL.up selects; below lane 0 there is none. -/
theorem find?_lane_up (ms : List XMember) (lane y : Nat) :
    ms.find? (fun m => decide ((m.lane : Int) = (lane : Int) - y)) =
      (shflFrom .up lane y).bind (fun l => ms.find? (fun m => m.lane == l)) := by
  rw [shflFrom]
  split
  · next le => rw [Option.bind_some, ← find?_lane, Int.ofNat_sub le]
  · rw [Option.bind_none, List.find?_eq_none]
    intro m _
    rw [decide_eq_true_eq]
    omega

/-- The lanes of the members that a predicate picks, as a mask. -/
theorem sumLanes_filter (ms : List XMember) (p : XMember → Bool) :
    sumLanes ((ms.filter p).map (·.lane)) = (ms.filter p).foldl (fun v m => v ||| BitVec.ofNat 64 (2 ^ m.lane)) 0 := by
  rw [sumLanes, List.foldl_map]

/-- A SHFL takes the value of the member that it selects, or its own. -/
theorem memberResult_shfl {ms : List XMember} {me : XMember} {mode : ShflMode} (hop : me.op = .shfl mode) :
    memberResult ms me =
      let m := ((shflFrom mode me.lane (me.y.getD 0).toNat).bind (fun l => ms.find? (fun m => m.lane == l))).getD me
      some ⟨m.x.lo.setWidth 64, false, m.xp || me.yp, 0⟩ := by
  simp only [memberResult, hop]
  cases mode with
  | idx => simp only [find?_lane, shflFrom, Option.bind_some]
  | up => simp only [find?_lane_up]
  | down => simp only [← Int.natCast_add, find?_lane, shflFrom, Option.bind_some]
  | bxor => simp only [find?_lane, shflFrom, Option.bind_some]

/-- The result of a member that the statements give is the one that it takes, and it rests on no free value. -/
theorem xResult_of_memberResult (ms : List XMember) (me : XMember) (s : State) :
    ∀ r ∈ memberResult ms me, xResult ms me s = (r, s) := by
  cases hop : me.op with
  | shfl mode =>
    simp only [memberResult_shfl hop, xResult, hop, Option.mem_some_iff, forall_eq']
    cases (shflFrom mode me.lane (me.y.getD 0).toNat).bind (fun l => ms.find? (fun m => m.lane == l)) with
    | none => rfl
    | some m => rfl
  | bcst =>
    intro r hr
    simp only [memberResult, hop, find?_lane] at hr
    cases ms with
    | nil => cases hr
    | cons g0 ms =>
      obtain ⟨y, hy, rfl⟩ := Option.map_eq_some_iff.mp hr
      simp only [xResult, hop, hy]
      cases (g0 :: ms).find? (fun m => m.lane == y.toNat) with
      | none => rfl
      | some m => rfl
  | vote mode =>
    cases mode with
    | any =>
      simp only [memberResult, xResult, hop, Option.mem_some_iff, forall_eq']
      have empty : ((ms.filter (fun m => m.x.lo ≠ 0)).map (·.lane)).isEmpty = true ↔ ¬∃ m ∈ ms, m.x.lo ≠ 0 := by simp
      simp only [empty, ite_not]
    | all => simp [memberResult, xResult, hop, List.length_filter_eq_length_iff]
    | ballot => simp only [memberResult, xResult, hop, Option.mem_some_iff, forall_eq', sumLanes_filter]
  | match_ => simp only [memberResult, xResult, hop, Option.mem_some_iff, forall_eq', sumLanes_filter]
  | elect => simp only [memberResult, xResult, hop, Option.mem_some_iff, forall_eq', List.head?_map, List.head?_filter]
  | lred opc u => simp only [memberResult, xResult, hop, Option.mem_some_iff, forall_eq', chainOver]
  | lscan opc u excl => simp only [memberResult, xResult, hop, Option.mem_some_iff, forall_eq', chainOver]

theorem lo_setWidth (w : Word) : Pair.lo (w.setWidth 64) = w := by
  rw [Pair.lo, BitVec.setWidth_setWidth_of_le _ (by decide), BitVec.setWidth_eq]

theorem getD_find?_single (me : XMember) (p : XMember → Bool) : ([me].find? p).getD me = me := by
  rw [List.find?_singleton]
  split
  · rfl
  · rfl

theorem foldl_lanes_single (me : XMember) (p : XMember → Bool) :
    ([me].filter p).foldl (fun v m => v ||| BitVec.ofNat 64 (2 ^ m.lane)) 0 = if p me then BitVec.ofNat 64 (2 ^ me.lane) else 0 := by
  cases picked : p me with
  | true => simp [picked]
  | false => simp [picked]

/-- A member alone in its group takes what its own values give. -/
theorem memberResult_alone {s : State} {h : Hart} {i : Instr} {x : CrossLane} (hi : crossLane i = some x) :
    let me := memberOf s h i x
    let r := aloneResult me.lane (if x.aw = .pair then (s.opPair h x.f.a).lo else s.op32 h x.f.a) (s.opPair h x.f.a) (s.fmode h) i
    memberResult [me] me = some ⟨r.1, decide (x.dw = .pair),
      (r.2.1 && s.opPoison h x.f.a x.aw) || (x.hasB && s.opPoison h x.f.b .w32), r.2.2⟩ := by
  cases i with
  | shfl f mode =>
    cases hi
    simp only [memberResult, memberOf, crossOp, getD_find?_single]
    simp [aloneResult, lo_setWidth]
  | bcst f =>
    cases hi
    simp only [memberResult, memberOf, crossOp, List.head?_cons, getD_find?_single]
    simp [aloneResult]
  | vote f mode =>
    cases hi
    cases mode with
    | any => simp [memberResult, memberOf, crossOp, aloneResult, lo_setWidth]
    | all => simp [memberResult, memberOf, crossOp, aloneResult, lo_setWidth]
    | ballot =>
      simp only [memberResult, memberOf, crossOp, foldl_lanes_single]
      simp [aloneResult, lo_setWidth]
  | lred f m =>
    cases hi
    simp [memberResult, memberOf, crossOp, aloneResult, lo_setWidth]
  | lscan f m =>
    cases hi
    cases excl : m.excl with
    | true => simp [memberResult, memberOf, crossOp, aloneResult, excl]
    | false => simp [memberResult, memberOf, crossOp, aloneResult, lo_setWidth, excl]
  | elect f =>
    cases hi
    simp [memberResult, memberOf, crossOp, aloneResult, lo_setWidth]
  | _ =>
    -- MATCH alone is left: `cases hi` closes every instruction that is not of R163.
    cases hi <;> simp [memberResult, memberOf, crossOp, aloneResult]

/-! ## The members of a completed group (R166) -/

/-- A member's thread once it has taken its result: Ready after its instruction. -/
def Thread.wokenWith (d : Dest) (r : XOut) (th : Thread) : Thread := { th.takeX d r with run := .ready, pc := th.npc, age := 0 }

/-- The result of a member of `ms` taken, and its thread woken. -/
def wakeMember (c row : Nat) (ms : List XMember) (s : State) (m : XMember) : State :=
  let r := xResult ms m s
  r.2.wake (hartAt c row m.lane) (·.takeX m.dst r.1)

theorem finishGroup_eq (c : Nat) (g : XGroup) (self : XMember) (s : State) :
    finishGroup c g self s =
      let w := (g.members.filter (fun m => m.lane ≠ self.lane)).foldl (wakeMember c g.row g.members) s
      let r := xResult g.members self w
      r.2.modThread (hartAt c g.row self.lane) (·.takeX self.dst r.1) := rfl

/-- A member with a result goes on, and nothing else changes. -/
theorem wakeMember_eq {ms : List XMember} {m : XMember} {o : XOut} (ho : memberResult ms m = some o) (c r : Nat) (s : State) :
    wakeMember c (1 + r) ms s m = s.modThread (hartAt c (1 + r) m.lane) (Thread.wokenWith m.dst o) := by
  rw [wakeMember, xResult_of_memberResult ms m s o ho, hartAt_user]
  rfl

/-! ## What a wake leaves (R166) -/

theorem State.modThread_groups (s : State) (h : Hart) (f : Thread → Thread) (c : Nat) :
    ((s.modThread h f).core c).groups = (s.core c).groups := by
  obtain ⟨-, -, -, -, cores, -⟩ := othersKept_modThread s h f
  have same := congrArg Core.groups (cores c)
  exact same

theorem otherHart_lane {l l' : Nat} (hne : l' ≠ l) (c r : Nat) : OtherHart (hartAt c (1 + r) l) (hartAt c (1 + r) l') := by
  rw [OtherHart, hartAt_user, hartAt_user, Hart.key, Hart.key]
  exact .inr (by omega)

theorem otherHart_own {c t l : Nat} (hne : l ≠ t % 64) : OtherHart (.user c t) (hartAt c (1 + t / 64) l) := by
  have apart := otherHart_lane hne c (t / 64)
  rwa [hartAt_own] at apart

theorem State.modThread_other {h h' : Hart} (ho : OtherHart h h') (s : State) (f : Thread → Thread) :
    (s.modThread h f).thread h' = s.thread h' := by
  obtain ⟨harts, -⟩ := othersKept_modThread s h f
  exact harts h' ho

/-- The core and the memory, but for the threads of the members, are as they were. -/
theorem foldl_wakeMember_rest {ms ls : List XMember} (results : ∀ m ∈ ls, (memberResult ms m).isSome = true) (c r : Nat) (s : State) :
    (ls.foldl (wakeMember c (1 + r) ms) s).mem = s.mem ∧
      ((ls.foldl (wakeMember c (1 + r) ms) s).core c).groups = (s.core c).groups := by
  induction ls generalizing s with
  | nil => exact ⟨rfl, rfl⟩
  | cons m ls ih =>
    obtain ⟨head, tail⟩ := List.forall_mem_cons.mp results
    obtain ⟨o, ho⟩ := Option.isSome_iff_exists.mp head
    obtain ⟨mem, groups⟩ := ih tail (wakeMember c (1 + r) ms s m)
    rw [List.foldl_cons, mem, groups, wakeMember_eq ho]
    exact ⟨State.modThread_mem _ _ _, State.modThread_groups _ _ _ _⟩

theorem foldl_wakeMember_otherLane {ms ls : List XMember} {l : Nat} (results : ∀ m ∈ ls, (memberResult ms m).isSome = true)
    (away : ∀ m ∈ ls, m.lane ≠ l) (c r : Nat) (s : State) :
    (ls.foldl (wakeMember c (1 + r) ms) s).thread (hartAt c (1 + r) l) = s.thread (hartAt c (1 + r) l) := by
  induction ls generalizing s with
  | nil => rfl
  | cons m ls ih =>
    obtain ⟨head, tail⟩ := List.forall_mem_cons.mp results
    obtain ⟨apart, away⟩ := List.forall_mem_cons.mp away
    obtain ⟨o, ho⟩ := Option.isSome_iff_exists.mp head
    rw [List.foldl_cons, ih tail away, wakeMember_eq ho, State.modThread_other (otherHart_lane apart.symm c r)]

/-- Each member is woken with its own result. -/
theorem foldl_wakeMember_lane {ms ls : List XMember} (results : ∀ m ∈ ls, (memberResult ms m).isSome = true)
    (lanes : (ls.map (·.lane)).Nodup) {m : XMember} (hm : m ∈ ls) {o : XOut} (ho : memberResult ms m = some o) (c r : Nat) (s : State) :
    (ls.foldl (wakeMember c (1 + r) ms) s).thread (hartAt c (1 + r) m.lane) =
      (s.thread (hartAt c (1 + r) m.lane)).wokenWith m.dst o := by
  induction ls generalizing s with
  | nil => cases hm
  | cons x ls ih =>
    obtain ⟨head, tail⟩ := List.forall_mem_cons.mp results
    obtain ⟨once, rest⟩ := List.nodup_cons.mp lanes
    rw [List.foldl_cons]
    rcases List.mem_cons.mp hm with rfl | hm
    · have away : ∀ y ∈ ls, y.lane ≠ m.lane := fun y hy e => once (List.mem_map.mpr ⟨y, hy, e⟩)
      rw [foldl_wakeMember_otherLane tail away, wakeMember_eq ho, State.modThread_thread]
    · obtain ⟨o', ho'⟩ := Option.isSome_iff_exists.mp head
      have apart : m.lane ≠ x.lane := fun e => once (List.mem_map.mpr ⟨m, hm, e⟩)
      rw [ih tail rest hm, wakeMember_eq ho', State.modThread_other (otherHart_lane apart c r)]

/-- What the end of a group `ms` of row 1 + `r`, `self` the last to arrive, leaves, `h` its hart (R166). -/
structure GroupFinished (c r : Nat) (ms : List XMember) (self : XMember) (h : Hart) (s u : State) : Prop where
  mem : u.mem = s.mem
  groups : (u.core c).groups = (s.core c).groups
  own : ∀ o, memberResult ms self = some o → u.thread h = (s.thread h).takeX self.dst o
  others : ∀ m ∈ ms, m.lane ≠ self.lane → ∀ o, memberResult ms m = some o →
    u.thread (hartAt c (1 + r) m.lane) = (s.thread (hartAt c (1 + r) m.lane)).wokenWith m.dst o

theorem groupFinished_finishGroup {c r : Nat} {g : XGroup} {self : XMember} {h : Hart} (hr : g.row = 1 + r)
    (hh : hartAt c (1 + r) self.lane = h) (hself : self ∈ g.members) (lanes : (g.members.map (·.lane)).Nodup)
    (results : ∀ m ∈ g.members, (memberResult g.members m).isSome = true) (s : State) :
    GroupFinished c r g.members self h s (finishGroup c g self s) := by
  subst hh
  have kept : g.members.filter (fun m => m.lane ≠ self.lane) ⊆ g.members := List.filter_subset_self _
  have results' := fun m hm => results m (kept hm)
  obtain ⟨own, ho⟩ := Option.isSome_iff_exists.mp (results self hself)
  have away : ∀ m ∈ g.members.filter (fun m => m.lane ≠ self.lane), m.lane ≠ self.lane := fun m hm => by
    simpa using (List.mem_filter.mp hm).2
  obtain ⟨mem, groups⟩ := foldl_wakeMember_rest results' c r s
  simp only [finishGroup_eq, hr, xResult_of_memberResult _ _ _ own ho]
  refine ⟨?_, ?_, fun o e => ?_, fun m hm hne o e => ?_⟩
  · rw [State.modThread_mem, mem]
  · rw [State.modThread_groups, groups]
  · rw [ho] at e
    cases e
    rw [State.modThread_thread, foldl_wakeMember_otherLane results' away]
  · rw [State.modThread_other (otherHart_lane hne c r)]
    have other : m ∈ g.members.filter (fun m => m.lane ≠ self.lane) := List.mem_filter.mpr ⟨hm, decide_eq_true hne⟩
    exact foldl_wakeMember_lane results' (lanes.sublist (List.filter_sublist.map _)) other e c r s

/-! ## Arrival (R164, R165) -/

/-- The state with other open groups on a core. -/
def State.withGroups (s : State) (c : Nat) (gs : List XGroup) : State := s.modCore c (fun k => { k with groups := gs })

theorem State.withGroups_mem (s : State) (c : Nat) (gs : List XGroup) : (s.withGroups c gs).mem = s.mem := rfl

theorem State.withGroups_groups (s : State) (c : Nat) (gs : List XGroup) : ((s.withGroups c gs).core c).groups = gs := by
  rw [State.withGroups, core_modCore, if_pos rfl]

theorem State.withGroups_thread (s : State) (c : Nat) (gs : List XGroup) (h : Hart) : (s.withGroups c gs).thread h = s.thread h := by
  cases h with
  | mgmt => rfl
  | _ =>
    simp only [State.withGroups, State.thread, core_modCore]
    split
    · next e => rw [e]; rfl
    · rfl

/-- An arrival completes the group in which it is found, or parks. -/
theorem arriveGroup_found {c row : Nat} {mask : BitVec 64} {m : XMember} {s : State} {g : XGroup}
    (found : (joinGroup row mask m (s.core c).groups).find? (XGroup.has row m.lane) = some g) :
    arriveGroup c row mask m s =
      if g.complete = true then .ok (finishGroup c g m
        (s.withGroups c ((joinGroup row mask m (s.core c).groups).filter (· ≠ g))))
      else .park (s.withGroups c (joinGroup row mask m (s.core c).groups)) .xlane := by
  have found' : (joinGroup row mask m (s.core c).groups).find?
      (fun g => g.row == row && g.members.any (fun x => x.lane == m.lane)) = some g := found
  simp only [arriveGroup, found', State.withGroups]

/-- The mask of a thread that names its own lane alone raises no trap where the thread runs. -/
theorem maskTraps_alone {s : State} {c t : Nat} {mask : BitVec 64} (free : FreeLane s c t)
    (own : ∀ l, l ∈ maskLanes mask ↔ l = t % 64) :
    ∀ q ∈ maskTraps (s.core c) c (1 + t / 64) (t % 64) mask false, q.1 = false := by
  obtain ⟨thread, runs, -, -⟩ := free
  have held : (s.core c).laneHeld (1 + t / 64) (t % 64) = true := by simp [Core.laneHeld, Nat.div_add_mod, thread]
  have stays : (s.core c).laneExited c (1 + t / 64) (t % 64) = false := by simp [Core.laneExited, hartAt_own, Hart.key, runs]
  have named : mask.getLsbD (t % 64) = true := (mem_maskLanes.mp ((own _).mpr rfl)).2
  simp [maskTraps, own, held, stays, named]

section
variable {s : State} {c t : Nat} {i : Instr} {x : CrossLane} (hi : crossLane i = some x) (hn : Named s (.user c t) x.uses)
  (clear : ∀ q ∈ maskTraps (s.core c) c (1 + t / 64) (t % 64) (s.opPair (.user c t) x.f.c) (s.opPoison (.user c t) x.f.c .pair),
    q.1 = false)
include hi hn clear

/-- A cross-lane instruction of a user thread whose fields and mask raise no trap arrives. -/
theorem exec_arrives :
    ∃ l, exec i s = issue 0 .compute i l s ∧
      l (.user c t) s = arriveGroup c (1 + t / 64) (s.opPair (.user c t) x.f.c) (memberOf s (.user c t) i x) s := by
  cases i with
  | _ => cases hi <;> exact ⟨_, rfl, (guardOps_named hn _).trans (firstTrap_none clear _)⟩

variable {g : XGroup} (ht : UserTurn s c t)
  (found : (joinGroup (1 + t / 64) (s.opPair (.user c t) x.f.c) (memberOf s (.user c t) i x) (s.core c).groups).find?
    (XGroup.has (1 + t / 64) (t % 64)) = some g)
include ht found

/-- It parks where its group waits for another lane. -/
theorem exec_waits (waits : g.complete = false) :
    let h : Hart := .user c t
    exec i s = .next (parkedAt h i s
      (s.withGroups c (joinGroup (1 + t / 64) (s.opPair h x.f.c) (memberOf s h i x) (s.core c).groups)) .xlane) := by
  obtain ⟨l, runs, arrives⟩ := exec_arrives hi hn clear
  exact exec_user_parked ht runs (arrives.trans ((arriveGroup_found found).trans (if_neg (by simp [waits]))))

/-- It completes its group where that waits for none: each member goes on with its own result. -/
theorem exec_completes (full : g.complete = true) (hself : memberOf s (.user c t) i x ∈ g.members)
    (lanes : (g.members.map (·.lane)).Nodup) (results : ∀ m ∈ g.members, (memberResult g.members m).isSome = true) :
    let h : Hart := .user c t
    let me := memberOf s h i x
    ∃ u, exec i s = .next u ∧ u.mem = s.mem ∧
      (∀ r, memberResult g.members me = some r → u.thread h = { (s.thread h).takeX me.dst r with pc := nextPc s h i, age := 0 }) ∧
      (∀ m ∈ g.members, m.lane ≠ t % 64 → ∀ r, memberResult g.members m = some r →
        u.thread (hartAt c (1 + t / 64) m.lane) = (s.thread (hartAt c (1 + t / 64) m.lane)).wokenWith m.dst r) ∧
      (u.core c).groups = (joinGroup (1 + t / 64) (s.opPair h x.f.c) me (s.core c).groups).filter (· ≠ g) := by
  intro h me
  obtain ⟨l, runs, arrives⟩ := exec_arrives hi hn clear
  obtain ⟨row, -⟩ := XGroup.has_iff.mp (List.find?_some found)
  obtain ⟨mem, groups, own, others⟩ := groupFinished_finishGroup row (hartAt_own c t) hself lanes results
    (s.withGroups c ((joinGroup (1 + t / 64) (s.opPair h x.f.c) me (s.core c).groups).filter (· ≠ g)))
  refine ⟨_, exec_user_done ht runs (arrives.trans ((arriveGroup_found found).trans (if_pos full))), ?_, fun r hr => ?_,
    fun m hm hne r hr => ?_, ?_⟩
  · rw [done, State.modThread_mem, mem, State.withGroups_mem]
  · rw [done_thread, own r hr, State.withGroups_thread]
  · rw [done, State.modThread_other (otherHart_own hne), others m hm hne r hr, State.withGroups_thread]
  · rw [done, State.modThread_groups, groups, State.withGroups_groups]

end

/-- A thread alone in its mask completes at once. -/
theorem exec_alone {s : State} {c t : Nat} {i : Instr} {x : CrossLane} (ht : UserTurn s c t) (hi : crossLane i = some x)
    (hn : Named s (.user c t) x.uses) (free : FreeLane s c t) (mask : s.opPair (.user c t) x.f.c = BitVec.ofNat 64 (2 ^ (t % 64)))
    (clean : s.opPoison (.user c t) x.f.c .pair = false) :
    let me := memberOf s (.user c t) i x
    let h : Hart := .user c t
    ∃ u, exec i s = .next u ∧ u.mem = s.mem ∧ (u.core c).groups = (s.core c).groups ∧
      ∀ r, memberResult [me] me = some r → u.thread h = { (s.thread h).takeX me.dst r with pc := nextPc s h i, age := 0 } := by
  intro me h
  have lane : t % 64 < 64 := Nat.mod_lt t (by decide)
  have own : ∀ l, l ∈ maskLanes (s.opPair h x.f.c) ↔ l = t % 64 := fun l => mask ▸ mem_maskLanes_single lane
  have clear := maskTraps_alone free own
  obtain ⟨-, -, -, apart⟩ := free
  have away : LaneAway (1 + t / 64) me.lane (s.core c).groups := fun g hg hr => (apart g hg hr).2
  have opens := joinGroup_opens (mask := s.opPair h x.f.c) (m := me) (fun g hg hr => (apart g hg hr).1)
  let g : XGroup := ⟨1 + t / 64, s.opPair h x.f.c, [me]⟩
  have full : g.complete = true := XGroup.complete_iff.mpr fun l hl named =>
    ⟨me, List.mem_singleton_self me, ((own l).mp (mem_maskLanes.mpr ⟨hl, named⟩)).symm⟩
  have results : ∀ m ∈ [me], (memberResult [me] m).isSome = true := by
    intro m hm
    rw [List.mem_singleton.mp hm, memberResult_alone hi]
    rfl
  obtain ⟨u, runs, mem, takes, -, groups⟩ := exec_completes hi hn (clean ▸ clear) ht (opens ▸ find?_opened away) full
    (List.mem_singleton_self me) (List.nodup_singleton _) results
  refine ⟨u, runs, mem, ?_, takes⟩
  have fresh : ∀ g' ∈ (s.core c).groups, g' ≠ g := by
    rintro g' hg rfl
    exact away g hg rfl me (List.mem_singleton_self me) rfl
  rw [groups, opens, List.filter_append, List.filter_eq_self.mpr (fun g' hg => decide_eq_true (fresh g' hg))]
  simp [g]

end Sys2Proof.Machine

namespace Sys2Proof.Claims
open Sys2Proof.Machine

/-- Settles O4: an arrival is found in the group that it opens or joins; that group holds its lane alone, or waits for another lane, or
is full, and then each member takes its own result. -/
theorem loneLaneCompletes : Obligations.LoneLaneCompletes := by
  unfold Obligations.LoneLaneCompletes
  refine ⟨fun s c t i x ht hi hn free mask clean => ?_, fun s c t i x g ht hi => ?_, fun s c t i x ht hi => ?_⟩
  · obtain ⟨u, runs, mem, groups, takes⟩ := exec_alone ht hi hn free mask clean
    refine ⟨u, runs, (takes _ (memberResult_alone hi)).trans ?_, groups, mem⟩
    simp only [Thread.takeX, decide_eq_true_eq]
    rfl
  · intro h row me ms hn clear first away
    have hg := List.mem_of_find?_eq_some first
    obtain ⟨own, -⟩ : g.row = row ∧ _ := by simpa using List.find?_some first
    have found := find?_joined (mask := s.opPair h x.f.c) (m := me) first away
    refine ⟨?_, fun full lanes results => ?_⟩
    · rintro ⟨l, hl, named, absent⟩
      exact exec_waits hi hn clear ht found (XGroup.complete_eq_false hl named absent)
    · obtain ⟨u, runs, mem, takes, others, groups⟩ := exec_completes hi hn clear ht found (XGroup.complete_iff.mpr full)
        (mem_insertMember.mpr (.inl rfl)) lanes results
      exact ⟨u, runs, mem, takes, fun m hm => others m (mem_insertMember.mpr (.inr hm)) (away g hg own m hm), groups⟩
  · intro h row mask hn clear unnamed other
    obtain ⟨l, hl, apart, named⟩ := other
    have opens := joinGroup_opens (mask := mask) (m := memberOf s h i x) (fun g hg hr => (unnamed g hg hr).1)
    have found := find?_opened (mask := mask) (m := memberOf s h i x) (fun g hg hr => (unnamed g hg hr).2)
    rw [← opens] at found
    have waits := exec_waits hi hn clear ht found (XGroup.complete_eq_false hl named fun m hm => by
      rw [List.mem_singleton.mp hm]
      exact apart.symm)
    exact waits.trans (by rw [opens]; rfl)

end Sys2Proof.Claims
end

section
/-! PROOFS of 08_matrix, engine waits: MWAIT and EWAIT, by whether a task or an operation that they wait for is live. -/

set_option Elab.async false

namespace Sys2Proof.Machine
open Sys2Proof.Laws Sys2Proof.Claims

/-! ## What a wait finds live (R192, R243) -/

theorem Core.taskLive_iff {k : Core} {token : BitVec 16} : k.taskLive token = true ↔ ∃ x ∈ k.tasks, x.token = token := by
  simp [Core.taskLive]

theorem Core.tasksOf_iff {k : Core} {key : Nat} : k.tasksOf key = true ↔ ∃ x ∈ k.tasks, x.tid = key := by
  simp [Core.tasksOf]

/-- Token 0 waits for every operation of the thread, any other for the operations that hold it. -/
theorem Core.ewaits_iff {k : Core} {tid : Nat} {token : BitVec 16} :
    k.ewaits tid token = true ↔ if token = 0 then ∃ o ∈ k.ops, o.tid = tid else ∃ o ∈ k.ops, o.token = token := by
  rw [Core.ewaits]
  split <;> simp

/-! ## The lanes of the waits -/

/-- An instruction whose one source, b, is named and unpoisoned meets no condition. -/
theorem guardOps_source {s : State} {h : Hart} {b : Opd} {dst : List OpUse} (hs : Sources s h [(b, .w32)] dst) (k : Res) :
    guardOps s h ([(b, .w32)] ++ dst) (firstTrap [poisonTrap [(s.opPoison h b .w32, 1)]] k) = k := by
  obtain ⟨named, clean⟩ := hs
  have unmarked := poisonTrap_clean (clean_singleton 1 (opPoison_of_opsPoison clean List.mem_cons_self))
  rw [guardOps_named named, firstTrap_none (by simp [unmarked])]

/-- MWAIT parks while a task holds its token, and else merges the engine flags. -/
theorem laneMwait_sources {s : State} {h : Hart} {f : Fields} (hs : Sources s h [(f.b, .w32)] []) :
    let tok := (s.op32 h f.b).setWidth 16
    laneMwait f h s = if (s.coreOf h).taskLive tok then .park s (.mwait tok) else .ok (s.modThread h (·.mergeFlags.clearWindow)) :=
  guardOps_source hs _

/-- EWAIT parks while an operation that it waits for is live, and else takes the failure word and sees the completion. -/
theorem laneEwait_sources {s : State} {h : Hart} {f : Fields} (hs : Sources s h [(f.b, .w32)] (f.dst .w32)) :
    let tok := (s.op32 h f.b).setWidth 16
    laneEwait f h s = if (s.coreOf h).ewaits h.key tok then .park s (.ewait tok f.dest)
      else .ok (s.modThread h (fun th => (th.clearWindow.takeFailure f.dest).seeOp tok (mget 0 (s.coreOf h).engView tok.toNat))) :=
  guardOps_source hs _

/-! ## The turn of a user thread that waits -/

/-- An instruction of a user thread whose lane tests for what it waits for ends where there is none of it, and parks where there is. -/
theorem exec_user_wait {s u : State} {c t : Nat} {i : Instr} {l : Hart → State → Res} {w : Wait} {b : Bool} {waits : Prop}
    (ht : UserTurn s c t) (he : exec i s = issue 0 .compute i l s) (hl : l (.user c t) s = if b then .park s w else .ok u)
    (hb : b = true ↔ waits) :
    (¬waits → exec i s = .next (done (.user c t) i s u)) ∧ (waits → exec i s = .next (parkedAt (.user c t) i s s w)) :=
  ⟨fun free => exec_user_done ht he (hl.trans (if_neg (mt hb.mp free))),
    fun live => exec_user_parked ht he (hl.trans (if_pos (hb.mpr live)))⟩

end Sys2Proof.Machine

namespace Sys2Proof.Claims
open Sys2Proof.Machine

/-- Settles O25: each wait ends or parks by whether its core holds a task or an operation that it waits for. -/
theorem engineWaitCompletes : Obligations.EngineWaitCompletes := by
  unfold Obligations.EngineWaitCompletes
  intro s c t f ht h tok merged
  obtain ⟨allEnds, allParks⟩ := exec_user_wait (i := .mwaitAll f) ht rfl rfl Core.tasksOf_iff
  refine ⟨fun hs => ?_, fun idle => allEnds fun ⟨x, hx, own⟩ => idle x hx own, allParks, fun hs => ?_⟩
  · obtain ⟨ends, parks⟩ := exec_user_wait (i := .mwait f) ht rfl (laneMwait_sources hs) Core.taskLive_iff
    exact ⟨fun idle => ends fun ⟨x, hx, named⟩ => idle x hx named, parks⟩
  · exact exec_user_wait ht rfl (laneEwait_sources hs) Core.ewaits_iff

end Sys2Proof.Claims
end
